-- ==== Sys2Proof/Word.lean ====
section
/-! DEFINITION. The word types of the Ekrova 4410 Restore Bridge: what the manual carries as bits. -/

namespace Sys2Proof

/-- One character of a frame, eight data bits (00_scope.md, Pins and straps). -/
abbrev Byte := BitVec 8

/-- A 16-bit field: a tag, an image version (00_scope.md, Terms). -/
abbrev Word16 := BitVec 16

/-- A 32-bit field: a counter, an image check, a directory sequence number. -/
abbrev Word32 := BitVec 32

/-- A reading of the millisecond clock, which wraps modulo 2^32 (R17). -/
abbrev Time := BitVec 32

end Sys2Proof
end

