-- ==== Sys2Proof/Syntax.lean ====
section
/-! DEFINITION. The commands of the bridge: one constructor per row of spec/opcode_table.json, in the table's order.

A command is one whole and indivisible step of 95_what_each_step_holds.md. A request's fields stand in the trunk frame
at the head of ingress, which is state; so the commands that take a frame from ingress carry no operand. The commands
that an outside party decides carry what that party brings: characters, the sampled straps and GAP level, whether the
nonvolatile array failed, and which node or hold entry a timer belongs to. -/

namespace Sys2Proof

/-- The strap pins as sampled at power-on and at RESET (00_scope.md, Pins and straps). `true` is a high level. -/
structure Straps where
  rate1 : Bool
  rate0 : Bool
  gapPol : Bool
  storeSz : Bool
  deriving DecidableEq, Repr

/-- The commands. -/
inductive Instr where
  /-- POWER_ON (R191): the straps and the level of the first sample of GAP (R34). -/
  | powerOn (straps : Straps) (gapHigh : Bool)
  /-- RESET (R191): the straps and the level of the first sample of GAP (R34). -/
  | reset (straps : Straps) (gapHigh : Bool)
  /-- GOOD_FRAME (R180): the characters of a frame after its start character, header, body and check. -/
  | goodFrame (chars : List Byte)
  /-- BAD_FRAME (R182): the characters collected after the start character. -/
  | badFrame (chars : List Byte)
  /-- TRUNK_CHARACTER_GAP (R10): the character that ends the wait, if one has come. -/
  | trunkCharacterGap (ender : Option Byte)
  /-- TRUNK_FRAME_SENT (R181). -/
  | trunkFrameSent
  /-- SEGMENT_REQUEST (R97): the take of a SEGMENT REQUEST from the head of ingress. -/
  | segmentRequest
  /-- UNKNOWN_REQUEST (R182): the take of a MANAGEMENT REQUEST without a known request code. -/
  | unknownRequest
  /-- NON_REQUEST_FRAME (R182): the take of a frame of another kind. -/
  | nonRequestFrame
  | readStatus
  | readNode
  | readRule
  | readSet
  | readCounters
  | readShadow
  | readParameters
  | readIdentity
  | clearCounters
  | writeRule
  | writeDefault
  | writeSet
  | writeNode
  | writeConfigRecord
  | writeParameters
  | setMode
  | storeTables
  | imageOpen
  | imageBlock
  | imageClose
  | imageDiscard
  | imageDrop
  | isolateNode
  | restoreNode
  | restartEngine
  | setIdentity
  | clearFlags
  | setNoticeMask
  /-- ENGINE_RESTART_EFFECT (R83). -/
  | engineRestartEffect
  /-- OPERATION_START (R172). -/
  | operationStart
  /-- BLOCK_PROGRAM_END (R174): whether the array reports a write error. -/
  | blockProgramEnd (writeError : Bool)
  /-- CHECK_READ_END (R175): whether the array fails to give the data. -/
  | checkReadEnd (arrayFails : Bool)
  /-- DIRECTORY_WRITE_END (R171): whether the array reports a write error. -/
  | directoryWriteEnd (writeError : Bool)
  /-- TABLE_WRITE_END (R190): whether the array reports a write error. -/
  | tableWriteEnd (writeError : Bool)
  /-- STORE_READ_END (R149): whether the array fails to give the data. -/
  | storeReadEnd (arrayFails : Bool)
  | gapEdgeAbsent
  | gapEdgePresent
  | gapStart
  | gapEnd
  | gapAgedExpiry
  /-- ORIGIN_AGED_EXPIRY (R24): the node whose timer it is. -/
  | originAgedExpiry (node : Nat)
  | transactionStart
  | segmentFrameSent
  | replyTimeout
  /-- REPLY_RECEIVED (R66): the characters of a complete reply after its start character. -/
  | replyReceived (chars : List Byte)
  | replyCharacterGap
  | settlingEnd
  /-- NEXT_PROBE_TIME (R43): the node whose timer it is. -/
  | nextProbeTime (node : Nat)
  /-- BOOT_WINDOW_CLOSE (R43): the node whose window closes. -/
  | bootWindowClose (node : Nat)
  /-- BUSY_POLL_TIME (R152): the node whose timer it is. -/
  | busyPollTime (node : Nat)
  /-- HOLD_EXPIRY (R130): the node, and the entry's place in its hold queue, 0 at the head. -/
  | holdExpiry (node : Nat) (place : Nat)
  | replyStart
  | trunkFrameStart
  /-- REPLY_LENGTH_ABOVE_64 (R5): the length character. -/
  | replyLengthAbove64 (length : Byte)
  deriving DecidableEq, Repr

end Sys2Proof
end

