-- ==== Sys2Proof/Decode.lean ====
section
/-! DEFINITION. The command that a word of spec/opcode_table.json spells. No row of the table gives bits: every row's
match, mask and fields are empty, since the bridge takes its commands as trunk frames, segment characters, pin
levels and timer events. So no word spells a command (log entry 28). -/

namespace Sys2Proof

/-- The command that an instruction word spells; none of the table's rows gives bits. -/
def decodeTableWord (_nbits _w : Nat) : Option Instr := none

end Sys2Proof
end

