-- ==== Sys2Proof/Config.lean ====
section
/-! DEFINITION. What the manual leaves open: free values without a body. No proof can see what they are, so a
statement about the model holds whatever they are. Each is named in an assumption-log entry. -/

namespace Sys2Proof.Config

/-- The byte at a position (0..127 the data, 128 the check B, 129 the check A) of a store block whose program was
cut off by a reset, at the given moment of the run. R179: such a program "leaves its block's data and check in any
state". Log entry 5. -/
opaque tornByte : Nat → Nat → Byte

/-- Which of several egress entries that became WAITING at the same moment is sent first, at the given moment of the
run; it is read modulo their number. R181: "either may be sent first". Log entry 4. -/
opaque egressTie : Nat → Nat

/-- The byte layout of the stored table record, from its pieces in the order in which R190 lists them. The manual gives
no layout. Log entry 6. -/
opaque tableRecord : List (List Byte) → List Byte

/-- The byte layout of a stored directory copy, from its sequence number and its twelve places. R171 gives the
contents and no layout. Log entry 6. -/
opaque directoryRecord : Word32 → List (List Byte) → List Byte

end Sys2Proof.Config
end

