-- ==== Sys2Proof/Machine/Bytes.lean ====
section
/-! DEFINITION. Byte order, clock arithmetic and per-node vectors: the helpers every block uses. -/

namespace Sys2Proof.Machine

/-- A number as one byte. -/
def u8 (n : Nat) : Byte := BitVec.ofNat 8 n

/-- A yes/no field as one byte, 0 or 1. -/
def flagByte (b : Bool) : Byte := if b then 1 else 0

/-- A 16-bit field, low byte first (00_scope.md, Conventions, Byte order). -/
def le16 (w : Word16) : List Byte := [w.extractLsb' 0 8, w.extractLsb' 8 8]

/-- A number as a 16-bit field, low byte first. -/
def le16n (n : Nat) : List Byte := le16 (BitVec.ofNat 16 n)

/-- A 32-bit field, low byte first. -/
def le32 (w : Word32) : List Byte :=
  [w.extractLsb' 0 8, w.extractLsb' 8 8, w.extractLsb' 16 8, w.extractLsb' 24 8]

/-- Two bytes, low byte first, as a 16-bit word. -/
def word16 (lo hi : Byte) : Word16 := hi ++ lo

/-- The byte at an offset; 0 beyond the end, which no caller reaches after the length has been judged. -/
def byteAt (bs : List Byte) (i : Nat) : Byte := bs.getD i 0

/-- The 16-bit field at an offset. -/
def word16At (bs : List Byte) (i : Nat) : Word16 := word16 (byteAt bs i) (byteAt bs (i + 1))

/-- The 32-bit field at an offset. -/
def word32At (bs : List Byte) (i : Nat) : Word32 := word16At bs (i + 2) ++ word16At bs i

/-- The clock has reached the time `t`: the difference now − t, taken modulo 2^32, lies in the lower half of the
clock's range. R17 takes differences modulo 2^32; DEDUCED that a time is reached once the clock reads it and stays
reached for half the clock's range. Log entry 8. -/
def reached (now t : Time) : Bool := decide ((now - t).toNat < 2147483648)

/-- A clock difference modulo 2^32, then saturated at 65535 ms (R17, R25, R27). -/
def saturatedDiff (a b : Time) : Nat := min ((a - b).toNat) 65535

/-- A clock value `ms` milliseconds after `t`. -/
def after (t : Time) (ms : Nat) : Time := t + BitVec.ofNat 32 ms

/-- The node addresses 1..30 in ascending order (00_scope.md, Segment addresses). -/
def addresses : List Nat := List.range' 1 30

/-- A node address. -/
def isAddress (a : Nat) : Bool := decide (1 ≤ a ∧ a ≤ 30)

/-- One thing for each node address 1..30. -/
abbrev PerNode (α : Type) := Vector α 30

/-- The thing kept for address `a`, if `a` is a node address. -/
def atNode {α : Type} (v : PerNode α) (a : Nat) : Option α := if a = 0 then none else v[a - 1]?

/-- Replaces the thing kept for address `a`; nothing for what is no node address. -/
def putNode {α : Type} (v : PerNode α) (a : Nat) (x : α) : PerNode α :=
  if a = 0 then v else v.setIfInBounds (a - 1) x

/-- A set of node addresses, as the ascending list of its members (no duplicates, no order of its own). -/
def addressSet (members : List Nat) : List Nat := addresses.filter (members.contains ·)

end Sys2Proof.Machine
end

