-- ==== Sys2Proof/Machine/Checks.lean ====
section
/-! DEFINITION. The Fletcher-16 and Fletcher-32 checks of section 1.4 (R15, R16). -/

namespace Sys2Proof.Machine

/-- One byte into the two sums of Fletcher-16, given as (A, B) (R15). -/
def fletcher16Step (sums : Nat × Nat) (b : Byte) : Nat × Nat :=
  let a := (sums.1 + b.toNat) % 255
  (a, (sums.2 + a) % 255)

/-- The sums (A, B) of Fletcher-16 over a byte sequence (R15). -/
def fletcher16 (bs : List Byte) : Nat × Nat := bs.foldl fletcher16Step (0, 0)

/-- The two check characters, B first and then A (R1, R15). -/
def check16 (bs : List Byte) : List Byte := [u8 (fletcher16 bs).2, u8 (fletcher16 bs).1]

/-- One 16-bit word into the two sums of Fletcher-32, given as (A, B) (R16). -/
def fletcher32Step (sums : Nat × Nat) (w : Word16) : Nat × Nat :=
  let a := (sums.1 + w.toNat) % 65535
  (a, (sums.2 + a) % 65535)

/-- The bytes taken in pairs, the first byte of each pair as the low byte. A last byte without a pair is completed
with one 00h byte, as R16 gives for a stored record of odd length. -/
def wordPairs : List Byte → List Word16
  | lo :: hi :: rest => word16 lo hi :: wordPairs rest
  | [lo] => [word16 lo 0]
  | [] => []

/-- Fletcher-32 sums continued over a byte sequence (R16, R175: a running check over an image). -/
def fletcher32From (sums : Nat × Nat) (bs : List Byte) : Nat × Nat := (wordPairs bs).foldl fletcher32Step sums

/-- The check B × 65536 + A (R16). -/
def check32 (sums : Nat × Nat) : Word32 := BitVec.ofNat 32 (sums.2 * 65536 + sums.1)

/-- The Fletcher-32 of a byte sequence (R16). -/
def fletcher32 (bs : List Byte) : Word32 := check32 (fletcher32From (0, 0) bs)

end Sys2Proof.Machine
end

