-- ==== Sys2Proof/Machine/Types.lean ====
section
/-! DEFINITION. The names, codes and records of the manual: frame kinds, outcomes, states, flags (section 1.5), and
the records of the tables (chapters 3, 5 and 10). -/

namespace Sys2Proof.Machine

/-! ### Frames -/

/-- A trunk frame with its check taken off: as it waits in ingress, or as it is sent (section 1.3). -/
structure TrunkFrame where
  kind : Byte
  tag : Word16
  outcome : Byte
  body : List Byte
  deriving DecidableEq, Repr

/-- The kinds of segment frame the bridge sends (section 1.1). -/
inductive SegmentKind where
  | command | query | broadcast | statusQuery | config | imageBlock | imageEnd | busyPoll
  deriving DecidableEq, Repr

/-- Section 1.5, Segment kinds. -/
def SegmentKind.code : SegmentKind → Byte
  | .command => 0x10
  | .query => 0x11
  | .broadcast => 0x12
  | .statusQuery => 0x20
  | .config => 0x21
  | .imageBlock => 0x22
  | .imageEnd => 0x23
  | .busyPoll => 0x24

/-- The segment kinds a SEGMENT REQUEST may carry (R11). -/
inductive RequestKind where
  | command | query | broadcast
  deriving DecidableEq, Repr

def RequestKind.segment : RequestKind → SegmentKind
  | .command => .command
  | .query => .query
  | .broadcast => .broadcast

def RequestKind.ofCode (b : Byte) : Option RequestKind :=
  if b = 0x10 then some .command else if b = 0x11 then some .query else if b = 0x12 then some .broadcast else none

/-- The kinds of node reply (section 1.2). -/
inductive ReplyKind where
  | accept | refuse | answer | statusReport | blockToken
  deriving DecidableEq, Repr

/-- Section 1.5, Segment kinds. -/
def ReplyKind.code : ReplyKind → Byte
  | .accept => 0x80
  | .refuse => 0x81
  | .answer => 0x82
  | .statusReport => 0x90
  | .blockToken => 0x91

def ReplyKind.ofCode (b : Byte) : Option ReplyKind :=
  [ReplyKind.accept, .refuse, .answer, .statusReport, .blockToken].find? (fun k => k.code == b)

/-- A segment frame the bridge sends; the source is always 0 (R1). -/
structure SegmentFrame where
  destination : Nat
  kind : SegmentKind
  function : Byte
  marker : Byte
  payload : List Byte
  deriving DecidableEq, Repr

/-- A valid reply of a node (R6): its kind, function, marker (the boot count) and payload. -/
structure Reply where
  kind : ReplyKind
  function : Byte
  marker : Byte
  payload : List Byte
  deriving DecidableEq, Repr

/-- The node's firmware condition in a STATUS REPORT (R7). -/
inductive ImageState where
  | intact | incomplete | absent | corrupt
  deriving DecidableEq, Repr

def ImageState.ofCode (b : Byte) : Option ImageState :=
  if b = 0 then some .intact else if b = 1 then some .incomplete else if b = 2 then some .absent
  else if b = 3 then some .corrupt else none

/-- The fields of a valid STATUS REPORT (R7). -/
structure StatusReport where
  image : ImageState
  running : Word16
  target : Word16
  resume : Nat
  kind : Byte
  deriving DecidableEq, Repr

/-- The node's verdict in a BLOCK TOKEN (R8). -/
inductive Token where
  | good | checkFail | writeFail | busy | verified
  deriving DecidableEq, Repr

def Token.ofCode (b : Byte) : Option Token :=
  if b = 0 then some .good else if b = 1 then some .checkFail else if b = 2 then some .writeFail
  else if b = 3 then some .busy else if b = 4 then some .verified else none

/-- The result of a transaction (R67). -/
inductive Result where
  | valid (r : Reply)
  | badCheck
  | timeout
  deriving DecidableEq, Repr

/-- The outcomes of answers and reports (section 1.5). -/
inductive AnswerCode where
  | done | held | stored | holdFull | filtered | queueFull | noReply | noReplyGap | nodeFailed | nodeIsolated
  | restarted | malformed | delivered | expired | discarded | mode | invalid | busy | inUse | noSpace | incomplete
  | checkFail | storeFault | writtenOnce | unknownRequest
  deriving DecidableEq, Repr

def AnswerCode.code : AnswerCode → Byte
  | .done => 0x01
  | .held => 0x02
  | .stored => 0x03
  | .holdFull => 0x04
  | .filtered => 0x05
  | .queueFull => 0x06
  | .noReply => 0x07
  | .noReplyGap => 0x08
  | .nodeFailed => 0x09
  | .nodeIsolated => 0x0A
  | .restarted => 0x0B
  | .malformed => 0x0C
  | .delivered => 0x20
  | .expired => 0x21
  | .discarded => 0x22
  | .mode => 0x30
  | .invalid => 0x31
  | .busy => 0x32
  | .inUse => 0x33
  | .noSpace => 0x34
  | .incomplete => 0x35
  | .checkFail => 0x36
  | .storeFault => 0x37
  | .writtenOnce => 0x38
  | .unknownRequest => 0x39

/-- The flags (section 1.5; R193). -/
inductive Flag where
  | trunkCheck | ingressOverrun | egressOverflow | segmentCheck | storeReadError | storeWriteError | tablesInvalid
  | directoryInvalid | shadowMiss | glitch
  deriving DecidableEq, Repr

def Flag.code : Flag → Nat
  | .trunkCheck => 0
  | .ingressOverrun => 1
  | .egressOverflow => 2
  | .segmentCheck => 3
  | .storeReadError => 4
  | .storeWriteError => 5
  | .tablesInvalid => 6
  | .directoryInvalid => 7
  | .shadowMiss => 8
  | .glitch => 9

/-- The management requests (section 1.6). -/
inductive RequestCode where
  | readStatus | readNode | readRule | readSet | readCounters | readShadow | readParameters | readIdentity
  | clearCounters | writeRule | writeDefault | writeSet | writeNode | writeConfigRecord | writeParameters | setMode
  | storeTables | imageOpen | imageBlock | imageClose | imageDiscard | imageDrop | isolateNode | restoreNode
  | restartEngine | setIdentity | clearFlags | setNoticeMask
  deriving DecidableEq, Repr

/-- Section 1.6, Management request codes and arguments. -/
def RequestCode.code : RequestCode → Byte
  | .readStatus => 0x01
  | .readNode => 0x02
  | .readRule => 0x03
  | .readSet => 0x04
  | .readCounters => 0x05
  | .readShadow => 0x06
  | .readParameters => 0x07
  | .readIdentity => 0x08
  | .clearCounters => 0x10
  | .writeRule => 0x20
  | .writeDefault => 0x21
  | .writeSet => 0x22
  | .writeNode => 0x23
  | .writeConfigRecord => 0x24
  | .writeParameters => 0x25
  | .setMode => 0x30
  | .storeTables => 0x31
  | .imageOpen => 0x40
  | .imageBlock => 0x41
  | .imageClose => 0x42
  | .imageDiscard => 0x43
  | .imageDrop => 0x44
  | .isolateNode => 0x50
  | .restoreNode => 0x51
  | .restartEngine => 0x52
  | .setIdentity => 0x53
  | .clearFlags => 0x60
  | .setNoticeMask => 0x61

def RequestCode.all : List RequestCode :=
  [.readStatus, .readNode, .readRule, .readSet, .readCounters, .readShadow, .readParameters, .readIdentity,
    .clearCounters, .writeRule, .writeDefault, .writeSet, .writeNode, .writeConfigRecord, .writeParameters, .setMode,
    .storeTables, .imageOpen, .imageBlock, .imageClose, .imageDiscard, .imageDrop, .isolateNode, .restoreNode,
    .restartEngine, .setIdentity, .clearFlags, .setNoticeMask]

def RequestCode.ofCode (b : Byte) : Option RequestCode := RequestCode.all.find? (fun k => k.code == b)

/-! ### The tables (R36, R88 to R92, R186, R187) -/

inductive NodeClass where
  | entrance | info
  deriving DecidableEq, Repr

inductive Supply where
  | fed | battery
  deriving DecidableEq, Repr

inductive ImagePolicy where
  | follow | keep | none
  deriving DecidableEq, Repr

/-- A present node table entry (R36). Times keep their stored units: H and C in ms, the boot window in 10 ms, the hold
lifetime in 100 ms. -/
structure NodeEntry where
  cls : NodeClass
  supply : Supply
  kind : Byte
  policy : ImagePolicy
  holdup : Nat
  recharge : Nat
  bootMin : Nat
  bootMax : Nat
  holdCap : Nat
  holdLifetime : Nat
  shadowBase : Nat
  shadowCount : Nat
  config : List Byte
  deriving DecidableEq, Repr

inductive RuleVerdict where
  | forward | discard
  deriving DecidableEq, Repr

inductive AbsentPolicy where
  | queue | latest | refuse
  deriving DecidableEq, Repr

inductive Urgency where
  | normal | urgent
  deriving DecidableEq, Repr

inductive ReplayPolicy where
  | replay | forget
  deriving DecidableEq, Repr

/-- The action fields a pass entry copies from its rule (R68, R90). -/
structure ActionPart where
  slot : Option Nat
  absent : AbsentPolicy
  urgency : Urgency
  replay : ReplayPolicy
  deriving DecidableEq, Repr

/-- The action part of a rule (R90). -/
structure Action where
  verdict : RuleVerdict
  part : ActionPart
  deriving DecidableEq, Repr

/-- A payload selector (R89). -/
structure Selector where
  index : Nat
  value : Byte
  mask : Byte
  deriving DecidableEq, Repr

/-- A present rule (R88, R90). The address set is a set number, or `none` for ANY. -/
structure Rule where
  set : Option Nat
  onCommand : Bool
  onQuery : Bool
  onBroadcast : Bool
  low : Byte
  high : Byte
  selector : Option Selector
  action : Action
  deriving DecidableEq, Repr

/-- The rule a request matched: an index 0..47, or the default rule (R97). -/
inductive RuleRef where
  | rule (index : Nat)
  | defaultRule
  deriving DecidableEq, Repr

/-- The code of a rule reference: its index, FFh for the default rule (section 1.5). -/
def RuleRef.code : RuleRef → Byte
  | .rule i => u8 i
  | .defaultRule => 0xFF

/-- The parameter record (R186), each value in the unit the record carries. -/
structure Params where
  replyTimeout : Nat
  passRetries : Nat
  lostThreshold : Nat
  stepRetries : Nat
  blockRetries : Nat
  imageAttempts : Nat
  busyPollInterval : Nat
  busyLimit : Nat
  gapMargin : Nat
  debounce : Nat
  callInterval : Nat
  missingInterval : Nat
  restoreRunLimit : Nat
  deriving DecidableEq, Repr

/-- A full set of tables (R187): node entries, rules, default rule, address sets, parameter record. -/
structure Tables where
  nodes : PerNode (Option NodeEntry)
  rules : Vector (Option Rule) 48
  defaultAction : Action
  sets : Vector (List Nat) 8
  params : Params
  deriving DecidableEq, Repr

/-- The parameter record's reset or empty-table values (R186). -/
def Params.initial : Params :=
  { replyTimeout := 20, passRetries := 1, lostThreshold := 3, stepRetries := 2, blockRetries := 3, imageAttempts := 2
    busyPollInterval := 10, busyLimit := 50, gapMargin := 20, debounce := 5, callInterval := 50, missingInterval := 5
    restoreRunLimit := 4 }

/-- The default rule of an empty table (R92). -/
def Action.initial : Action :=
  { verdict := .forward, part := { slot := none, absent := .refuse, urgency := .normal, replay := .replay } }

/-- The empty tables (R191). -/
def Tables.empty : Tables :=
  { nodes := Vector.replicate 30 none, rules := Vector.replicate 48 none, defaultAction := Action.initial
    sets := Vector.replicate 8 [], params := Params.initial }

/-! ### Node states (section 3.3) -/

inductive NodeState where
  | unconfigured | online | suspect | probe | awaitBoot | missing | image | config | replay | release | failed | isolated
  deriving DecidableEq, Repr

def NodeState.code : NodeState → Nat
  | .unconfigured => 0
  | .online => 1
  | .suspect => 2
  | .probe => 3
  | .awaitBoot => 4
  | .missing => 5
  | .image => 6
  | .config => 7
  | .replay => 8
  | .release => 9
  | .failed => 10
  | .isolated => 11

/-- The absent states of chapter Classification: a node in one of them cannot take pass traffic now (R98). -/
def NodeState.isAbsent : NodeState → Bool
  | .suspect | .probe | .awaitBoot | .missing | .image | .config | .replay | .release => true
  | .unconfigured | .online | .failed | .isolated => false

/-- The seven kinds of restore step (00_scope.md, Block overview). -/
inductive StepKind where
  | probe | config | imageBlock | imageEnd | busyPoll | replay | release
  deriving DecidableEq, Repr

/-- The step condition (R39). A READY or IN_FLIGHT step is kept with its kind. -/
inductive StepCondition where
  | none
  | waiting
  | ready (kind : StepKind)
  | inFlight (kind : StepKind)
  | orphaned
  deriving DecidableEq, Repr

/-- Which frame of a session was last sent (R144). -/
inductive FrameLastSent where
  | none | block | imageEnd
  deriving DecidableEq, Repr

/-- Where a session stands in getting its block data (R144). -/
inductive BufferRequest where
  | none | waitingList | reading | filled
  deriving DecidableEq, Repr

/-- The session record of a node in IMAGE (R144). -/
structure Session where
  entry : Nat
  reported : Option ImageState
  next : Nat
  remaining : Nat
  lastSent : FrameLastSent
  retries : Nat
  busyCount : Nat
  buffer : Option Nat
  request : BufferRequest
  pollTime : Option Time
  deriving DecidableEq, Repr

/-- The runtime record of a configured node (R38). -/
structure Runtime where
  state : NodeState
  bootCount : Option Byte
  noReply : Nat
  attempts : Nat
  expected : Option Word16
  phase : Option NodeState
  window : Option (Time × Time)
  nextProbe : Option Time
  step : StepCondition
  misses : Nat
  session : Option Session
  restores : Word32
  survived : Word32
  lost : Word32
  refusals : Word32
  passNoReplies : Word32
  deriving DecidableEq, Repr

/-- The condition of a block buffer with what it holds (R148). -/
inductive Buffer where
  | free
  | reading (node : Nat)
  | filled (node : Nat) (data : List Byte)
  | draining
  deriving DecidableEq, Repr

/-! ### Gap Monitor (chapter 2) -/

/-- The debounce condition with the clock values it holds (section 2.2, R22). -/
inductive GapCondition where
  | supplied
  | startPending (edge expiry : Time)
  | inGap (start : Time)
  | endPending (start edge expiry : Time)
  deriving DecidableEq, Repr

/-- A gap is in progress in IN_GAP and END_PENDING (section 2.2). -/
def GapCondition.inProgress : GapCondition → Bool
  | .inGap _ | .endPending _ _ _ => true
  | .supplied | .startPending _ _ => false

/-- A node's reserve record (section 2.4). -/
structure Reserve where
  estimate : Nat
  origin : Time
  aged : Bool
  deriving DecidableEq, Repr

/-- The class of a gap set member at gap end (R28). -/
inductive GapClass where
  | survived | uncertain | lost
  deriving DecidableEq, Repr

/-! ### Shadow Store (chapter 6) -/

/-- The record of a valid pool slot (R110). -/
structure ShadowRecord where
  node : Nat
  relative : Nat
  rule : RuleRef
  policy : ReplayPolicy
  kind : RequestKind
  function : Byte
  payload : List Byte
  marked : Bool
  deriving DecidableEq, Repr

/-- A node's replay-in-flight record (R110). -/
structure ReplayInFlight where
  slot : Nat
  replaced : Bool
  deriving DecidableEq, Repr

/-! ### Hold Pool (chapter 7) -/

/-- A hold entry in use (R126). `inFlight` says that its release transaction is in flight (R130, R134). -/
structure HoldEntry where
  tag : Option Word16
  node : Nat
  kind : RequestKind
  function : Byte
  payload : List Byte
  rule : RuleRef
  slot : Option Nat
  policy : ReplayPolicy
  arrival : Time
  expiry : Option Time
  reservation : Option Nat
  inFlight : Bool
  deriving DecidableEq, Repr

/-! ### Segment Master (chapter 4) -/

/-- A pass entry (R68). -/
structure PassEntry where
  tag : Word16
  destination : Nat
  kind : RequestKind
  function : Byte
  payload : List Byte
  rule : RuleRef
  action : ActionPart
  live : List Nat
  misses : Nat
  reservation : Nat
  deriving DecidableEq, Repr

/-- What a transaction carries (R63). -/
inductive Carrier where
  | pass (entry : PassEntry)
  | step (node : Nat)
  deriving DecidableEq, Repr

/-- The record of the transaction in flight (R63). The reply timeout is fixed on entry to AWAITING (R65).
`destinationKept` says that the destination was configured when the transaction started and has been neither newly
configured nor removed since (R69, step 2). -/
structure Transaction where
  carries : Carrier
  destination : Nat
  kind : SegmentKind
  timeout : Option Nat
  destinationKept : Bool
  deriving DecidableEq, Repr

/-- The line condition (section 4.1), with the transaction in flight, the characters of the frame on the wire in SENDING,
and the length of SETTLING in units of 100 µs. -/
inductive Line where
  | free
  | sending (t : Transaction) (wire : List Byte)
  | awaiting (t : Transaction)
  | collecting (t : Transaction)
  | settling (timeout : Nat)
  deriving DecidableEq, Repr

/-- The transaction in flight (R63). -/
def Line.transaction : Line → Option Transaction
  | .sending t _ | .awaiting t | .collecting t => some t
  | .free | .settling _ => none

/-- SEGDE is high from a frame's first character to its last (R5). -/
def Line.segde : Line → Bool
  | .sending _ _ => true
  | .free | .awaiting _ | .collecting _ | .settling _ => false

/-! ### Trunk Port (section 10.1) -/

inductive RxCondition where
  | hunting | collecting
  deriving DecidableEq, Repr

/-- The condition of an egress entry with the frame it holds (R181). -/
inductive EgressEntry where
  | free
  | reserved
  | waiting (f : TrunkFrame)
  | sending (f : TrunkFrame)
  deriving DecidableEq, Repr

/-- A WAITING egress entry in the order of becoming WAITING, with the moment at which it did (R181). -/
structure WaitingEntry where
  entry : Nat
  moment : Nat
  deriving DecidableEq, Repr

/-- A request taken from ingress, with its egress reservation (R94): what its one answer needs. -/
structure RequestRef where
  tag : Word16
  reservation : Nat
  code : Byte
  deriving DecidableEq, Repr

/-- A management request passed to its meaning: arguments of the right length (R14). -/
structure Request where
  ref : RequestRef
  args : List Byte
  deriving DecidableEq, Repr

/-! ### Image Store (chapter 9) -/

/-- A store block: its data bytes and the Fletcher-16 stored with them, B then A (R165). -/
structure StoreBlock where
  data : List Byte
  check : List Byte
  deriving DecidableEq, Repr

/-- An entry of the catalogue as a stored copy keeps it (R166). -/
structure ImageEntry where
  kind : Byte
  version : Word16
  length : Nat
  check : Word32
  first : Nat
  damaged : Bool
  deriving DecidableEq, Repr

/-- An entry of the working catalogue: with its readers count (R145, R166). -/
structure CatalogueEntry where
  image : ImageEntry
  readers : Nat
  deriving DecidableEq, Repr

/-- A run of consecutive store blocks (R167). -/
structure Extent where
  first : Nat
  length : Nat
  deriving DecidableEq, Repr

/-- A stored directory copy (R166, R171). -/
structure DirectoryCopy where
  sequence : Word32
  places : Vector (Option ImageEntry) 12
  check : Word32
  deriving DecidableEq, Repr

/-- The two places for stored copies (section 9.2). -/
inductive CopyPlace where
  | copy0 | copy1
  deriving DecidableEq, Repr

/-- The staged image (R172). The written-block set is the ascending list of its members. -/
structure StagedImage where
  kind : Byte
  version : Word16
  length : Nat
  check : Word32
  first : Nat
  written : List Nat
  deriving DecidableEq, Repr

/-- Blocks remaining: the length less the size of the written-block set (R172). -/
def StagedImage.remaining (s : StagedImage) : Nat := s.length - s.written.length

/-- The operations of the store arbiter's operation list (R169). -/
inductive OperationKind where
  | imageOpen (kind : Byte) (version : Word16) (length : Nat) (check : Word32)
  | imageBlock (index : Nat) (data : List Byte)
  | imageClose
  | imageDiscard
  | imageDrop (kind : Byte)
  | tableWrite
  | markWrite
  deriving DecidableEq, Repr

/-- An operation with the request it answers; a mark write answers none (R170). -/
structure Operation where
  kind : OperationKind
  request : Option RequestRef
  deriving DecidableEq, Repr

/-- How far the operation at the head of the list has come, once it has started (R172 to R178, R190). -/
inductive Progress where
  /-- IMAGE OPEN's directory write (R173, test 4). -/
  | opening
  /-- IMAGE BLOCK's program (R174). -/
  | programming (index block : Nat) (data : List Byte)
  /-- IMAGE CLOSE's check-read: the image being read, the block index of the access in progress or next, and the running sums (R175). -/
  | checking (image : StagedImage) (index : Nat) (sums : Nat × Nat)
  /-- IMAGE CLOSE's directory write after the commit (R176): the entry index and the first block. -/
  | committing (entry first : Nat)
  /-- IMAGE DROP's directory write (R178): the entry taken out and its index. -/
  | dropping (entry : Nat) (image : ImageEntry)
  /-- A mark write (R170). -/
  | marking
  /-- STORE TABLES' table write: the tables as they stood when it started (R190). -/
  | tableWriting (tables : Tables)
  deriving DecidableEq, Repr

/-- A session block read (R149, R169): the store block, and the buffer it fills. -/
structure ReadRequest where
  block : Nat
  buffer : Nat
  deriving DecidableEq, Repr

/-- The access in progress (R169). -/
inductive Access where
  | read (r : ReadRequest)
  | operation
  deriving DecidableEq, Repr

/-! ### Table Store, identity, counters, modes (chapter 10) -/

/-- The stored copy of the tables with its Fletcher-32 (R190). -/
structure StoredTables where
  tables : Tables
  check : Word32
  deriving DecidableEq, Repr

inductive Orientation where
  | a | b
  deriving DecidableEq, Repr

/-- A written identity record (R3, R192). -/
structure Identity where
  car : Nat
  position : Nat
  orientation : Orientation
  deriving DecidableEq, Repr

inductive Mode where
  | depot | service
  deriving DecidableEq, Repr

/-- The code of a mode (section 1.5, Table values). -/
def Mode.code : Mode → Byte
  | .depot => 0
  | .service => 1

/-- A rule's frame counter and payload byte counter (R97). -/
structure RuleCounters where
  frames : Word32
  bytes : Word32
  deriving DecidableEq, Repr

end Sys2Proof.Machine
end

