-- ==== Sys2Proof/Machine/Operands.lean ====
section
/-! DEFINITION. The operand forms of the management requests: argument lengths (R14), the node, rule and parameter
records of section 1.6, their validation and clamps (R37, R91, R92, R186), and the validity of a set of tables (R188). -/

namespace Sys2Proof.Machine

/-- The argument length a request takes (R14, section 1.6). WRITE SET's is fixed by its member count, and WRITE CONFIG
RECORD's record has 0..48 bytes. -/
def argumentsFit (k : RequestCode) (args : List Byte) : Bool :=
  match k with
  | .readStatus | .readParameters | .readIdentity | .storeTables | .imageClose | .imageDiscard | .restartEngine =>
    args.length == 0
  | .readNode | .readRule | .readSet | .readShadow | .setMode | .imageDrop | .isolateNode | .restoreNode
  | .setNoticeMask => args.length == 1
  | .readCounters | .clearCounters | .clearFlags => args.length == 2
  | .setIdentity => args.length == 4
  | .writeDefault => args.length == 5
  | .imageOpen => args.length == 9
  | .writeParameters => args.length == 14
  | .writeRule => args.length == 15
  | .writeNode => args.length == 19
  | .imageBlock => args.length == 130
  | .writeSet => decide (2 ≤ args.length) && args.length == 2 + (byteAt args 1).toNat
  | .writeConfigRecord => decide (1 ≤ args.length ∧ args.length ≤ 49)

/-- The table writes and the loading requests: answered MODE in SERVICE (R183, case 3). -/
def depotOnly : RequestCode → Bool
  | .writeRule | .writeDefault | .writeSet | .writeNode | .writeConfigRecord | .writeParameters | .imageOpen
  | .imageBlock | .imageClose | .imageDiscard | .imageDrop => true
  | _ => false

/-! ### Table values (section 1.5) -/

def NodeClass.code : NodeClass → Byte
  | .entrance => 0
  | .info => 1

def NodeClass.ofCode (b : Byte) : Option NodeClass :=
  if b = 0 then some .entrance else if b = 1 then some .info else none

def Supply.code : Supply → Byte
  | .fed => 0
  | .battery => 1

def Supply.ofCode (b : Byte) : Option Supply :=
  if b = 0 then some .fed else if b = 1 then some .battery else none

def ImagePolicy.code : ImagePolicy → Byte
  | .follow => 0
  | .keep => 1
  | .none => 2

def ImagePolicy.ofCode (b : Byte) : Option ImagePolicy :=
  if b = 0 then some .follow else if b = 1 then some .keep else if b = 2 then some .none else Option.none

def RuleVerdict.code : RuleVerdict → Byte
  | .forward => 0
  | .discard => 1

def RuleVerdict.ofCode (b : Byte) : Option RuleVerdict :=
  if b = 0 then some .forward else if b = 1 then some .discard else none

def AbsentPolicy.code : AbsentPolicy → Byte
  | .queue => 0
  | .latest => 1
  | .refuse => 2

def AbsentPolicy.ofCode (b : Byte) : Option AbsentPolicy :=
  if b = 0 then some .queue else if b = 1 then some .latest else if b = 2 then some .refuse else none

def Urgency.code : Urgency → Byte
  | .normal => 0
  | .urgent => 1

def Urgency.ofCode (b : Byte) : Option Urgency :=
  if b = 0 then some .normal else if b = 1 then some .urgent else none

def ReplayPolicy.code : ReplayPolicy → Byte
  | .replay => 0
  | .forget => 1

def ReplayPolicy.ofCode (b : Byte) : Option ReplayPolicy :=
  if b = 0 then some .replay else if b = 1 then some .forget else none

def Orientation.code : Orientation → Byte
  | .a => 0
  | .b => 1

def Orientation.ofCode (b : Byte) : Option Orientation :=
  if b = 0 then some .a else if b = 1 then some .b else none

/-- A shadow slot field: 0..7, or none (FFh). -/
def slotCode : Option Nat → Byte
  | some r => u8 r
  | none => 0xFF

/-- A shadow slot field is 0..7 or FFh (R91); the outer `none` is a field that is neither. -/
def slotOfCode (b : Byte) : Option (Option Nat) :=
  if b = 0xFF then some none else if b.toNat ≤ 7 then some (some b.toNat) else none

/-- An address set field: 0..7, or ANY (FFh). -/
def setCode : Option Nat → Byte := slotCode

/-- An address set field is 0..7 or FFh (R91). -/
def setOfCode : Byte → Option (Option Nat) := slotOfCode

/-! ### Node records (R37, section 1.6) -/

/-- The 18-byte node record of an entry, all zero where there is none (R37, R62). -/
def nodeRecord : Option NodeEntry → List Byte
  | some e =>
    [1, e.cls.code, e.supply.code, e.kind, e.policy.code] ++ le16n e.holdup ++ le16n e.recharge ++ le16n e.bootMin
      ++ le16n e.bootMax ++ [u8 e.holdCap] ++ le16n e.holdLifetime ++ [u8 e.shadowBase, u8 e.shadowCount]
  | none => List.replicate 18 0

/-- The clamps of WRITE NODE, in the order of R37. -/
def clampNode (e : NodeEntry) : NodeEntry :=
  let bootMin := min e.bootMin 6000
  { e with
    holdup := min e.holdup 4095
    recharge := max e.recharge 1
    bootMin := bootMin
    bootMax := max (max (min e.bootMax 6000) 1) bootMin }

/-- The node record of WRITE NODE, judged by R37: `none` is INVALID, `some none` removes the entry, and otherwise the
clamped entry, here with an empty config record. -/
def parseNode (bs : List Byte) : Option (Option NodeEntry) :=
  if byteAt bs 0 = 0 then some none
  else if byteAt bs 0 ≠ 1 then none
  else
    match NodeClass.ofCode (byteAt bs 1), Supply.ofCode (byteAt bs 2), ImagePolicy.ofCode (byteAt bs 4) with
    | some cls, some supply, some policy =>
      let e : NodeEntry :=
        { cls := cls, supply := supply, kind := byteAt bs 3, policy := policy
          holdup := (word16At bs 5).toNat, recharge := (word16At bs 7).toNat
          bootMin := (word16At bs 9).toNat, bootMax := (word16At bs 11).toNat
          holdCap := (byteAt bs 13).toNat, holdLifetime := (word16At bs 14).toNat
          shadowBase := (byteAt bs 16).toNat, shadowCount := (byteAt bs 17).toNat, config := [] }
      if e.holdCap > 16 ∨ e.holdLifetime > 600 ∨ e.shadowBase > 95 ∨ e.shadowCount > 8 then none
      else some (some (clampNode e))
    | _, _, _ => none

/-! ### Rule records (R91 to R93, section 1.6) -/

/-- The two shadow tests of R91: a slot under QUEUE, and LATEST without a slot, are refused. -/
def ActionPart.policiesFit (a : ActionPart) : Bool :=
  !(a.slot.isSome && a.absent == .queue) && !(a.absent == .latest && a.slot.isNone)

/-- The action-part tests of R91: a slot of 0..7, and the two shadow tests. -/
def Action.valid (a : Action) : Bool :=
  (match a.part.slot with | some r => decide (r ≤ 7) | none => true) && a.part.policiesFit

/-- The tests of R91 on a present rule. -/
def Rule.valid (r : Rule) : Bool :=
  (match r.set with | some i => decide (i ≤ 7) | none => true)
    && (r.onCommand || r.onQuery || r.onBroadcast)
    && decide (r.low.toNat ≤ r.high.toNat)
    && (match r.selector with | some q => decide (q.index ≤ 63) | none => true)
    && r.action.valid

/-- The five action fields in record order (R91, R92). -/
def actionBytes (a : Action) : List Byte :=
  [a.verdict.code, slotCode a.part.slot, a.part.absent.code, a.part.urgency.code, a.part.replay.code]

/-- Five action fields, judged by the action-part tests of R91; `none` is INVALID. -/
def parseAction (bs : List Byte) : Option Action :=
  match RuleVerdict.ofCode (byteAt bs 0), slotOfCode (byteAt bs 1), AbsentPolicy.ofCode (byteAt bs 2),
    Urgency.ofCode (byteAt bs 3), ReplayPolicy.ofCode (byteAt bs 4) with
  | some verdict, some slot, some absent, some urgency, some replay =>
    let a : Action :=
      { verdict := verdict, part := { slot := slot, absent := absent, urgency := urgency, replay := replay } }
    if a.valid then some a else none
  | _, _, _, _, _ => none

/-- The kind set byte: bit 0 COMMAND, bit 1 QUERY, bit 2 BROADCAST. -/
def kindSetByte (r : Rule) : Byte :=
  u8 ((if r.onCommand then 1 else 0) + (if r.onQuery then 2 else 0) + (if r.onBroadcast then 4 else 0))

/-- The 14-byte rule record, all zero for an empty entry (R91, R93). An absent selector's bytes are 0. -/
def ruleRecord : Option Rule → List Byte
  | some r =>
    [1, setCode r.set, kindSetByte r, r.low, r.high]
      ++ (match r.selector with
          | some q => [1, u8 q.index, q.value, q.mask]
          | none => [0, 0, 0, 0])
      ++ actionBytes r.action
  | none => List.replicate 14 0

/-- The default rule shown as a rule that matches every request (R93). -/
def defaultRuleRecord (a : Action) : List Byte := [1, 0xFF, 7, 0, 0xFF, 0, 0, 0, 0] ++ actionBytes a

/-- The rule record of WRITE RULE, judged by R91: `none` is INVALID, `some none` empties the entry. -/
def parseRule (bs : List Byte) : Option (Option Rule) :=
  if byteAt bs 0 = 0 then some none
  else if byteAt bs 0 ≠ 1 then none
  else
    let kinds := byteAt bs 2
    let selector : Option (Option Selector) :=
      if byteAt bs 5 = 0 then some none
      else if byteAt bs 5 = 1 then
        some (some { index := (byteAt bs 6).toNat, value := byteAt bs 7, mask := byteAt bs 8 })
      else none
    match setOfCode (byteAt bs 1), selector, parseAction (bs.drop 9) with
    | some set, some selector, some action =>
      let r : Rule :=
        { set := set, onCommand := kinds.getLsbD 0, onQuery := kinds.getLsbD 1, onBroadcast := kinds.getLsbD 2
          low := byteAt bs 3, high := byteAt bs 4, selector := selector, action := action }
      if kinds.toNat ≤ 7 ∧ r.valid then some (some r) else none
    | _, _, _ => none

/-! ### The parameter record (R186, section 1.6) -/

/-- A value clamped to a range. -/
def clamp (lo hi v : Nat) : Nat := max lo (min v hi)

/-- The 14-byte parameter record. -/
def paramsRecord (p : Params) : List Byte :=
  [u8 p.replyTimeout, u8 p.passRetries, u8 p.lostThreshold, u8 p.stepRetries, u8 p.blockRetries, u8 p.imageAttempts,
    u8 p.busyPollInterval, u8 p.busyLimit, u8 p.gapMargin, u8 p.debounce]
    ++ le16n p.callInterval ++ [u8 p.missingInterval, u8 p.restoreRunLimit]

/-- The parameter record of WRITE PARAMETERS with each value clamped to its range (R186). -/
def parseParams (bs : List Byte) : Params :=
  let v := fun i => (byteAt bs i).toNat
  { replyTimeout := clamp 1 255 (v 0), passRetries := clamp 0 3 (v 1), lostThreshold := clamp 1 15 (v 2)
    stepRetries := clamp 1 7 (v 3), blockRetries := clamp 1 7 (v 4), imageAttempts := clamp 1 3 (v 5)
    busyPollInterval := clamp 1 255 (v 6), busyLimit := clamp 1 255 (v 7), gapMargin := clamp 0 255 (v 8)
    debounce := clamp 0 50 (v 9), callInterval := clamp 5 1000 (word16At bs 10).toNat
    missingInterval := clamp 1 60 (v 12), restoreRunLimit := clamp 1 16 (v 13) }

/-! ### Tables (R86, R109, R188) -/

/-- The active or edited entry of a node address. -/
def Tables.node (t : Tables) (a : Nat) : Option NodeEntry := (atNode t.nodes a).join

/-- The rule at an index, if the entry is present. -/
def Tables.rule (t : Tables) (i : Nat) : Option Rule := (t.rules[i]?).join

/-- The members of a numbered address set. -/
def Tables.set (t : Tables) (i : Nat) : List Nat := (t.sets[i]?).getD []

/-- The members of a rule's address set: the named set, or all addresses under ANY (R86, R103). -/
def Tables.members (t : Tables) : Option Nat → List Nat
  | some i => t.set i
  | none => addresses

/-- Two entries with shadow count above 0 share a pool slot (R188, test 2). -/
def NodeEntry.overlaps (a b : NodeEntry) : Bool :=
  decide (a.shadowCount > 0 ∧ b.shadowCount > 0 ∧ a.shadowBase < b.shadowBase + b.shadowCount
    ∧ b.shadowBase < a.shadowBase + a.shadowCount)

/-- The first address whose shadow range runs past slot 95 (R188, test 1). -/
def Tables.rangeFault (t : Tables) : Option Nat :=
  addresses.find? (fun a => match t.node a with | some e => decide (e.shadowBase + e.shadowCount > 96) | none => false)

/-- The first address, taken in ascending order, whose range shares a slot with that of a lower address (R188, test 2: "the
higher of the two addresses"). -/
def Tables.overlapFault (t : Tables) : Option Nat :=
  addresses.find? (fun b =>
    match t.node b with
    | some eb =>
      addresses.any (fun a =>
        decide (a < b) && (match t.node a with | some ea => ea.overlaps eb | none => false))
    | none => false)

/-- The first rule index whose record fails a test of R91, or FFh for the default rule (R188, test 3). -/
def Tables.ruleFault (t : Tables) : Option Byte :=
  match (List.range 48).find? (fun i => match t.rule i with | some r => !r.valid | none => false) with
  | some i => some (u8 i)
  | none => if t.defaultAction.valid then none else some 0xFF

/-- The first test of R188 that fails: the item kind (range 1, overlap 2, rule 3) and its address or index. -/
def Tables.firstFault (t : Tables) : Option (Byte × Byte) :=
  match t.rangeFault with
  | some a => some (1, u8 a)
  | none =>
    match t.overlapFault with
    | some a => some (2, u8 a)
    | none => t.ruleFault.map (fun i => (3, i))

end Sys2Proof.Machine
end

