-- ==== Sys2Proof/Machine/State.lean ====
section
/-! DEFINITION. The state of the bridge, block by block as 00_scope.md lays it out, and the state right after reset. -/

namespace Sys2Proof.Machine

/-- The Trunk Port (section 10.1). -/
structure TrunkPort where
  rx : RxCondition
  ingress : List TrunkFrame
  egress : Vector EgressEntry 24
  order : List WaitingEntry
  reportLost : Word32
  ingressDrop : Word32
  deriving DecidableEq, Repr

/-- The Management Responder (section 10.2): its own state. -/
structure Responder where
  mode : Mode
  flags : BitVec 10
  mask : BitVec 3
  edit : Tables
  identity : Option Identity
  deriving DecidableEq, Repr

/-- The Classifier's counters (R97, R106). -/
structure ClassifierCounters where
  rules : Vector RuleCounters 48
  defaultRule : RuleCounters
  deriving DecidableEq, Repr

/-- The Shadow Store (chapter 6): 96 pool slots, one replay order list and one replay-in-flight record per node. -/
structure ShadowStore where
  slots : Vector (Option ShadowRecord) 96
  lists : PerNode (List Nat)
  inFlight : PerNode (Option ReplayInFlight)
  missCount : Word32
  deriving DecidableEq, Repr

/-- The Hold Pool (chapter 7): one FIFO queue per node, oldest arrival at the head. -/
structure HoldPool where
  queues : PerNode (List HoldEntry)
  deriving DecidableEq, Repr

/-- The Gap Monitor (chapter 2). `gapHigh` is the level of the GAP pin at the last sample. -/
structure GapMonitor where
  clock : Time
  gapHigh : Bool
  condition : GapCondition
  aged : Bool
  lastD : Nat
  gapSet : List Nat
  reserves : PerNode (Option Reserve)
  deriving DecidableEq, Repr

/-- The Restore Engine (chapters 3 and 8): runtime records, block buffers and their waiting list. -/
structure RestoreEngine where
  nodes : PerNode (Option Runtime)
  buffers : Vector Buffer 4
  waiting : List Nat
  deriving DecidableEq, Repr

/-- The Segment Master (chapter 4). -/
structure SegmentMaster where
  line : Line
  urgent : List PassEntry
  normal : List PassEntry
  runCount : Nat
  lastEntrance : Nat
  lastInfo : Nat
  restartPending : Bool
  deriving DecidableEq, Repr

/-- The Image Store (chapter 9). `blocks`, `copy0` and `copy1` are nonvolatile. `blocks` lists, by rising block number, the
store blocks that differ from what an unlisted block reads as (Memory form: R165, log entry 7). -/
structure ImageStore where
  blocks : List (Nat × StoreBlock)
  copy0 : Option DirectoryCopy
  copy1 : Option DirectoryCopy
  latest : Option CopyPlace
  saved : Bool
  catalogue : Vector (Option CatalogueEntry) 12
  retained : Option Extent
  staged : Option StagedImage
  reads : List ReadRequest
  operations : List Operation
  progress : Option Progress
  /-- The switch to SERVICE met the operation in progress (R177): it ends with the answer MODE. -/
  cut : Bool
  access : Option Access
  deriving DecidableEq, Repr

/-- The whole machine. `pending` is the queue of commands that wait, first in, first out; `moment` counts the commands
that have taken effect (the model's own field: it dates what becomes WAITING, R181, and feeds the free values). -/
structure State where
  pending : List Instr
  moment : Nat
  straps : Straps
  tables : Tables
  trunk : TrunkPort
  responder : Responder
  counters : ClassifierCounters
  shadow : ShadowStore
  hold : HoldPool
  gap : GapMonitor
  restore : RestoreEngine
  segment : SegmentMaster
  store : ImageStore
  stored : Option StoredTables
  deriving DecidableEq, Repr

/-- Why the machine stops. -/
inductive Fault where
  /-- A store access ended for a block number that the strapped store does not have (R165: blocks 0..N − 1). Raised by the
  commands that end a store access. Safe: the machine stops where the manual gives no block. -/
  | noSuchStoreBlock
  deriving DecidableEq, Repr

/-- Why the model gives a command no meaning. -/
inductive Refusal where
  /-- The command has no meaning in the model yet. Raised only by exec's own arms. Safe: nothing is claimed of it. -/
  | notModelled (mnemonic : String)
  deriving DecidableEq, Repr

/-- The machine right after reset, as a part whose nonvolatile areas were never written: the table load and the
directory load find nothing valid, so the tables are empty, the mode is DEPOT, and TABLES_INVALID (flag 6) and
DIRECTORY_INVALID (flag 7) are set (R179, R191). The straps read low and GAP reads supply present (log entry 3). -/
def State.reset : State :=
  { pending := []
    moment := 0
    straps := { rate1 := false, rate0 := false, gapPol := false, storeSz := false }
    tables := Tables.empty
    trunk :=
      { rx := .hunting, ingress := [], egress := Vector.replicate 24 .free, order := [], reportLost := 0, ingressDrop := 0 }
    responder := { mode := .depot, flags := 0x0C0#10, mask := 0, edit := Tables.empty, identity := none }
    counters := { rules := Vector.replicate 48 { frames := 0, bytes := 0 }, defaultRule := { frames := 0, bytes := 0 } }
    shadow :=
      { slots := Vector.replicate 96 none, lists := Vector.replicate 30 [], inFlight := Vector.replicate 30 none
        missCount := 0 }
    hold := { queues := Vector.replicate 30 [] }
    gap :=
      { clock := 0, gapHigh := true, condition := .supplied, aged := false, lastD := 0, gapSet := []
        reserves := Vector.replicate 30 none }
    restore := { nodes := Vector.replicate 30 none, buffers := Vector.replicate 4 .free, waiting := [] }
    segment :=
      { line := .free, urgent := [], normal := [], runCount := 0, lastEntrance := 0, lastInfo := 0, restartPending := false }
    store :=
      { blocks := [], copy0 := none, copy1 := none, latest := none, saved := false, catalogue := Vector.replicate 12 none
        retained := none, staged := none, reads := [], operations := [], progress := none, cut := false, access := none }
    stored := none }

end Sys2Proof.Machine
end

