-- ==== Sys2Proof/Machine/Ops.lean ====
section
/-! DEFINITION. The named operations over the machine's state: block updates, per-node records, the store's block
array, and the egress queue with its reservations (R94, R181). -/

namespace Sys2Proof.Machine

/-! ### Updates of one block -/

def State.withTrunk (s : State) (x : TrunkPort) : State := { s with trunk := x }
def State.withResponder (s : State) (x : Responder) : State := { s with responder := x }
def State.withCounters (s : State) (x : ClassifierCounters) : State := { s with counters := x }
def State.withShadow (s : State) (x : ShadowStore) : State := { s with shadow := x }
def State.withHold (s : State) (x : HoldPool) : State := { s with hold := x }
def State.withGap (s : State) (x : GapMonitor) : State := { s with gap := x }
def State.withRestore (s : State) (x : RestoreEngine) : State := { s with restore := x }
def State.withSegment (s : State) (x : SegmentMaster) : State := { s with segment := x }
def State.withStore (s : State) (x : ImageStore) : State := { s with store := x }
def State.withTables (s : State) (x : Tables) : State := { s with tables := x }
def State.withStored (s : State) (x : Option StoredTables) : State := { s with stored := x }

/-! ### What every block reads -/

/-- The millisecond clock (R17). -/
def State.now (s : State) : Time := s.gap.clock

/-- The active parameter record (R186). -/
def State.params (s : State) : Params := s.tables.params

/-- A gap is in progress: IN_GAP or END_PENDING (section 2.2). -/
def State.gapInProgress (s : State) : Bool := s.gap.condition.inProgress

/-- The active node table entry of an address (R36). -/
def State.entry (s : State) (a : Nat) : Option NodeEntry := s.tables.node a

/-- The runtime record of an address, if configured (R38). -/
def State.runtime (s : State) (a : Nat) : Option Runtime := (atNode s.restore.nodes a).join

/-- Makes, replaces or drops a runtime record. -/
def State.setRuntime (s : State) (a : Nat) (r : Option Runtime) : State :=
  s.withRestore { s.restore with nodes := putNode s.restore.nodes a r }

/-- Changes the runtime record of a configured node; nothing for an address that has none. -/
def State.mapRuntime (s : State) (a : Nat) (f : Runtime → Runtime) : State :=
  match s.runtime a with
  | some r => s.setRuntime a (some (f r))
  | none => s

/-- The state of a node address; an address without a runtime record reads UNCONFIGURED (R38). -/
def State.nodeState (s : State) (a : Nat) : NodeState :=
  match s.runtime a with
  | some r => r.state
  | none => .unconfigured

/-- The node's class and supply, read from the active table. -/
def State.isFed (s : State) (a : Nat) : Bool :=
  match s.entry a with
  | some e => e.supply == .fed
  | none => false

def State.isClass (s : State) (a : Nat) (c : NodeClass) : Bool :=
  match s.entry a with
  | some e => e.cls == c
  | none => false

/-- A node's hold queue, oldest arrival at the head (R127). -/
def State.queue (s : State) (a : Nat) : List HoldEntry := (atNode s.hold.queues a).getD []

def State.setQueue (s : State) (a : Nat) (q : List HoldEntry) : State :=
  s.withHold { s.hold with queues := putNode s.hold.queues a q }

/-- The pool's free count: 128 less the entries in use (R127). -/
def State.holdFree (s : State) : Nat := 128 - (addresses.map (fun a => (s.queue a).length)).sum

/-- A node's replay order list (R111). -/
def State.replayList (s : State) (a : Nat) : List Nat := (atNode s.shadow.lists a).getD []

/-- A node's replay-in-flight record (R110). -/
def State.replayInFlight (s : State) (a : Nat) : Option ReplayInFlight := (atNode s.shadow.inFlight a).join

def State.setReplayInFlight (s : State) (a : Nat) (x : Option ReplayInFlight) : State :=
  s.withShadow { s.shadow with inFlight := putNode s.shadow.inFlight a x }

/-- A pool slot's record, if the slot is valid (R110). -/
def State.slot (s : State) (i : Nat) : Option ShadowRecord := (s.shadow.slots[i]?).join

/-- A catalogue place (R166). -/
def State.place (s : State) (i : Nat) : Option CatalogueEntry := (s.store.catalogue[i]?).join

def State.setPlace (s : State) (i : Nat) (x : Option CatalogueEntry) : State :=
  s.withStore { s.store with catalogue := s.store.catalogue.setIfInBounds i x }

/-- The index of the catalogue entry of a node kind (R166). -/
def State.placeOfKind (s : State) (kind : Byte) : Option Nat :=
  (List.range 12).find? (fun i => match s.place i with | some e => e.image.kind == kind | none => false)

/-- The reserve record of a node (section 2.4). -/
def State.reserve (s : State) (a : Nat) : Option Reserve := (atNode s.gap.reserves a).join

def State.setReserve (s : State) (a : Nat) (r : Option Reserve) : State :=
  s.withGap { s.gap with reserves := putNode s.gap.reserves a r }

/-- The transaction in flight (R63). -/
def State.transaction (s : State) : Option Transaction := s.segment.line.transaction

/-- The pass entry whose transaction is in flight counts against the 32 like a queued one (R68). -/
def State.passInFlight (s : State) : Nat :=
  match s.transaction with
  | some { carries := .pass _, .. } => 1
  | _ => 0

/-- The pass queue length: both sub-queues and the entry in flight (R68, R82). -/
def State.passLength (s : State) : Nat := s.segment.urgent.length + s.segment.normal.length + s.passInFlight

/-- A state update for each node address in ascending order. -/
def forNodes (nodes : List Nat) (f : Nat → State → State) (s : State) : State := nodes.foldl (fun t a => f a t) s

/-! ### The block array (R165) -/

/-- What a block that was never programmed reads as: 128 bytes FFh with check bytes FFh, which never match (R15).
The manual gives no contents. Log entry 7. -/
def unprogrammedBlock : StoreBlock := { data := List.replicate 128 0xFF, check := [0xFF, 0xFF] }

/-- The content of one store block. -/
def readBlock (blocks : List (Nat × StoreBlock)) (i : Nat) : StoreBlock :=
  match blocks with
  | [] => unprogrammedBlock
  | (j, b) :: rest => if i = j then b else readBlock rest i

/-- Replaces the content of one store block, keeping the list rising and without entries that an unlisted block reads as. -/
def writeBlock (blocks : List (Nat × StoreBlock)) (i : Nat) (b : StoreBlock) : List (Nat × StoreBlock) :=
  match blocks with
  | [] => if b = unprogrammedBlock then [] else [(i, b)]
  | (j, c) :: rest =>
    if i < j then (if b = unprogrammedBlock then (j, c) :: rest else (i, b) :: (j, c) :: rest)
    else if i = j then (if b = unprogrammedBlock then rest else (i, b) :: rest)
    else (j, c) :: writeBlock rest i b

/-- The canonical form of the block array: block numbers strictly rise and no entry equals what an unlisted block reads as. -/
def blocksCanonical : List (Nat × StoreBlock) → Bool
  | [] => true
  | (i, b) :: rest =>
    decide (b ≠ unprogrammedBlock) && (match rest with | (j, _) :: _ => decide (i < j) | [] => true)
      && blocksCanonical rest

/-- The Memory form of the machine's one addressed store. -/
def ImageStore.wf (m : ImageStore) : Bool := blocksCanonical m.blocks

/-- N, the number of store blocks (R165). -/
def State.blockCount (s : State) : Nat := if s.straps.storeSz then 16384 else 8192

/-- A programmed block: the data with their Fletcher-16 (R165, R174). -/
def programmedBlock (data : List Byte) : StoreBlock := { data := data, check := check16 data }

/-- A block whose program was cut off by a reset: data and check in any state (R179; free value, log entry 5). -/
def tornBlock (moment : Nat) : StoreBlock :=
  { data := (List.range 128).map (Config.tornByte moment)
    check := [Config.tornByte moment 128, Config.tornByte moment 129] }

/-- The stored check of a block matches the check recomputed over its data (R165). -/
def StoreBlock.checkGood (b : StoreBlock) : Bool := b.check == check16 b.data

def State.writeStoreBlock (s : State) (i : Nat) (b : StoreBlock) : State :=
  s.withStore { s.store with blocks := writeBlock s.store.blocks i b }

/-! ### Egress (R94, R181) -/

/-- The lowest FREE egress entry: one that holds no frame and is not reserved (R94). Which FREE entry is taken shows
nowhere. -/
def State.freeEntry (s : State) : Option Nat := (List.range 24).find? (fun i => s.trunk.egress[i]? == some .free)

def State.setEgress (s : State) (i : Nat) (e : EgressEntry) : State :=
  s.withTrunk { s.trunk with egress := s.trunk.egress.setIfInBounds i e }

/-- The number of FREE egress entries (R181). -/
def State.egressFree (s : State) : Nat := ((List.range 24).filter (fun i => s.trunk.egress[i]? == some .free)).length

/-- An egress entry takes a complete frame and becomes WAITING (R181). -/
def State.enqueue (s : State) (i : Nat) (f : TrunkFrame) : State :=
  s.withTrunk
    { s.trunk with
      egress := s.trunk.egress.setIfInBounds i (.waiting f)
      order := s.trunk.order ++ [{ entry := i, moment := s.moment }] }

/-- The frame at the head of ingress leaves it with a reservation, when a FREE egress entry exists (R94). -/
def State.takeHead (s : State) : Option (TrunkFrame × Nat × State) :=
  match s.trunk.ingress with
  | [] => none
  | f :: rest =>
    match s.freeEntry with
    | none => none
    | some i =>
      some (f, i,
        s.withTrunk { s.trunk with ingress := rest, egress := s.trunk.egress.setIfInBounds i .reserved })

/-! ### Trunk frames the bridge sends (R12, R13) -/

/-- A SEGMENT ANSWER (R12). -/
def segmentAnswer (tag : Word16) (c : AnswerCode) (body : List Byte) : TrunkFrame :=
  { kind := 0x41, tag := tag, outcome := c.code, body := body }

/-- A MANAGEMENT ANSWER (R12). -/
def managementAnswer (tag : Word16) (c : AnswerCode) (body : List Byte) : TrunkFrame :=
  { kind := 0x42, tag := tag, outcome := c.code, body := body }

/-- A DEFERRED REPORT (R13): the node address, then what the outcome carries. -/
def deferredReport (tag : Word16) (c : AnswerCode) (node : Nat) (rest : List Byte) : TrunkFrame :=
  { kind := 0x43, tag := tag, outcome := c.code, body := u8 node :: rest }

/-- A NOTICE: tag 0 and outcome 0 (R13). -/
def notice (body : List Byte) : TrunkFrame := { kind := 0x44, tag := 0, outcome := 0, body := body }

/-- A node's reply as it is sent upward: reply kind, function and payload (R9). -/
def replyBytes (r : Reply) : List Byte := r.kind.code :: r.function :: r.payload

/-- The answer of a pass entry, through its reservation (R81). -/
def answerPass (e : PassEntry) (c : AnswerCode) (body : List Byte) (s : State) : State :=
  s.enqueue e.reservation (segmentAnswer e.tag c body)

/-- The answer of a management request: the request code, then the answer data, through its reservation (R12). -/
def answerRequest (r : RequestRef) (c : AnswerCode) (data : List Byte) (s : State) : State :=
  s.enqueue r.reservation (managementAnswer r.tag c (r.code :: data))

/-! ### The end of a command -/

/-- An entry of egress holds the frame on the link (R181). -/
def State.transmitting (s : State) : Bool :=
  (List.range 24).any (fun i => match s.trunk.egress[i]? with | some (.sending _) => true | _ => false)

/-- The place in the order of waiting entries of the one sent next: the first, or one of those that became WAITING at
the same moment as the first (R181: "either may be sent first"; free value, log entry 4). -/
def nextToSend (order : List WaitingEntry) (moment : Nat) : Nat :=
  match order with
  | [] => 0
  | w :: _ =>
    match (order.takeWhile (fun x => x.moment == w.moment)).length with
    | 0 => 0
    | 1 => 0
    | k => Config.egressTie moment % k

/-- An idle transmitter begins the next WAITING frame (R181). -/
def startTransmitter (s : State) : State :=
  if s.transmitting then s
  else
    let k := nextToSend s.trunk.order s.moment
    match s.trunk.order[k]? with
    | none => s
    | some w =>
      let egress :=
        match s.trunk.egress[w.entry]? with
        | some (.waiting f) => s.trunk.egress.setIfInBounds w.entry (.sending f)
        | _ => s.trunk.egress
      s.withTrunk { s.trunk with egress := egress, order := s.trunk.order.eraseIdx k }

/-- The end of a command that took effect: the transmitter is served and the moment counts on. -/
def endCommand (s : State) : State :=
  let t := startTransmitter s
  { t with moment := t.moment + 1 }

/-- A command that took effect. -/
def took (s : State) : Host.Outcome State Fault Refusal := .next (endCommand s)

/-- A command whose event cannot take place in this state: nothing happens (log entry 1). -/
def noEvent (s : State) : Host.Outcome State Fault Refusal := .next s

/-- A command that takes effect where its event can take place. -/
def happens (r : Option State) (s : State) : Host.Outcome State Fault Refusal :=
  match r with
  | some t => took t
  | none => noEvent s

end Sys2Proof.Machine
end

