-- ==== Sys2Proof/Machine/Frames.lean ====
section
/-! DEFINITION. Frames as characters: trunk reception (R10), the field judgement of trunk frames (R11), segment frames
as sent (R1 to R4) and node replies as judged (R5 to R8). -/

namespace Sys2Proof.Machine

/-! ### Trunk frames -/

/-- The characters a trunk frame's check covers: kind through the last body byte (section 1.3). -/
def TrunkFrame.covered (f : TrunkFrame) : List Byte :=
  f.kind :: (le16 f.tag ++ [f.outcome] ++ le16n f.body.length ++ f.body)

/-- A trunk frame on the link: start C3h, fields, check B then A (section 1.6). -/
def TrunkFrame.wire (f : TrunkFrame) : List Byte := 0xC3 :: (f.covered ++ check16 f.covered)

/-- What the characters collected after a C3h amount to (R10). -/
inductive TrunkReception where
  | good (f : TrunkFrame)
  | bad
  | unfinished
  deriving DecidableEq, Repr

/-- R10: six header characters, the body, two check characters. A length above 300 ends collecting at the second length
character; a complete frame is good when the received check equals the computed one. -/
def receiveTrunk (chars : List Byte) : TrunkReception :=
  match chars with
  | kind :: t0 :: t1 :: outcome :: n0 :: n1 :: rest =>
    let n := (word16 n0 n1).toNat
    if n > 300 then (if rest = [] then .bad else .unfinished)
    else if rest.length ≠ n + 2 then .unfinished
    else
      let body := rest.take n
      if rest.drop n = check16 (kind :: t0 :: t1 :: outcome :: n0 :: n1 :: body) then
        .good { kind := kind, tag := word16 t0 t1, outcome := outcome, body := body }
      else .bad
  | _ => .unfinished

/-- The trunk kinds of the two requests (section 1.5). -/
def segmentRequestKind : Byte := 0x01
def managementRequestKind : Byte := 0x02

/-- The fields of a valid SEGMENT REQUEST (R11). -/
structure SegmentRequest where
  tag : Word16
  destination : Nat
  kind : RequestKind
  function : Byte
  payload : List Byte
  deriving DecidableEq, Repr

/-- R11 for a good frame of kind SEGMENT REQUEST: its fields, or `none` where it is malformed. -/
def parseSegmentRequest (f : TrunkFrame) : Option SegmentRequest :=
  match f.body with
  | d :: k :: fn :: payload =>
    match RequestKind.ofCode k with
    | none => none
    | some kind =>
      let dest := d.toNat
      if f.outcome = 0 ∧ payload.length ≤ 64 ∧ 1 ≤ dest ∧ dest ≤ 31 ∧ (kind = .broadcast ↔ dest = 31) then
        some { tag := f.tag, destination := dest, kind := kind, function := fn, payload := payload }
      else none
  | _ => none

/-! ### Segment frames the bridge sends -/

/-- The characters a segment frame's check covers: destination, source 0, kind, function, marker, length, payload (R1). -/
def SegmentFrame.covered (f : SegmentFrame) : List Byte :=
  [u8 f.destination, 0, f.kind.code, f.function, f.marker, u8 f.payload.length] ++ f.payload

/-- A segment frame on the wire: start A5h, the covered characters, the check B first (R1). -/
def SegmentFrame.wire (f : SegmentFrame) : List Byte := 0xA5 :: (f.covered ++ check16 f.covered)

/-- A pass frame: marker 0 (R1, R2). -/
def passFrame (e : PassEntry) : SegmentFrame :=
  { destination := e.destination, kind := e.kind.segment, function := e.function, marker := 0, payload := e.payload }

/-- The identity record's four bytes, or the identity-unset value (R3). -/
def identityBytes : Option Identity → List Byte
  | some i => le16n i.car ++ [u8 i.position, i.orientation.code]
  | none => [0xFF, 0xFF, 0, 0xFF]

/-- A frame of a step whose function and marker are 0 (R1). -/
def plainStepFrame (node : Nat) (kind : SegmentKind) (payload : List Byte) : SegmentFrame :=
  { destination := node, kind := kind, function := 0, marker := 0, payload := payload }

/-- The IMAGE END payload: version, length in blocks, image check (R4). -/
def imageEndPayload (e : ImageEntry) : List Byte := le16 e.version ++ le16n e.length ++ le32 e.check

/-! ### Node replies -/

/-- The fields of a complete reply, as collected after the A5h (R5, section 1.6). -/
structure RawReply where
  destination : Byte
  source : Byte
  kind : Byte
  function : Byte
  marker : Byte
  payload : List Byte
  check : List Byte
  deriving DecidableEq, Repr

/-- R5: six header characters, as many payload characters as the length gives (at most 64), two check characters.
`none` where the characters are no complete reply. -/
def collectReply (chars : List Byte) : Option RawReply :=
  match chars with
  | d :: src :: k :: fn :: m :: l :: rest =>
    if l.toNat ≤ 64 ∧ rest.length = l.toNat + 2 then
      some { destination := d, source := src, kind := k, function := fn, marker := m
             payload := rest.take l.toNat, check := rest.drop l.toNat }
    else none
  | _ => none

/-- The characters a reply's check covers (R6, test 1). -/
def RawReply.covered (r : RawReply) : List Byte :=
  [r.destination, r.source, r.kind, r.function, r.marker, u8 r.payload.length] ++ r.payload

/-- The reply kinds valid for each kind of frame sent (R6). -/
def replyKindFits (sent : SegmentKind) (k : ReplyKind) : Bool :=
  match sent, k with
  | .command, .accept | .command, .refuse | .command, .answer => true
  | .query, .answer | .query, .refuse => true
  | .statusQuery, .statusReport => true
  | .config, .accept | .config, .refuse => true
  | .imageBlock, .blockToken | .imageEnd, .blockToken | .busyPoll, .blockToken => true
  | _, _ => false

/-- The fields of a STATUS REPORT payload, if its length and coded fields are valid (R6, R7, section 1.6). -/
def parseStatus (payload : List Byte) : Option StatusReport :=
  if payload.length = 8 then
    match ImageState.ofCode (byteAt payload 0) with
    | some image =>
      let resume := (word16At payload 5).toNat
      if resume ≤ 4095 then
        some { image := image, running := word16At payload 1, target := word16At payload 3, resume := resume
               kind := byteAt payload 7 }
      else none
    | none => none
  else none

/-- The token of a BLOCK TOKEN payload (R6, R8). -/
def parseToken (payload : List Byte) : Option Token :=
  if payload.length = 1 then Token.ofCode (byteAt payload 0) else none

/-- Tests 5 and 6 of R6: the length the reply's kind takes, and listed values in the coded fields. -/
def payloadFits (k : ReplyKind) (payload : List Byte) : Bool :=
  match k with
  | .accept => payload.length == 0
  | .refuse => payload.length == 1
  | .answer => decide (payload.length ≤ 64)
  | .statusReport => (parseStatus payload).isSome
  | .blockToken => (parseToken payload).isSome

/-- R6: a complete reply to a frame of kind `sent` to `destination` is valid, or a bad check. -/
def judgeReply (sent : SegmentKind) (destination : Nat) (r : RawReply) : Result :=
  if r.check = check16 r.covered ∧ r.destination = 0 ∧ r.source.toNat = destination then
    match ReplyKind.ofCode r.kind with
    | some k =>
      if replyKindFits sent k && payloadFits k r.payload then
        .valid { kind := k, function := r.function, marker := r.marker, payload := r.payload }
      else .badCheck
    | none => .badCheck
  else .badCheck

end Sys2Proof.Machine
end

