-- ==== Sys2Proof/Machine/Flags.lean ====
section
/-! DEFINITION. The flags and the notices: what raises a flag, what a rising offers, and what is lost for want of a FREE
egress entry (R41, R133, R181, R193, R194). -/

namespace Sys2Proof.Machine

def State.flagSet (s : State) (f : Flag) : Bool := s.responder.flags.getLsbD f.code

def State.setFlag (s : State) (f : Flag) : State :=
  s.withResponder { s.responder with flags := s.responder.flags ||| BitVec.twoPow 10 f.code }

/-- The notice mask's bits: bit 0 FLAG, bit 1 NODE STATE, bit 2 GAP (section 1.5). -/
def State.maskFlag (s : State) : Bool := s.responder.mask.getLsbD 0
def State.maskNodeState (s : State) : Bool := s.responder.mask.getLsbD 1
def State.maskGap (s : State) : Bool := s.responder.mask.getLsbD 2

/-- The body of a FLAG notice (R13). -/
def flagNotice (f : Flag) : TrunkFrame := notice [1, u8 f.code]

/-- The report-lost count goes up by 1 (R133, R181). -/
def countLost (s : State) : State := s.withTrunk { s.trunk with reportLost := s.trunk.reportLost + 1 }

/-- A report or notice finds no FREE entry: it is lost and counted, and EGRESS_OVERFLOW is raised. A rising of that flag
offers one more notice, which is counted as lost in turn if no entry is FREE; that raise finds the flag set, so the chain
ends there (R193). -/
def loseFrame (s : State) : State :=
  let s1 := countLost s
  if s1.flagSet .egressOverflow then s1
  else
    let s2 := s1.setFlag .egressOverflow
    if s2.maskFlag then
      match s2.freeEntry with
      | some i => s2.enqueue i (flagNotice .egressOverflow)
      | none => countLost s2
    else s2

/-- A frame without a reservation takes a FREE entry straight into WAITING, or is lost (R181). -/
def offerFrame (f : TrunkFrame) (s : State) : State :=
  match s.freeEntry with
  | some i => s.enqueue i f
  | none => loseFrame s

/-- Raising a flag (R193): a clear flag is set, and its rising offers a FLAG notice while the FLAG bit of the mask is set. -/
def raiseFlag (f : Flag) (s : State) : State :=
  if s.flagSet f then s
  else
    let s1 := s.setFlag f
    if s1.maskFlag then offerFrame (flagNotice f) s1 else s1

/-- A NODE STATE notice, offered while its bit of the mask is set (R41). -/
def offerNodeState (node : Nat) (st : NodeState) (s : State) : State :=
  if s.maskNodeState then offerFrame (notice [2, u8 node, u8 st.code]) s else s

/-- A GAP notice, offered while its bit of the mask is set (R31): phase, edge clock value, d and the three counts. -/
def offerGap (phase : Byte) (edge : Time) (d survived uncertain lost : Nat) (s : State) : State :=
  if s.maskGap then
    offerFrame (notice ([3, phase] ++ le32 edge ++ le16n d ++ [u8 survived, u8 uncertain, u8 lost])) s
  else s

end Sys2Proof.Machine
end

