-- ==== Sys2Proof/Machine/Hold.lean ====
section
/-! DEFINITION. The Hold Pool: appends, reports and discards (chapter 7). -/

namespace Sys2Proof.Machine

/-- What an append is given (R128). -/
structure HeldFrame where
  tag : Option Word16
  kind : RequestKind
  function : Byte
  payload : List Byte
  rule : RuleRef
  slot : Option Nat
  policy : ReplayPolicy
  deriving DecidableEq, Repr

/-- The expiry time of an entry appended now: none for lifetime 0, else arrival plus lifetime × 100 ms (R128). -/
def expiryFor (now : Time) (lifetime : Nat) : Option Time :=
  if lifetime = 0 then none else some (after now (lifetime * 100))

/-- The entry an append makes. -/
def newHoldEntry (node : Nat) (h : HeldFrame) (now : Time) (lifetime : Nat) : HoldEntry :=
  { tag := h.tag, node := node, kind := h.kind, function := h.function, payload := h.payload, rule := h.rule
    slot := h.slot, policy := h.policy, arrival := now, expiry := expiryFor now lifetime, reservation := none
    inFlight := false }

/-- An append to a node's hold queue (R128): made when the queue is shorter than the node's cap and the pool has a free
entry. The answer says whether it was made. -/
def appendHold (node : Nat) (h : HeldFrame) (s : State) : State × Bool :=
  match s.entry node with
  | some e =>
    if (s.queue node).length < e.holdCap ∧ 0 < s.holdFree then
      (s.setQueue node (s.queue node ++ [newHoldEntry node h s.now e.holdLifetime]), true)
    else (s, false)
  | none => (s, false)

/-- The deferred report of an entry: into its reservation, else into a FREE entry or lost; none for an untagged entry
(R132, R133). -/
def makeReport (e : HoldEntry) (c : AnswerCode) (rest : List Byte) (s : State) : State :=
  match e.tag with
  | none => s
  | some tag =>
    match e.reservation with
    | some i => s.enqueue i (deferredReport tag c e.node rest)
    | none => offerFrame (deferredReport tag c e.node rest) s

/-- The DISCARDED reports of entries, in the order the discard gives (R139). -/
def reportDiscarded (entries : List HoldEntry) (s : State) : State :=
  entries.foldl (fun t e => makeReport e .discarded [] t) s

/-- The discard of a whole queue, head to tail (R139, R140). -/
def discardQueue (node : Nat) (s : State) : State := (reportDiscarded (s.queue node) s).setQueue node []

/-- The trim of a queue to a lowered cap: the newest entries, from the tail toward the head (R141). -/
def trimQueue (node cap : Nat) (s : State) : State :=
  let q := s.queue node
  (reportDiscarded (q.drop cap).reverse s).setQueue node (q.take cap)

/-- The entries of a queue that are due: expiry time reached and not in flight (R130). -/
def HoldEntry.expired (e : HoldEntry) (now : Time) : Bool :=
  match e.expiry with
  | some t => reached now t
  | none => false

end Sys2Proof.Machine
end

