-- ==== Sys2Proof/Machine/Shadow.lean ====
section
/-! DEFINITION. The Shadow Store: capture, renewal, clearing (chapter 6). -/

namespace Sys2Proof.Machine

/-- What a capture is given besides the node, the relative slot and the mark (R112). -/
structure CapturedFrame where
  rule : RuleRef
  policy : ReplayPolicy
  kind : RequestKind
  function : Byte
  payload : List Byte
  deriving DecidableEq, Repr

/-- The pool slot of a capture, when the relative slot lies in the node's range (R109). -/
def State.poolSlot (s : State) (node relative : Nat) : Option Nat :=
  match s.entry node with
  | some e => if relative < e.shadowCount then some (e.shadowBase + relative) else none
  | none => none

def State.setSlot (s : State) (i : Nat) (r : Option ShadowRecord) : State :=
  s.withShadow { s.shadow with slots := s.shadow.slots.setIfInBounds i r }

def State.setReplayList (s : State) (node : Nat) (l : List Nat) : State :=
  s.withShadow { s.shadow with lists := putNode s.shadow.lists node l }

/-- A slot is valid and pending. -/
def State.slotPending (s : State) (i : Nat) : Bool :=
  match s.slot i with
  | some r => r.marked
  | none => false

/-- A shadow miss: counted, SHADOW_MISS raised, nothing written (R116). -/
def shadowMiss (s : State) : State :=
  raiseFlag .shadowMiss (s.withShadow { s.shadow with missCount := s.shadow.missCount + 1 })

/-- A capture that reaches the slot whose replay step is on the wire sets the replaced mark (R115). -/
def markReplaced (node i : Nat) (s : State) : State :=
  match s.replayInFlight node with
  | some r => if r.slot = i then s.setReplayInFlight node (some { r with replaced := true }) else s
  | none => s

/-- The capture procedure (R112), with or without the pending mark. The answer says whether the capture was made; a
shadow miss makes none (R116). -/
def capture (node relative : Nat) (c : CapturedFrame) (mark : Bool) (s : State) : State × Bool :=
  match s.poolSlot node relative with
  | none => (shadowMiss s, false)
  | some i =>
    let record : ShadowRecord :=
      { node := node, relative := relative, rule := c.rule, policy := c.policy, kind := c.kind, function := c.function
        payload := c.payload, marked := mark || s.slotPending i }
    let s1 := s.setSlot i (some record)
    let s2 := s1.setReplayList node ((s1.replayList node).filter (· != i) ++ [i])
    (if mark then markReplaced node i s2 else s2, true)

/-- A capture at delivery: without the mark, and none where the slot is valid and pending (R113). -/
def captureDelivered (node relative : Nat) (c : CapturedFrame) (s : State) : State :=
  match s.poolSlot node relative with
  | some i => if s.slotPending i then s else (capture node relative c false s).1
  | none => (capture node relative c false s).1

/-- The node's pending slots, in the order of its replay order list (R119). -/
def State.pendingSlots (s : State) (node : Nat) : List Nat := (s.replayList node).filter s.slotPending

def State.hasPending (s : State) (node : Nat) : Bool := !(s.pendingSlots node).isEmpty

/-- One slot of a renewal: a FORGET slot is cleared, a REPLAY slot is marked (R118). -/
def renewSlot (i : Nat) (s : State) : State :=
  match s.slot i with
  | some r =>
    match r.policy with
    | .forget => s.setSlot i none
    | .replay => s.setSlot i (some { r with marked := true })
  | none => s

/-- The renewal of a node's slots at reconciliation with a changed or unknown boot count (R118). -/
def renewShadow (node : Nat) (s : State) : State :=
  let l := s.replayList node
  let s1 := forNodes l renewSlot s
  s1.setReplayList node (l.filter (fun i => (s1.slot i).isSome))

/-- One slot of a clearing: a valid slot becomes invalid and leaves the replay order list that holds it (R111, R123). -/
def clearSlot (i : Nat) (s : State) : State :=
  match s.slot i with
  | some r => (s.setSlot i none).setReplayList r.node ((s.replayList r.node).filter (· != i))
  | none => s

/-- The clearing of a node's slots at a table switch: every valid slot of the old range, one captured in the same switch for
another node too (log entry 12); the list; and the replaced mark of a replay on the wire (R123). -/
def clearShadow (node : Nat) (old : NodeEntry) (s : State) : State :=
  let s1 := forNodes (List.range' old.shadowBase old.shadowCount) clearSlot s
  let s2 := s1.setReplayList node []
  match s2.replayInFlight node with
  | some r => s2.setReplayInFlight node (some { r with replaced := true })
  | none => s2

end Sys2Proof.Machine
end

