-- ==== Sys2Proof/Machine/Passes.lean ====
section
/-! DEFINITION. Pass entries that leave the queue early: returned to the Classifier, refused, or dropped from a
broadcast's live members (R72 to R74, R104, R105), and the run count (R80). -/

namespace Sys2Proof.Machine

/-- The Shadow Store's and the Hold Pool's view of a pass entry. -/
def PassEntry.captured (e : PassEntry) : CapturedFrame :=
  { rule := e.rule, policy := e.action.replay, kind := e.kind, function := e.function, payload := e.payload }

def PassEntry.held (e : PassEntry) (tag : Option Word16) : HeldFrame :=
  { tag := tag, kind := e.kind, function := e.function, payload := e.payload, rule := e.rule, slot := e.action.slot
    policy := e.action.replay }

/-- A capture at classification under LATEST. A LATEST action names a slot (R91); without one nothing is kept. -/
def captureLatest (node : Nat) (slot : Option Nat) (c : CapturedFrame) (s : State) : State × Bool :=
  match slot with
  | some r => capture node r c true s
  | none => (s, false)

/-- The answer of absent policy REFUSE (R102, R105). -/
def State.refuseCode (s : State) : AnswerCode := if s.gapInProgress then .noReplyGap else .noReply

/-- A returned unicast entry is disposed of by its own copied absent policy and answered through its reservation (R105). -/
def disposeReturned (e : PassEntry) (s : State) : State :=
  match e.action.absent with
  | .queue =>
    let r := appendHold e.destination (e.held (some e.tag)) s
    answerPass e (if r.2 then .held else .holdFull) [] r.1
  | .latest =>
    let r := captureLatest e.destination e.action.slot e.captured s
    answerPass e (if r.2 then .stored else .holdFull) [] r.1
  | .refuse => answerPass e s.refuseCode [] s

/-- The absent treatment of a broadcast for one member (R104). -/
def absentTreatment (e : PassEntry) (node : Nat) (s : State) : State :=
  match e.action.absent with
  | .queue => (appendHold node (e.held none) s).1
  | .latest => (captureLatest node e.action.slot e.captured s).1
  | .refuse => s

/-- The walk of R72 over one sub-queue, head to tail: unicast entries for the leaving nodes are disposed of and go,
broadcasts lose the leaving nodes, each given the absent treatment. That several members of one broadcast which leave together
are treated in ascending address order is the model's choice (R23, R26, R72, R104; log entry 42). -/
def walkReturned (leaving : List Nat) : List PassEntry → State → List PassEntry × State
  | [], s => ([], s)
  | e :: rest, s =>
    match e.kind with
    | .broadcast =>
      let gone := e.live.filter (leaving.contains ·)
      let r := walkReturned leaving rest (forNodes gone (absentTreatment e) s)
      ({ e with live := e.live.filter (fun a => !leaving.contains a) } :: r.1, r.2)
    | _ =>
      if leaving.contains e.destination then walkReturned leaving rest (disposeReturned e s)
      else
        let r := walkReturned leaving rest s
        (e :: r.1, r.2)

/-- Both sub-queues after a walk; the run count becomes 0 when the normal sub-queue becomes empty (R80). -/
def setPassQueues (urgent normal : List PassEntry) (s : State) : State :=
  let g := s.segment
  s.withSegment
    { g with
      urgent := urgent
      normal := normal
      runCount := if normal.isEmpty && !g.normal.isEmpty then 0 else g.runCount }

/-- The return of the queued pass frames of nodes that left ONLINE, or of a newly configured address: the urgent
sub-queue, then the normal one (R72). -/
def returnPasses (leaving : List Nat) (s : State) : State :=
  let u := walkReturned leaving s.segment.urgent s
  let n := walkReturned leaving s.segment.normal u.2
  setPassQueues u.1 n.1 n.2

/-- The walk of R73 over one sub-queue: unicast entries for the node are answered and go, broadcasts lose the node. -/
def walkRefused (node : Nat) (c : AnswerCode) : List PassEntry → State → List PassEntry × State
  | [], s => ([], s)
  | e :: rest, s =>
    match e.kind with
    | .broadcast =>
      let r := walkRefused node c rest s
      ({ e with live := e.live.filter (· != node) } :: r.1, r.2)
    | _ =>
      if e.destination = node then walkRefused node c rest (answerPass e c [] s)
      else
        let r := walkRefused node c rest s
        (e :: r.1, r.2)

/-- Entry to FAILED or ISOLATED answers the node's queued entries by the state entered (R73). -/
def refusePasses (node : Nat) (c : AnswerCode) (s : State) : State :=
  let u := walkRefused node c s.segment.urgent s
  let n := walkRefused node c s.segment.normal u.2
  setPassQueues u.1 n.1 n.2

/-- Queued broadcasts lose a removed node, with nothing held or captured for it (R74). -/
def dropLive (node : Nat) (s : State) : State :=
  let drop := fun e : PassEntry => { e with live := e.live.filter (· != node) }
  s.withSegment { s.segment with urgent := s.segment.urgent.map drop, normal := s.segment.normal.map drop }

end Sys2Proof.Machine
end

