-- ==== Sys2Proof/Machine/Arbiter.lean ====
section
/-! DEFINITION. The store arbiter: one access at a time, session reads first (R169), and the end of the operation at the
head of the operation list. -/

namespace Sys2Proof.Machine

/-- The arbiter's choice when no access is in progress (R169): the read at the head of the read list, else the next access
of the operation in progress, else idle. The head operation that has not started waits for OPERATION_START. -/
def chooseAccess (s : State) : State :=
  match s.store.access with
  | some _ => s
  | none =>
    match s.store.reads with
    | r :: rest => s.withStore { s.store with access := some (.read r), reads := rest }
    | [] =>
      match s.store.progress with
      | some _ => s.withStore { s.store with access := some .operation }
      | none => s

/-- A session read is asked for: it joins the read list, and an idle arbiter starts it (R169). -/
def requestRead (r : ReadRequest) (s : State) : State :=
  chooseAccess (s.withStore { s.store with reads := s.store.reads ++ [r] })

/-- An access has ended: no access is in progress until the arbiter chooses. -/
def endAccess (s : State) : State := s.withStore { s.store with access := none }

/-- The operation at the head of the list makes progress: its next access is due. -/
def setProgress (p : Progress) (s : State) : State := s.withStore { s.store with progress := some p }

/-- The operation at the head of the list ends: its answer fills its reservation, and the next operation comes to the head
(R172). -/
def finishOperation (c : AnswerCode) (data : List Byte) (s : State) : State :=
  let s1 :=
    match s.store.operations with
    | { request := some r, .. } :: _ => answerRequest r c data s
    | _ => s
  s1.withStore { s1.store with operations := s1.store.operations.tail, progress := none, cut := false }

/-- A request joins the tail of the operation list (R172, R190). -/
def joinOperations (o : Operation) (s : State) : State :=
  s.withStore { s.store with operations := s.store.operations ++ [o] }

/-- A read into this buffer is waiting or in progress (R148). -/
def State.readPending (s : State) (buffer : Nat) : Bool :=
  s.store.reads.any (fun r => r.buffer == buffer)
    || (match s.store.access with | some (.read r) => r.buffer == buffer | _ => false)

/-- The store is busy while an access is in progress or either list is not empty (R169). -/
def State.storeBusy (s : State) : Bool :=
  s.store.access.isSome || !s.store.reads.isEmpty || !s.store.operations.isEmpty

/-- A mark write is asked for: none is added while one waits that has not started (R170). The head operation has started when
there is progress. -/
def requestMarkWrite (s : State) : State :=
  let waiting := if s.store.progress.isSome then s.store.operations.tail else s.store.operations
  if waiting.any (fun o => o.kind == .markWrite) then s else joinOperations { kind := .markWrite, request := none } s

end Sys2Proof.Machine
end

