-- ==== Sys2Proof/Machine/Sessions.lean ====
section
/-! DEFINITION. Image sessions and block buffers: asking, granting, reading, ending (R144 to R149, R159). -/

namespace Sys2Proof.Machine

/-! ### The step condition (R39) -/

/-- A cancelled step: withdrawn, or ORPHANED when its transaction is in flight (R39). -/
def StepCondition.cancel : StepCondition → StepCondition
  | .inFlight _ | .orphaned => .orphaned
  | .none | .waiting | .ready _ => .none

/-- A step is offered, once no orphan is in flight (R39). -/
def StepCondition.offer (k : StepKind) (c : StepCondition) : StepCondition :=
  match c with
  | .inFlight _ | .orphaned => .orphaned
  | .none | .waiting | .ready _ => .ready k

/-- A step is due later, once no orphan is in flight (R39). -/
def StepCondition.wait : StepCondition → StepCondition
  | .inFlight _ | .orphaned => .orphaned
  | .none | .waiting | .ready _ => .waiting

def cancelStep (node : Nat) (s : State) : State := s.mapRuntime node (fun r => { r with step := r.step.cancel })

def offerKind (node : Nat) (k : StepKind) (s : State) : State :=
  s.mapRuntime node (fun r => { r with step := r.step.offer k })

/-! ### Sessions -/

def State.session (s : State) (node : Nat) : Option Session := (s.runtime node).bind (·.session)

def State.mapSession (s : State) (node : Nat) (f : Session → Session) : State :=
  s.mapRuntime node (fun r => { r with session := r.session.map f })

def State.setBuffer (s : State) (b : Nat) (x : Buffer) : State :=
  s.withRestore { s.restore with buffers := s.restore.buffers.setIfInBounds b x }

/-- The image of a session's catalogue entry (R144). -/
def State.sessionImage (s : State) (x : Session) : Option ImageEntry := (s.place x.entry).map (·.image)

/-- A session that takes or is granted a buffer starts a store read of its next block at once (R148, R149). -/
def startRead (node b : Nat) (s : State) : State :=
  match s.session node with
  | none => s
  | some x =>
    let first := match s.sessionImage x with | some e => e.first | none => 0
    let s1 := s.mapRuntime node (fun r =>
      { r with step := r.step.wait, session := some { x with buffer := some b, request := .reading } })
    requestRead { block := first + x.next, buffer := b } (s1.setBuffer b (.reading node))

/-- A buffer falls FREE: granted to the head of the waiting list, if it is not empty (R148). -/
def freeBuffer (b : Nat) (s : State) : State :=
  match s.restore.waiting with
  | [] => s.setBuffer b .free
  | m :: rest => startRead m b ((s.setBuffer b .free).withRestore { (s.setBuffer b .free).restore with waiting := rest })

/-- The lowest-numbered FREE buffer. -/
def State.lowestFreeBuffer (s : State) : Option Nat :=
  (List.range 4).find? (fun b => s.restore.buffers[b]? == some .free)

/-- A session asks for a buffer: the lowest FREE one when nothing waits, else the tail of the waiting list (R148). -/
def askBuffer (node : Nat) (s : State) : State :=
  match s.restore.waiting, s.lowestFreeBuffer with
  | [], some b => startRead node b s
  | _, _ =>
    let s1 := s.mapRuntime node (fun r =>
      { r with
        step := r.step.wait
        session := r.session.map (fun x => { x with buffer := none, request := .waitingList }) })
    s1.withRestore { s1.restore with waiting := s1.restore.waiting ++ [node] }

/-- The buffer a session holds is given up: it is DRAINING while its read is pending, else it falls FREE (R148, R159). -/
def releaseBuffer (node : Nat) (s : State) : State :=
  match s.session node with
  | some { buffer := some b, .. } =>
    let s1 := s.mapSession node (fun x => { x with buffer := none, request := .none })
    if s1.readPending b then s1.setBuffer b .draining else freeBuffer b s1
  | _ => s

/-- The readers count of a catalogue place changes (R145). -/
def addReader (place : Nat) (s : State) : State :=
  match s.place place with
  | some e => s.setPlace place (some { e with readers := e.readers + 1 })
  | none => s

def dropReader (place : Nat) (s : State) : State :=
  match s.place place with
  | some e => s.setPlace place (some { e with readers := e.readers - 1 })
  | none => s

/-- A node leaves the waiting list; those behind it close up (R159). -/
def leaveWaiting (node : Nat) (s : State) : State :=
  s.withRestore { s.restore with waiting := s.restore.waiting.filter (· != node) }

/-- The end of a session, in the order of R159: step cancelled, waiting place given up, buffer given up, readers count
decremented, record dropped. -/
def endSession (node : Nat) (s : State) : State :=
  match s.session node with
  | none => s
  | some x =>
    let s1 := cancelStep node s
    let s2 := leaveWaiting node s1
    let s3 := releaseBuffer node s2
    let s4 := dropReader x.entry s3
    s4.mapRuntime node (fun r => { r with session := none })

end Sys2Proof.Machine
end

