-- ==== Sys2Proof/Machine/Nodes.lean ====
section
/-! DEFINITION. The moves between node states: what each entry to a state does (sections 3.3 to 3.10). -/

namespace Sys2Proof.Machine

/-- A move: what belongs to the state left behind becomes absent (R38). -/
def Runtime.move (r : Runtime) (st : NodeState) : Runtime :=
  { r with state := st, window := none, nextProbe := none, phase := none }

/-- A move from IMAGE or CONFIG into PROBE or SUSPECT makes the recorded boot count unknown (R40). -/
def Runtime.countOnDoubt (r : Runtime) : Option Byte :=
  match r.state with
  | .image | .config => none
  | _ => r.bootCount

/-- Entry to PROBE (R42). A node that leaves ONLINE has its queued pass frames returned (R72). An event other than the three that
R58 lists leads here during a gap too, for a node that a switch made FED in that gap: the model's reading of R58 (log entry
38). -/
def enterProbe (node : Nat) (s : State) : State :=
  let s1 := s.mapRuntime node (fun r =>
    { r.move .probe with misses := 0, bootCount := r.countOnDoubt, step := r.step.offer .probe })
  if s.nodeState node = .online then returnPasses [node] s1 else s1

/-- A node joins the gap set, if it is not a member (R23). -/
def joinGapSet (node : Nat) (s : State) : State :=
  s.withGap { s.gap with gapSet := addressSet (node :: s.gap.gapSet) }

def leaveGapSet (node : Nat) (s : State) : State :=
  s.withGap { s.gap with gapSet := s.gap.gapSet.filter (· != node) }

/-- Entry to SUSPECT with a phase before gap: the step is cancelled, window and next probe time go, the step miss count is
0 (R56). -/
def enterSuspect (node : Nat) (phase : NodeState) (s : State) : State :=
  s.mapRuntime node (fun r =>
    { r.move .suspect with
      phase := some phase, misses := 0, bootCount := r.countOnDoubt, step := r.step.cancel })

/-- A FED node that must enter PROBE while a gap is in progress enters SUSPECT with phase PROBE and joins the gap set;
any other enters PROBE (R58). -/
def enterProbeOrSuspect (node : Nat) (s : State) : State :=
  if s.gapInProgress && s.isFed node then
    let s1 := joinGapSet node (enterSuspect node .probe s)
    if s.nodeState node = .online then returnPasses [node] s1 else s1
  else enterProbe node s

/-- The states from which an entry to ONLINE ends a restore (R47). -/
def NodeState.endsRestore : NodeState → Bool
  | .probe | .awaitBoot | .missing | .config | .replay | .release => true
  | _ => false

/-- Entry to ONLINE (R47): counts, the restore that ends, and the notice. A step that is ORPHANED stays so until its transaction
ends (R39): the model's reading of R47's "the step condition becomes NONE" (log entry 41). -/
def enterOnline (node : Nat) (s : State) : State :=
  let s1 := s.mapRuntime node (fun r =>
    { r.move .online with
      noReply := 0
      step := r.step.cancel
      attempts := if r.state.endsRestore then 0 else r.attempts
      restores := if r.state.endsRestore then r.restores + 1 else r.restores })
  offerNodeState node .online s1

/-- Entry to REPLAY: the step miss count is 0 and a replay step becomes READY (R119). -/
def enterReplay (node : Nat) (s : State) : State :=
  s.mapRuntime node (fun r => { r.move .replay with misses := 0, step := r.step.offer .replay })

/-- Entry to RELEASE: the step miss count is 0 and a release step becomes READY (R134). -/
def enterRelease (node : Nat) (s : State) : State :=
  s.mapRuntime node (fun r => { r.move .release with misses := 0, step := r.step.offer .release })

/-- Entry to CONFIG: the step miss count is 0 and a config step becomes READY (R50). -/
def enterConfig (node : Nat) (s : State) : State :=
  s.mapRuntime node (fun r => { r.move .config with misses := 0, step := r.step.offer .config })

/-- The onward choice (R47): REPLAY with a pending slot, else RELEASE with a held frame, else ONLINE. -/
def onward (node : Nat) (s : State) : State :=
  if s.hasPending node then enterReplay node s
  else if !(s.queue node).isEmpty then enterRelease node s
  else enterOnline node s

/-- Entry to MISSING (R43, R44): a probe in flight is kept; else the next probe is due after the missing interval. -/
def enterMissing (node : Nat) (s : State) : State :=
  let due := after s.now (s.params.missingInterval * 1000)
  let s1 := s.mapRuntime node (fun r =>
    match r.step with
    | .inFlight k => { r.move .missing with step := .inFlight k }
    | c => { r.move .missing with nextProbe := some due, step := c.wait })
  offerNodeState node .missing s1

/-- Entry to AWAIT_BOOT with a window measured from `base` (R43, R57): MISSING at once where close has been reached, a
probe READY where open has, else WAITING for open. -/
def enterAwaitBoot (node : Nat) (base : Time) (s : State) : State :=
  match s.entry node with
  | none => s
  | some e =>
    let opens := after base (e.bootMin * 10)
    let closes := after base (e.bootMax * 10)
    let s1 := s.mapRuntime node (fun r =>
      let r1 := { r.move .awaitBoot with misses := 0, window := some (opens, closes) }
      if reached s.now opens then { r1 with step := r.step.offer .probe }
      else { r1 with nextProbe := some opens, step := r.step.wait })
    if reached s.now closes then enterMissing node (cancelStep node s1) else s1

/-- Entry to FAILED, in the order of R53; queued pass frames for the node are answered NODE_FAILED (R73). -/
def enterFailed (node : Nat) (s : State) : State :=
  let s1 := endSession node (cancelStep node s)
  let s2 := s1.mapRuntime node (fun r => { r.move .failed with bootCount := none, expected := none })
  offerNodeState node .failed (discardQueue node (refusePasses node .nodeFailed s2))

/-- Entry to ISOLATED, in the order of R54; queued pass frames for the node are answered NODE_ISOLATED (R73). The phase
before gap is kept. -/
def enterIsolated (node : Nat) (s : State) : State :=
  let s1 := endSession node (cancelStep node s)
  let s2 := s1.mapRuntime node (fun r =>
    { r.move .isolated with bootCount := none, expected := none, phase := r.phase })
  offerNodeState node .isolated (discardQueue node (refusePasses node .nodeIsolated s2))

/-- The first step of the state a node is in, offered once an orphan's transaction has ended (R39). -/
def offerFirstStep (node : Nat) (s : State) : State :=
  let pending := s.hasPending node
  let held := !(s.queue node).isEmpty
  s.mapRuntime node (fun r =>
    if r.step ≠ .none then r
    else
      let probe : StepCondition :=
        match r.nextProbe with
        | some t => if reached s.now t then .ready .probe else .waiting
        | none => .ready .probe
      match r.state with
      | .probe => { r with step := .ready .probe }
      | .awaitBoot =>
        match r.window with
        | some (_, closes) => if reached s.now closes then r else { r with step := probe }
        | none => r
      | .missing => { r with step := probe }
      | .config => { r with step := .ready .config }
      | .replay => if pending then { r with step := .ready .replay } else r
      | .release => if held then { r with step := .ready .release } else r
      | _ => r)

/-- What an expiry leaves a node in RELEASE to do (R131): a queue that is not empty keeps the step, with the miss count 0
when its head has gone (log entry 10); an empty one is left by the onward choice. -/
def releaseAfterExpiry (node : Nat) (headGone : Bool) (s : State) : State :=
  if s.nodeState node = .release then
    if (s.queue node).isEmpty then
      match s.runtime node with
      | some { step := .inFlight _, .. } => s
      | _ => onward node s
    else if headGone then s.mapRuntime node (fun r => { r with misses := 0 })
    else s
  else s

/-- The expiry of the entry at a place of a node's hold queue (R130). -/
def expireEntry (node place : Nat) (e : HoldEntry) (s : State) : State :=
  let s1 := s.setQueue node ((s.queue node).eraseIdx place)
  releaseAfterExpiry node (place == 0) (makeReport e .expired [] s1)

/-- What is left of an orphaned transaction when it has ended (R121, R138): the replay-in-flight record becomes absent, the
entry still queued is no longer in flight, and it expires now if its time has passed. -/
def clearInFlight (node : Nat) (s : State) : State :=
  let s1 := s.setReplayInFlight node none
  match (s1.queue node).findIdx? (·.inFlight) with
  | none => s1
  | some i =>
    let s2 := s1.setQueue node ((s1.queue node).map (fun e => { e with inFlight := false }))
    match (s2.queue node)[i]? with
    | some e => if e.expired s2.now then expireEntry node i e s2 else s2
    | none => s2

end Sys2Proof.Machine
end

