-- ==== Sys2Proof/Machine/Images.lean ====
section
/-! DEFINITION. Image transfer: the image decision, blocks and tokens, IMAGE END, attempt failures, reconciliation
(R45, R46, chapter 8). -/

namespace Sys2Proof.Machine

/-- A lookup by node kind; a DAMAGED entry counts as no entry (R146, R157). -/
def State.lookupImage (s : State) (kind : Byte) : Option (Nat × ImageEntry) :=
  match s.placeOfKind kind with
  | some i =>
    match s.place i with
    | some e => if e.image.damaged then none else some (i, e.image)
    | none => none
  | none => none

/-- The result of the image decision (R146). -/
inductive Decision where
  | config
  | image (block : Nat)
  | failed
  deriving DecidableEq, Repr

/-- The table of R146: report, catalogue entry and image policy. -/
def imageDecision (policy : ImagePolicy) (r : StatusReport) (entry : Option ImageEntry) : Decision :=
  match r.image, entry with
  | .intact, none => .config
  | .intact, some e =>
    if r.running = e.version then .config
    else match policy with
      | .follow => .image 0
      | .keep | .none => .config
  | _, none => .failed
  | st, some e =>
    match policy with
    | .none => .failed
    | .follow | .keep =>
      if st = .incomplete ∧ r.target = e.version ∧ r.resume < e.length then .image r.resume else .image 0

/-- A fresh session from block `k` (R147, R156). -/
def newSession (place : Nat) (length k : Nat) (reported : Option ImageState) : Session :=
  { entry := place, reported := reported, next := k, remaining := length - k, lastSent := .none, retries := 0
    busyCount := 0, buffer := none, request := .none, pollTime := none }

/-- Entry to IMAGE from block `k` with a catalogue entry, in the order of R147. -/
def enterImage (node k place : Nat) (e : ImageEntry) (reported : Option ImageState) (s : State) : State :=
  let s1 := s.mapRuntime node (fun r =>
    { r.move .image with session := some (newSession place e.length k reported) })
  let s2 := addReader place s1
  let s3 := s2.mapRuntime node (fun r => { r with misses := 0 })
  askBuffer node s3

/-- The attempt count goes up by 1 (R156, R157). -/
def countAttempt (node : Nat) (s : State) : State :=
  s.mapRuntime node (fun r => { r with attempts := r.attempts + 1 })

/-- The attempt count stands at or above the image attempts parameter (R156). -/
def State.attemptsSpent (s : State) (node : Nat) : Bool :=
  match s.runtime node with
  | some r => decide (s.params.imageAttempts ≤ r.attempts)
  | none => false

/-- An attempt failure inside IMAGE (R156): the transfer restarts from block 0 with the same entry, or the node enters
FAILED. -/
def attemptFailure (node : Nat) (s : State) : State :=
  let s1 := countAttempt node s
  if s1.attemptsSpent node then enterFailed node s1
  else
    match s1.session node with
    | none => s1
    | some x =>
      let length := match s1.sessionImage x with | some e => e.length | none => 0
      let s2 := releaseBuffer node s1
      let s3 := s2.mapSession node (fun _ => newSession x.entry length 0 x.reported)
      askBuffer node s3

/-- An attempt failure outside IMAGE (R157). -/
def attemptFailureOutside (node : Nat) (reported : Option ImageState) (s : State) : State :=
  let s1 := countAttempt node (s.mapRuntime node (fun r => { r with expected := none }))
  if s1.attemptsSpent node then enterFailed node s1
  else
    match (s1.entry node).bind (fun e => s1.lookupImage e.kind) with
    | some (i, e) => enterImage node 0 i e reported s1
    | none => enterFailed node s1

/-! ### Blocks, tokens and polls -/

/-- A block is stored: the session goes on (R151). -/
def blockStored (node : Nat) (s : State) : State :=
  match s.session node with
  | none => s
  | some x =>
    let s1 := s.mapSession node (fun x =>
      { x with next := x.next + 1, remaining := x.remaining - 1, retries := 0, busyCount := 0, lastSent := .none })
    if x.remaining - 1 = 0 then offerKind node .imageEnd (releaseBuffer node s1)
    else
      match s1.restore.waiting, x.buffer with
      | [], some b => startRead node b s1
      | _, _ => askBuffer node (releaseBuffer node s1)

/-- A miss or CHECK_FAIL counted against block retries (R150): `again` while the count is at most the parameter, else an
attempt failure. -/
def countRetry (node : Nat) (again : State → State) (s : State) : State :=
  match s.session node with
  | none => s
  | some x =>
    let s1 := s.mapSession node (fun x => { x with retries := x.retries + 1 })
    if x.retries + 1 ≤ s.params.blockRetries then again s1 else attemptFailure node s1

/-- The next BUSY POLL is due one interval from now (R152). -/
def schedulePoll (node : Nat) (s : State) : State :=
  let due := after s.now s.params.busyPollInterval
  s.mapRuntime node (fun r =>
    { r with step := r.step.wait, session := r.session.map (fun x => { x with pollTime := some due }) })

/-- A BUSY to a BUSY POLL: counted, then polled again or an attempt failure (R153). -/
def busyAgain (node : Nat) (s : State) : State :=
  match s.session node with
  | none => s
  | some x =>
    let s1 := s.mapSession node (fun x => { x with busyCount := x.busyCount + 1 })
    if x.busyCount + 1 < s.params.busyLimit then schedulePoll node s1 else attemptFailure node s1

/-- IMAGE END answered VERIFIED (R155). -/
def imageVerified (node : Nat) (s : State) : State :=
  match (s.session node).bind s.sessionImage with
  | none => s
  | some e =>
    let s1 := s.mapRuntime node (fun r => { r with expected := some e.version })
    enterAwaitBoot node s.now (endSession node s1)

/-- A token in answer to an IMAGE BLOCK (R150). -/
def blockToken (node : Nat) (t : Token) (s : State) : State :=
  match t with
  | .good | .verified => blockStored node s
  | .checkFail => countRetry node (offerKind node .imageBlock) s
  | .writeFail => attemptFailure node s
  | .busy => schedulePoll node s

/-- A token in answer to an IMAGE END (R154). -/
def endToken (node : Nat) (t : Token) (s : State) : State :=
  match t with
  | .verified => imageVerified node s
  | .busy => schedulePoll node s
  | .good | .checkFail | .writeFail => attemptFailure node s

/-- A token in answer to a BUSY POLL: the verdict on the frame last sent (R153). -/
def pollToken (node : Nat) (t : Token) (s : State) : State :=
  match t with
  | .busy => busyAgain node s
  | _ =>
    match s.session node with
    | some { lastSent := .imageEnd, .. } => endToken node t s
    | _ => blockToken node t s

/-- The reply's marker differs from a known recorded boot count (R49, R158). -/
def State.markerChanged (s : State) (node : Nat) (marker : Byte) : Bool :=
  match s.runtime node with
  | some { bootCount := some b, .. } => b != marker
  | _ => false

/-- A changed marker in IMAGE: the token is not used, the session ends, the node enters PROBE (R158). -/
def restartedInTransfer (node : Nat) (s : State) : State := enterProbe node (endSession node s)

/-- The result of an image step that was not orphaned (R150, R153, R154). -/
def imageResult (node : Nat) (k : StepKind) (res : Result) (s : State) : State :=
  let miss :=
    match k with
    | .busyPoll => countRetry node (schedulePoll node) s
    | _ => countRetry node (offerKind node k) s
  match res with
  | .valid r =>
    match parseToken r.payload with
    | none => miss
    | some t =>
      if s.markerChanged node r.marker then restartedInTransfer node s
      else
        match k with
        | .imageBlock => blockToken node t s
        | .imageEnd => endToken node t s
        | _ => pollToken node t s
  | .badCheck | .timeout => miss

/-! ### Probes and reconciliation -/

/-- The next probe of AWAIT_BOOT, one call interval from now; none is due at or after close (R43). -/
def nextProbeInWindow (node : Nat) (s : State) : State :=
  let due := after s.now s.params.callInterval
  s.mapRuntime node (fun r =>
    match r.window with
    | some (_, closes) =>
      { r with nextProbe := some due, step := if reached due closes then r.step.cancel else r.step.wait }
    | none => r)

/-- A miss of a probe, by the node's state (R42, R43, R44). -/
def probeMiss (node : Nat) (s : State) : State :=
  match s.runtime node with
  | none => s
  | some r =>
    match r.state with
    | .probe =>
      let s1 := s.mapRuntime node (fun r => { r with misses := r.misses + 1 })
      if r.misses + 1 ≤ s.params.stepRetries then offerKind node .probe s1 else enterAwaitBoot node s.now s1
    | .awaitBoot => nextProbeInWindow node s
    | .missing =>
      s.mapRuntime node (fun r =>
        { r with nextProbe := some (after s.now (s.params.missingInterval * 1000)), step := r.step.wait })
    | _ => s

/-- Reconciliation with an unchanged count (R45). -/
def reconcileKept (node : Nat) (r : Runtime) (s : State) : State :=
  match r.expected with
  | none => onward node s
  | some _ =>
    match r.state with
    | .awaitBoot => nextProbeInWindow node s
    | .probe => enterAwaitBoot node s.now s
    | .missing => attemptFailureOutside node none s
    | _ => s

/-- Step 6 of R46: the image decision and what it enters. -/
def decideImage (node : Nat) (e : NodeEntry) (rep : StatusReport) (s : State) : State :=
  let found := s.lookupImage rep.kind
  match imageDecision e.policy rep (found.map (·.2)) with
  | .config => enterConfig node s
  | .failed => enterFailed node s
  | .image k =>
    match found with
    | some (i, img) => enterImage node k i img (some rep.image) s
    | none => enterFailed node s

/-- Reconciliation with a changed or unknown count, in the order of R46. -/
def reconcileChanged (node : Nat) (r : Runtime) (marker : Byte) (rep : StatusReport) (s : State) : State :=
  let s1 := s.mapRuntime node (fun r =>
    { r with
      bootCount := some marker
      noReply := 0
      attempts := if r.expected = none then 0 else r.attempts })
  let s2 := renewShadow node s1
  match s2.entry node with
  | none => s2
  | some e =>
    if rep.kind ≠ e.kind then enterFailed node s2
    else
      match r.expected with
      | some v =>
        if rep.image = .intact ∧ rep.running = v then
          enterConfig node (s2.mapRuntime node (fun r => { r with expected := none }))
        else attemptFailureOutside node (some rep.image) s2
      | none => decideImage node e rep s2

/-- A valid STATUS REPORT ends a probe that is not orphaned (section 3.5). -/
def reconcile (node : Nat) (marker : Byte) (rep : StatusReport) (s : State) : State :=
  match s.runtime node with
  | none => s
  | some r =>
    match r.state with
    | .probe | .awaitBoot | .missing =>
      if r.bootCount = some marker then reconcileKept node r s else reconcileChanged node r marker rep s
    | _ => s

/-- The result of a probe that was not orphaned. -/
def probeResult (node : Nat) (res : Result) (s : State) : State :=
  match res with
  | .valid r =>
    match parseStatus r.payload with
    | some rep => reconcile node r.marker rep s
    | none => probeMiss node s
  | .badCheck | .timeout => probeMiss node s

end Sys2Proof.Machine
end

