-- ==== Sys2Proof/Machine/Results.lean ====
section
/-! DEFINITION. The end of a transaction: what its result does to a pass entry or to a node's restore step (R67 to R71,
R48 to R52, R120, R121, R136 to R138). -/

namespace Sys2Proof.Machine

/-! ### Config, replay and release steps -/

/-- A miss of a config or replay step: again up to step retries, else PROBE (R50, R121). -/
def stepMiss (node : Nat) (again : State → State) (s : State) : State :=
  match s.runtime node with
  | none => s
  | some r =>
    let s1 := s.mapRuntime node (fun r => { r with misses := r.misses + 1 })
    if r.misses + 1 ≤ s.params.stepRetries then again s1 else enterProbe node s1

/-- The result of a config step (R50); a changed marker goes before it (R49). -/
def configResult (node : Nat) (res : Result) (s : State) : State :=
  match res with
  | .valid r =>
    if s.markerChanged node r.marker then enterProbe node s
    else
      match r.kind with
      | .accept => onward node s
      | _ => enterFailed node s
  | .badCheck | .timeout => stepMiss node (offerKind node .config) s

/-- A replay step goes on while a slot is pending, else the node leaves by the onward choice (R120, R122). -/
def replayOn (node : Nat) (s : State) : State :=
  if s.hasPending node then offerKind node .replay s else onward node s

/-- A valid reply clears the pending mark of the slot in flight, unless the slot was replaced (R120). -/
def clearReplayed (node : Nat) (s : State) : State :=
  match s.replayInFlight node with
  | some f =>
    match s.slot f.slot with
    | some r => if f.replaced then s else s.setSlot f.slot (some { r with marked := false })
    | none => s
  | none => s

/-- The result of a replay step (R120, R121). -/
def replayResult (node : Nat) (res : Result) (s : State) : State :=
  match res with
  | .valid r =>
    let s1 := (clearReplayed node s).setReplayInFlight node none
    let s2 := s1.mapRuntime node (fun x =>
      { x with misses := 0, refusals := if r.kind = .refuse then x.refusals + 1 else x.refusals })
    if s2.markerChanged node r.marker then enterProbe node s2 else replayOn node s2
  | .badCheck | .timeout => stepMiss node (replayOn node) (s.setReplayInFlight node none)

/-- ACCEPT and ANSWER say that the node took the frame; only then is it captured at delivery (R69, R113, R136). -/
def ReplyKind.taken : ReplyKind → Bool
  | .accept | .answer => true
  | .refuse | .statusReport | .blockToken => false

/-- A frame delivered by a release step is captured where its entry names a slot and the reply is ACCEPT or ANSWER
(R136, step 2). -/
def captureReleased (node : Nat) (e : HoldEntry) (k : ReplyKind) (s : State) : State :=
  match e.slot with
  | some r =>
    if k.taken then
      captureDelivered node r
        { rule := e.rule, policy := e.policy, kind := e.kind, function := e.function, payload := e.payload } s
    else s
  | none => s

/-- The result of a release step (R136, R137): the entry in flight is the head of the queue. -/
def releaseResult (node : Nat) (res : Result) (s : State) : State :=
  match s.queue node with
  | [] => s
  | e :: rest =>
    match res with
    | .valid r =>
      let s1 := makeReport e .delivered (replyBytes r) s
      let s2 := captureReleased node e r.kind s1
      let s3 := (s2.setQueue node rest).mapRuntime node (fun x => { x with misses := 0 })
      if s3.markerChanged node r.marker then enterProbe node s3
      else if !rest.isEmpty then offerKind node .release s3
      else onward node s3
    | .badCheck | .timeout =>
      match s.runtime node with
      | none => s
      | some x =>
        let s1 := s.mapRuntime node (fun r => { r with misses := r.misses + 1 })
        if x.misses + 1 ≤ s.params.passRetries then
          offerKind node .release (s1.setQueue node ({ e with inFlight := false } :: rest))
        else enterProbe node ((makeReport e .noReply [] s1).setQueue node rest)

/-- The result of a restore step that was not orphaned goes to the rule of its kind (R67). -/
def applyStep (node : Nat) (k : StepKind) (res : Result) (s : State) : State :=
  match k with
  | .probe => probeResult node res s
  | .config => configResult node res s
  | .replay => replayResult node res s
  | .release => releaseResult node res s
  | .imageBlock | .imageEnd | .busyPoll => imageResult node k res s

/-- The end of a node's restore transaction (R39, R67): an orphan's result is discarded and the node's state offers its
first step; the address may have lost its record meanwhile (R59). -/
def stepEnded (node : Nat) (res : Result) (s : State) : State :=
  match s.runtime node with
  | none => clearInFlight node s
  | some r =>
    let s1 := s.mapRuntime node (fun r => { r with step := .none })
    match r.step with
    | .inFlight k => applyStep node k res s1
    | _ => offerFirstStep node (clearInFlight node s1)

/-! ### Pass entries -/

/-- The node's no-reply count after a final NO_REPLY, and the lost threshold (R48). -/
def countNoReply (node : Nat) (s : State) : State :=
  match s.runtime node with
  | none => s
  | some r =>
    if r.state = .online then
      let s1 := s.mapRuntime node (fun r => { r with noReply := r.noReply + 1 })
      if s.params.lostThreshold ≤ r.noReply + 1 then enterProbe node s1 else s1
    else s

/-- R49 for a pass reply: only while the node is ONLINE, CONFIG, REPLAY or RELEASE. -/
def checkPassMarker (node : Nat) (marker : Byte) (s : State) : State :=
  match s.nodeState node with
  | .online | .config | .replay | .release => if s.markerChanged node marker then enterProbe node s else s
  | _ => s

/-- A pass transaction ends with a valid reply, in the order of R69. -/
def passDone (t : Transaction) (e : PassEntry) (r : Reply) (s : State) : State :=
  let node := e.destination
  let s1 := answerPass e .done (replyBytes r) s
  match s1.runtime node with
  | none => s1
  | some _ =>
    let s2 : State :=
      match e.action.slot with
      | some slot =>
        if t.destinationKept && r.kind.taken then captureDelivered node slot e.captured s1
        else s1
      | none => s1
    let s3 := s2.mapRuntime node (fun x => if x.state = .online then { x with noReply := 0 } else x)
    checkPassMarker node r.marker s3

/-- The entry goes back to the head of its own sub-queue (R70). -/
def reenter (e : PassEntry) (s : State) : State :=
  match e.action.urgency with
  | .urgent => s.withSegment { s.segment with urgent := e :: s.segment.urgent }
  | .normal => s.withSegment { s.segment with normal := e :: s.segment.normal }

/-- A final outcome NO_REPLY or NO_REPLY_GAP: the answer, then the node's counters (R70). -/
def passLost (e : PassEntry) (c : AnswerCode) (s : State) : State :=
  let s1 := answerPass e c [] s
  let s2 := s1.mapRuntime e.destination (fun r => { r with passNoReplies := r.passNoReplies + 1 })
  if c = .noReply then countNoReply e.destination s2 else s2

/-- A pass transaction to a unicast destination ends with a miss (R70). That the state at this moment alone decides, also for a
node that left ONLINE and came back while the entry was in flight, is the model's reading of R70 (log entry 39). -/
def passMiss (e : PassEntry) (s : State) : State :=
  let e1 := { e with misses := e.misses + 1 }
  match s.nodeState e.destination with
  | .unconfigured | .online =>
    if e1.misses ≤ s.params.passRetries then reenter e1 s else passLost e1 .noReply s
  | .suspect => passLost e1 .noReplyGap s
  | _ => passLost e1 .noReply s

/-- The end of a pass transaction that expected a reply (R69, R70). -/
def passEnded (t : Transaction) (e : PassEntry) (res : Result) (s : State) : State :=
  match res with
  | .valid r => passDone t e r s
  | .badCheck | .timeout => passMiss e s

/-- One live member of a broadcast when its last character has been sent (R71, R114). -/
def broadcastMember (e : PassEntry) (node : Nat) (s : State) : State :=
  match s.nodeState node with
  | .online =>
    match e.action.slot with
    | some r => (capture node r e.captured false s).1
    | none => s
  | st => if st.isAbsent then absentTreatment e node s else s

/-- The end of a broadcast's transaction (R71): DONE, then the live members in ascending address order. -/
def broadcastEnded (e : PassEntry) (s : State) : State :=
  forNodes (addressSet e.live) (broadcastMember e) (answerPass e .done [] s)

/-- A transaction ends with a result (R66, R67): the record is empty, a bad check raises SEGMENT_CHECK, and the result is
handed on. That the flag and its notice come before the result's own reports and notices is the model's choice (log entry
36). -/
def transactionEnded (t : Transaction) (res : Result) (line : Line) (s : State) : State :=
  let s1 := s.withSegment { s.segment with line := line }
  let s2 := if res = .badCheck then raiseFlag .segmentCheck s1 else s1
  match t.carries with
  | .pass e => passEnded t e res s2
  | .step node => stepEnded node res s2

end Sys2Proof.Machine
end

