-- ==== Sys2Proof/Machine/Classify.lean ====
section
/-! DEFINITION. The Classifier: matching, the verdict, the disposition by the target's state, broadcasts (chapter 5). -/

namespace Sys2Proof.Machine

/-! ### Matching (R88, R89, R97) -/

/-- A payload selector matches (R89): the payload has the byte, and its bits under the mask equal the value's. -/
def Selector.matchesPayload (q : Selector) (payload : List Byte) : Bool :=
  match payload[q.index]? with
  | some b => (b &&& q.mask) == (q.value &&& q.mask)
  | none => false

/-- The segment kind is a member of the rule's kind set (R88). -/
def Rule.takesKind (r : Rule) : RequestKind → Bool
  | .command => r.onCommand
  | .query => r.onQuery
  | .broadcast => r.onBroadcast

/-- The address set test (R88): unicast by membership, broadcast by a set with a member; ANY passes. -/
def Rule.takesDestination (t : Tables) (r : Rule) (q : SegmentRequest) : Bool :=
  match r.set with
  | none => true
  | some i => if q.kind = .broadcast then !(t.set i).isEmpty else (t.set i).contains q.destination

/-- A request matches a present rule when it passes all four tests (R88). -/
def Rule.takes (t : Tables) (r : Rule) (q : SegmentRequest) : Bool :=
  r.takesDestination t q && r.takesKind q.kind && decide (r.low.toNat ≤ q.function.toNat)
    && decide (q.function.toNat ≤ r.high.toNat)
    && (match r.selector with | some x => x.matchesPayload q.payload | none => true)

/-- The index of the first present rule that the request matches (R97). -/
def Tables.firstMatch (t : Tables) (q : SegmentRequest) : Option Nat :=
  (List.range 48).find? (fun i => match t.rule i with | some r => r.takes t q | none => false)

/-- A matched rule: its reference, its address set and its action (R97). -/
structure Matched where
  ref : RuleRef
  set : Option Nat
  action : Action
  deriving DecidableEq, Repr

/-- The matched rule, or the default rule, which takes every request (R92, R97). -/
def Tables.matched (t : Tables) (q : SegmentRequest) : Matched :=
  match t.firstMatch q with
  | some i =>
    match t.rule i with
    | some r => { ref := .rule i, set := r.set, action := r.action }
    | none => { ref := .defaultRule, set := none, action := t.defaultAction }
  | none => { ref := .defaultRule, set := none, action := t.defaultAction }

/-- One matched request in a rule's counters (R97). -/
def RuleCounters.count (c : RuleCounters) (payload : Nat) : RuleCounters :=
  { frames := c.frames + 1, bytes := c.bytes + BitVec.ofNat 32 payload }

/-- The matched rule's counters go up (R97). -/
def countMatch (ref : RuleRef) (payload : Nat) (s : State) : State :=
  match ref with
  | .defaultRule =>
    s.withCounters { s.counters with defaultRule := s.counters.defaultRule.count payload }
  | .rule i =>
    match s.counters.rules[i]? with
    | some c => s.withCounters { s.counters with rules := s.counters.rules.setIfInBounds i (c.count payload) }
    | none => s

/-! ### Disposition -/

/-- The pass entry a request makes (R99). -/
def newPassEntry (q : SegmentRequest) (m : Matched) (reservation : Nat) (live : List Nat) : PassEntry :=
  { tag := q.tag, destination := q.destination, kind := q.kind, function := q.function, payload := q.payload
    rule := m.ref, action := m.action.part, live := live, misses := 0, reservation := reservation }

/-- A pass entry joins the tail of the sub-queue its urgency names (R68, R99). -/
def appendPass (e : PassEntry) (s : State) : State :=
  match e.action.urgency with
  | .urgent => s.withSegment { s.segment with urgent := s.segment.urgent ++ [e] }
  | .normal => s.withSegment { s.segment with normal := s.segment.normal ++ [e] }

/-- To the pass queue, or QUEUE_FULL (R99). -/
def disposePass (e : PassEntry) (s : State) : State :=
  if s.passLength < 32 then appendPass e s else answerPass e .queueFull [] s

/-- To the hold queue: HELD or HOLD_FULL (R100). -/
def disposeHold (e : PassEntry) (s : State) : State :=
  let r := appendHold e.destination (e.held (some e.tag)) s
  answerPass e (if r.2 then .held else .holdFull) [] r.1

/-- To the shadow: STORED, or HOLD_FULL on a miss (R101). -/
def disposeLatest (e : PassEntry) (s : State) : State :=
  let r := captureLatest e.destination e.action.slot e.captured s
  answerPass e (if r.2 then .stored else .holdFull) [] r.1

/-- The disposition of a FORWARDed unicast request by its destination's state (R98). -/
def disposeUnicast (e : PassEntry) (s : State) : State :=
  match s.nodeState e.destination with
  | .unconfigured | .online => disposePass e s
  | .failed => answerPass e .nodeFailed [] s
  | .isolated => answerPass e .nodeIsolated [] s
  | .release =>
    match e.action.absent with
    | .latest => disposeLatest e s
    | .queue | .refuse => disposeHold e s
  | .suspect | .probe | .awaitBoot | .missing | .image | .config | .replay =>
    match e.action.absent with
    | .queue => disposeHold e s
    | .latest => disposeLatest e s
    | .refuse => answerPass e s.refuseCode [] s

/-- The disposition of a FORWARDed broadcast (R103): QUEUE_FULL, or absent members are treated now, ONLINE members are the
entry's live members, and the entry is queued. -/
def disposeBroadcast (e : PassEntry) (set : Option Nat) (s : State) : State :=
  if s.passLength < 32 then
    let members := addressSet (s.tables.members set)
    let live := members.filter (fun a => s.nodeState a == .online)
    let away := members.filter (fun a => (s.nodeState a).isAbsent)
    appendPass { e with live := live } (forNodes away (absentTreatment e) s)
  else answerPass e .queueFull [] s

/-- The classification of a valid request (R97). -/
def classifyRequest (q : SegmentRequest) (reservation : Nat) (s : State) : State :=
  let m := s.tables.matched q
  let s1 := countMatch m.ref q.payload.length s
  let e := newPassEntry q m reservation []
  match m.action.verdict with
  | .discard => answerPass e .filtered [] s1
  | .forward => if q.kind = .broadcast then disposeBroadcast e m.set s1 else disposeUnicast e s1

/-- SEGMENT_REQUEST: the Classifier takes the head of ingress when it is a SEGMENT REQUEST and an egress entry can be
reserved (R94, R96). -/
def segmentRequest (s : State) : Option State :=
  match s.takeHead with
  | some (f, i, s1) =>
    if f.kind = segmentRequestKind then
      match parseSegmentRequest f with
      | some q => some (classifyRequest q i s1)
      | none => some (s1.enqueue i (segmentAnswer f.tag .malformed []))
    else none
  | none => none

/-! ### The commands -/

def execSegmentRequest (s : State) : Host.Outcome State Fault Refusal := happens (segmentRequest s) s

end Sys2Proof.Machine
end

