-- ==== Sys2Proof/Machine/Store.lean ====
section
/-! DEFINITION. The Image Store and the Table Store: the directory, allocation, loading operations, and the ends of store
accesses (chapter 9, R190, R161). -/

namespace Sys2Proof.Machine

/-! ### Extents and allocation (R167, R168) -/

/-- The extent of a catalogue image. -/
def ImageEntry.extent (e : ImageEntry) : Extent := { first := e.first, length := e.length }

def StagedImage.extent (x : StagedImage) : Extent := { first := x.first, length := x.length }

/-- An extent goes into a list kept in order of first block. -/
def insertExtent (e : Extent) : List Extent → List Extent
  | [] => [e]
  | x :: rest => if e.first ≤ x.first then e :: x :: rest else x :: insertExtent e rest

/-- The extents in use, in order of first block (R167): catalogue entries, the staged image, the retained extent, and the
entry whose IMAGE DROP has not yet been written (R178). -/
def State.extents (s : State) : List Extent :=
  let entries := (List.range 12).filterMap (fun i => (s.place i).map (·.image.extent))
  let staged := (s.store.staged.map StagedImage.extent).toList
  let dropping := match s.store.progress with | some (.dropping _ e) => [e.extent] | _ => []
  (entries ++ staged ++ s.store.retained.toList ++ dropping).foldl (fun l e => insertExtent e l) []

/-- The first free run of at least `length` blocks, walking from block `at` over extents in order, up to N (R168). -/
def firstFit (length n : Nat) : Nat → List Extent → Option Nat
  | start, [] => if start + length ≤ n then some start else none
  | start, e :: rest =>
    if start + length ≤ e.first then some start else firstFit length n (max start (e.first + e.length)) rest

/-! ### Directory writes (R166, R171) -/

/-- A place's bytes for the directory record: the entry's fields in the order of R166. -/
def imageEntryBytes : Option ImageEntry → List Byte
  | some e => [1, e.kind] ++ le16 e.version ++ le16n e.length ++ le32 e.check ++ le16n e.first ++ [flagByte e.damaged]
  | none => [0]

/-- The Fletcher-32 of a directory copy's contents (R16, R171). Its byte layout is a free value (log entry 6). -/
def directoryCheck (sequence : Word32) (places : Vector (Option ImageEntry) 12) : Word32 :=
  fletcher32 (Config.directoryRecord sequence (places.toList.map imageEntryBytes))

/-- The working catalogue as a stored copy holds it: readers counts apart (R166, R171). -/
def State.directoryPlaces (s : State) : Vector (Option ImageEntry) 12 :=
  Vector.ofFn (fun i => (s.store.catalogue[i]).map (·.image))

def ImageStore.copy (m : ImageStore) : CopyPlace → Option DirectoryCopy
  | .copy0 => m.copy0
  | .copy1 => m.copy1

/-- The stored copy that the next directory write goes to: the other than the one with the latest successful write; copy 0
when there is none (R171). -/
def ImageStore.target (m : ImageStore) : CopyPlace :=
  match m.latest with
  | some .copy0 => .copy1
  | some .copy1 => .copy0
  | none => .copy0

/-- The sequence number of the next directory write (R171). -/
def ImageStore.nextSequence (m : ImageStore) : Word32 :=
  match m.latest.bind m.copy with
  | some c => c.sequence + 1
  | none => 1

def ImageStore.setCopy (m : ImageStore) (p : CopyPlace) (c : Option DirectoryCopy) : ImageStore :=
  match p with
  | .copy0 => { m with copy0 := c }
  | .copy1 => { m with copy1 := c }

/-- A directory write ends (R171): it saves the directory and frees the retained extent, or raises STORE_WRITE_ERROR, leaves
the copy invalid and the directory unsaved. -/
def directoryWritten (writeError : Bool) (s : State) : State :=
  let m := s.store
  if writeError then
    raiseFlag .storeWriteError (s.withStore { m.setCopy m.target none with saved := false })
  else
    let places := s.directoryPlaces
    let c : DirectoryCopy :=
      { sequence := m.nextSequence, places := places, check := directoryCheck m.nextSequence places }
    s.withStore { m.setCopy m.target (some c) with latest := some m.target, saved := true, retained := none }

/-! ### Starting operations (R172 to R178, R190) -/

/-- The staged image of an IMAGE OPEN that passes its tests, with its answer data (R173). -/
def openStaged (kind : Byte) (version : Word16) (length : Nat) (check : Word32) (s : State) : State :=
  match firstFit length s.blockCount 0 s.extents with
  | none => finishOperation .noSpace [] s
  | some first =>
    let standing :=
      match (s.placeOfKind kind).bind s.place with
      | some e => [1] ++ le16 e.image.version ++ [flagByte e.image.damaged]
      | none => [0, 0, 0, 0]
    finishOperation .done (le16n first ++ le16n length ++ standing)
      (s.withStore
        { s.store with
          staged :=
            some { kind := kind, version := version, length := length, check := check, first := first, written := [] } })

/-- The catalogue holds 12 entries and none of the kind (R173, test 3). -/
def State.catalogueFull (s : State) (kind : Byte) : Bool :=
  (List.range 12).all (fun i => (s.place i).isSome) && (s.placeOfKind kind).isNone

/-- IMAGE OPEN at its start (R173). -/
def startOpen (kind : Byte) (version : Word16) (length : Nat) (check : Word32) (s : State) : State :=
  if s.store.staged.isSome then finishOperation .busy [] s
  else if length = 0 ∨ length > 4096 then finishOperation .invalid [] s
  else if s.catalogueFull kind then finishOperation .noSpace [] s
  else if s.store.saved then openStaged kind version length check s
  else setProgress .opening s

/-- IMAGE BLOCK at its start (R174). -/
def startBlock (index : Nat) (data : List Byte) (s : State) : State :=
  match s.store.staged with
  | some x =>
    if x.length ≤ index then finishOperation .invalid [] s
    else setProgress (.programming index (x.first + index) data) s
  | none => finishOperation .invalid [] s

/-- The lowest block index not in the written-block set (R175). -/
def StagedImage.firstMissing (x : StagedImage) : Nat :=
  ((List.range x.length).find? (fun i => !x.written.contains i)).getD 0

/-- IMAGE CLOSE at its start (R175). -/
def startClose (s : State) : State :=
  match s.store.staged with
  | none => finishOperation .invalid [] s
  | some x =>
    if x.remaining > 0 then finishOperation .incomplete (le16n x.firstMissing ++ le16n x.remaining) s
    else setProgress (.checking x 0 (0, 0)) s

/-- IMAGE DISCARD at its start (R177). -/
def startDiscard (s : State) : State :=
  match s.store.staged with
  | none => finishOperation .invalid [] s
  | some _ => finishOperation .done [] (s.withStore { s.store with staged := none })

/-- IMAGE DROP at its start (R178). -/
def startDrop (kind : Byte) (s : State) : State :=
  match s.placeOfKind kind with
  | none => finishOperation .invalid [] s
  | some i =>
    match s.place i with
    | none => finishOperation .invalid [] s
    | some e =>
      if e.readers > 0 then finishOperation .inUse [u8 e.readers] s
      else setProgress (.dropping i e.image) (s.setPlace i none)

/-- The start of a loading request: the mode is read again (R172). That a request which waited through a switch to SERVICE does its
work when the mode is DEPOT again at its start is the model's choice, its reading of R177's last case (log entry 43). -/
def startLoading (go : State → State) (s : State) : State :=
  match s.responder.mode with
  | .service => finishOperation .mode [] s
  | .depot => go s

/-- What an operation does when it starts (R172 to R178, R190). -/
def beginOperation (k : OperationKind) (s : State) : State :=
  match k with
  | .imageOpen kind version length check => startLoading (startOpen kind version length check) s
  | .imageBlock index data => startLoading (startBlock index data) s
  | .imageClose => startLoading startClose s
  | .imageDiscard => startLoading startDiscard s
  | .imageDrop kind => startLoading (startDrop kind) s
  | .tableWrite => setProgress (.tableWriting s.tables) s
  | .markWrite => setProgress .marking s

/-- OPERATION_START: the operation at the head starts when the arbiter would choose it: no access in progress and no read
waiting (R169). -/
def operationStart (s : State) : Option State :=
  match s.store.operations, s.store.access, s.store.reads, s.store.progress with
  | o :: _, none, [], none => some (chooseAccess (beginOperation o.kind s))
  | _, _, _, _ => none

/-! ### The end of an operation's access -/

/-- An index goes into the written-block set, kept ascending and without duplicates. -/
def insertIndex (i : Nat) : List Nat → List Nat
  | [] => [i]
  | j :: rest => if i < j then i :: j :: rest else if i = j then j :: rest else j :: insertIndex i rest

/-- The staged image after the program of a block ended, with the answer (R174). A staged image that the switch discarded
meanwhile leaves the answer MODE (R177). -/
def programEnded (writeError : Bool) (index : Nat) (s : State) : State :=
  if s.store.cut then finishOperation .mode [] s
  else
    match s.store.staged with
    | none => finishOperation .mode [] s
    | some x =>
      let y := { x with written := if writeError then x.written.filter (· != index) else insertIndex index x.written }
      finishOperation (if writeError then .storeFault else .done) (le16n index ++ le16n y.remaining)
        (s.withStore { s.store with staged := some y })

/-- BLOCK_PROGRAM_END (R174): a program that ends without error gives the block its content; one that ends with a write error
leaves the content that the last good program gave it. -/
def blockProgramEnd (writeError : Bool) (s : State) : Option State :=
  match s.store.access, s.store.progress with
  | some .operation, some (.programming index block data) =>
    let s1 := endAccess s
    let s2 := if writeError then raiseFlag .storeWriteError s1 else s1.writeStoreBlock block (programmedBlock data)
    some (chooseAccess (programEnded writeError index s2))
  | _, _ => none

/-- The commit (R176): the staged image becomes the entry of its kind, the old extent is retained, and the directory write
follows. -/
def commit (x : StagedImage) (place : Nat) (old : Option CatalogueEntry) (s : State) : State :=
  let image : ImageEntry :=
    { kind := x.kind, version := x.version, length := x.length, check := x.check, first := x.first, damaged := false }
  let s1 := s.setPlace place (some { image := image, readers := 0 })
  let retained := match old with | some e => some e.image.extent | none => s1.store.retained
  setProgress (.committing place x.first) (s1.withStore { s1.store with staged := none, retained := retained })

/-- The lowest empty catalogue place (R166). -/
def State.emptyPlace (s : State) : Option Nat := (List.range 12).find? (fun i => (s.place i).isNone)

/-- The check-read of an IMAGE CLOSE has ended with a match: the readers test and the commit (R176). -/
def closeMatched (x : StagedImage) (s : State) : State :=
  match s.placeOfKind x.kind with
  | some i =>
    match s.place i with
    | some e => if e.readers > 0 then finishOperation .inUse [u8 e.readers] s else commit x i (some e) s
    | none => commit x i none s
  | none =>
    match s.emptyPlace with
    | some i => commit x i none s
    | none => finishOperation .noSpace [] s

/-- A check-read access ends with a read error (R175). -/
def checkReadFailed (x : StagedImage) (index : Nat) (s : State) : State :=
  let y := { x with written := x.written.filter (· != index) }
  finishOperation .storeFault (le16n index) (s.withStore { s.store with staged := some y })

/-- A check-read access ends without error: the next block, or the verdict after the last (R175). -/
def checkReadGood (x : StagedImage) (index : Nat) (sums : Nat × Nat) (b : StoreBlock) (s : State) : State :=
  let sums1 := fletcher32From sums b.data
  if index + 1 < x.length then setProgress (.checking x (index + 1) sums1) s
  else if check32 sums1 = x.check then closeMatched x s
  else finishOperation .checkFail (le32 (check32 sums1)) s

/-- CHECK_READ_END (R175). A check-read that the switch met stops here with the answer MODE (R177). -/
def checkReadEnd (arrayFails : Bool) (s : State) : Option State :=
  match s.store.access, s.store.progress with
  | some .operation, some (.checking x index sums) =>
    let s1 := endAccess s
    let b := readBlock s1.store.blocks (x.first + index)
    let bad := arrayFails || !b.checkGood
    let s2 := if bad then raiseFlag .storeReadError s1 else s1
    let s3 :=
      if s2.store.cut then finishOperation .mode [] s2
      else if bad then checkReadFailed x index s2
      else checkReadGood x index sums b s2
    some (chooseAccess s3)
  | _, _ => none

/-- The operation whose directory write has ended (R173, R176, R178, R170). -/
def directoryWriteAnswered (writeError : Bool) (p : Progress) (s : State) : State :=
  match p with
  | .opening =>
    if writeError then finishOperation .storeFault [] s
    else if s.store.cut then finishOperation .mode [] s
    else
      match s.store.operations with
      | { kind := .imageOpen kind version length check, .. } :: _ => openStaged kind version length check s
      | _ => finishOperation .mode [] s
  | .committing place first =>
    if writeError then finishOperation .storeFault [] s
    else finishOperation .done ([u8 place] ++ le16n first) s
  | .dropping place e =>
    if writeError then finishOperation .storeFault [] (s.setPlace place (some { image := e, readers := 0 }))
    else finishOperation .done (le16 e.version ++ [flagByte e.damaged]) s
  | _ => finishOperation .done [] s

/-- The progress of an operation whose access is a directory write (R165). -/
def Progress.writesDirectory : Progress → Bool
  | .opening | .committing _ _ | .dropping _ _ | .marking => true
  | .programming _ _ _ | .checking _ _ _ | .tableWriting _ => false

/-- DIRECTORY_WRITE_END (R171). -/
def directoryWriteEnd (writeError : Bool) (s : State) : Option State :=
  match s.store.access, s.store.progress with
  | some .operation, some p =>
    if p.writesDirectory then
      some (chooseAccess (directoryWriteAnswered writeError p (directoryWritten writeError (endAccess s))))
    else none
  | _, _ => none

/-- The pieces of the table record, in the order R190 lists them. -/
def tablePieces (t : Tables) : List (List Byte) :=
  addresses.flatMap (fun a => [nodeRecord (t.node a), match t.node a with | some e => e.config | none => []])
    ++ (List.range 48).map (fun i => ruleRecord (t.rule i))
    ++ [actionBytes t.defaultAction]
    ++ (List.range 8).map (fun i => (t.set i).map u8)
    ++ [paramsRecord t.params]

/-- The Fletcher-32 of the stored table record (R16, R190). Its byte layout is a free value (log entry 6). -/
def tableCheck (t : Tables) : Word32 := fletcher32 (Config.tableRecord (tablePieces t))

/-- TABLE_WRITE_END (R190). -/
def tableWriteEnd (writeError : Bool) (s : State) : Option State :=
  match s.store.access, s.store.progress with
  | some .operation, some (.tableWriting t) =>
    let s1 := endAccess s
    some (chooseAccess
      (if writeError then finishOperation .storeFault [] (raiseFlag .storeWriteError (s1.withStored none))
       else finishOperation .done (le32 (tableCheck t)) (s1.withStored (some { tables := t, check := tableCheck t }))))
  | _, _ => none

/-! ### The end of a session read (R149, R161, R170) -/

/-- The catalogue place whose extent holds a store block (R170). -/
def State.placeOfBlock (s : State) (block : Nat) : Option Nat :=
  (List.range 12).find? (fun i =>
    match s.place i with
    | some e => decide (e.image.first ≤ block ∧ block < e.image.first + e.image.length)
    | none => false)

def markDamaged (place : Nat) (s : State) : State :=
  match s.place place with
  | some e => s.setPlace place (some { e with image := { e.image with damaged := true } })
  | none => s

/-- A session ended by a read error: the node leaves IMAGE by the session's reported image state (R161). -/
def leaveDamaged (place node : Nat) (s : State) : State :=
  match s.session node with
  | some x =>
    if x.entry = place then
      match x.reported with
      | some .intact => enterConfig node (endSession node s)
      | _ => enterFailed node s
    else s
  | none => s

/-- A buffer whose read has ended without a session to take it falls FREE (R149). -/
def drainBuffer (b : Nat) (s : State) : State :=
  match s.restore.buffers[b]? with
  | some .draining => freeBuffer b s
  | _ => s

/-- Steps 1 to 3 of R170: STORE_READ_ERROR, DAMAGED on the entry whose extent holds the block, a mark write asked for. -/
def reportReadError (block : Nat) (s : State) : State :=
  let s1 := raiseFlag .storeReadError s
  match s1.placeOfBlock block with
  | some i => requestMarkWrite (markDamaged i s1)
  | none => requestMarkWrite s1

/-- Step 4 of R170 (R161): the sessions of the entry that a session of `node` reads end, in ascending address order. -/
def endDamaged (node : Nat) (s : State) : State :=
  match s.session node with
  | some x => forNodes addresses (leaveDamaged x.entry) s
  | none => s

/-- A read error (R170). A live session's read makes steps 1 to 4. A read whose session has ended makes steps 1 to 3 only, and
its buffer falls FREE (R149, R163, R170); that it ends no session of the entry is the model's reading of R161 (log entry
35). -/
def readFailed (r : ReadRequest) (s : State) : State :=
  let s1 := reportReadError r.block s
  match s1.restore.buffers[r.buffer]? with
  | some (.reading node) => endDamaged node s1
  | _ => drainBuffer r.buffer s1

/-- A good read fills the session's buffer and makes its block step READY, or is discarded (R149). -/
def readGood (r : ReadRequest) (data : List Byte) (s : State) : State :=
  match s.restore.buffers[r.buffer]? with
  | some (.reading node) =>
    let s1 := s.setBuffer r.buffer (.filled node data)
    offerKind node .imageBlock (s1.mapSession node (fun x => { x with request := .filled }))
  | _ => drainBuffer r.buffer s

/-- A check-read that the switch met, paused under the read that ends now: it stops with the answer MODE (R177). -/
def stopCutClose (s : State) : State :=
  match s.store.progress with
  | some (.checking _ _ _) => if s.store.cut then finishOperation .mode [] s else s
  | _ => s

/-- STORE_READ_END (R149, R170). -/
def storeReadEnd (arrayFails : Bool) (s : State) : Option State :=
  match s.store.access with
  | some (.read r) =>
    let s1 := stopCutClose (endAccess s)
    let b := readBlock s1.store.blocks r.block
    some (chooseAccess (if arrayFails || !b.checkGood then readFailed r s1 else readGood r b.data s1))
  | _ => none

/-- The store block of the access in progress, where it reads or programs the block array (R165). -/
def State.accessBlock (s : State) : Option Nat :=
  match s.store.access, s.store.progress with
  | some (.read r), _ => some r.block
  | some .operation, some (.programming _ block _) => some block
  | some .operation, some (.checking x index _) => some (x.first + index)
  | _, _ => none

/-- An end of a store access for a block the strapped store does not have faults (R165: blocks 0..N − 1). -/
def withinStore (go : State → Option State) (s : State) : Host.Outcome State Fault Refusal :=
  match go s, s.accessBlock with
  | none, _ => noEvent s
  | some t, none => took t
  | some t, some b => if b < s.blockCount then took t else .fault .noSuchStoreBlock

/-! ### The commands -/

def execOperationStart (s : State) : Host.Outcome State Fault Refusal := happens (operationStart s) s
def execBlockProgramEnd (writeError : Bool) (s : State) : Host.Outcome State Fault Refusal :=
  withinStore (blockProgramEnd writeError) s
def execCheckReadEnd (arrayFails : Bool) (s : State) : Host.Outcome State Fault Refusal :=
  withinStore (checkReadEnd arrayFails) s
def execDirectoryWriteEnd (writeError : Bool) (s : State) : Host.Outcome State Fault Refusal :=
  withinStore (directoryWriteEnd writeError) s
def execTableWriteEnd (writeError : Bool) (s : State) : Host.Outcome State Fault Refusal :=
  withinStore (tableWriteEnd writeError) s
def execStoreReadEnd (arrayFails : Bool) (s : State) : Host.Outcome State Fault Refusal :=
  withinStore (storeReadEnd arrayFails) s

end Sys2Proof.Machine
end

