-- ==== Sys2Proof/Machine/Gap.lean ====
section
/-! DEFINITION. The Gap Monitor: edges and debounce, recharge and classification, and what a gap's two ends do to node
states (chapter 2, section 3.10). -/

namespace Sys2Proof.Machine

/-! ### Reserves -/

/-- The origin was set during the START_PENDING that ends now (R25, first case): the model's test is that it lies between the
pending edge and now, modulo 2^32 (log entry 26). -/
def setWhilePending (origin start now : Time) : Bool := decide ((origin - start).toNat ≤ (now - start).toNat)

/-- The supply interval of a node at gap start (R25). -/
def supplyInterval (r : Reserve) (start now : Time) : Nat :=
  if !r.aged && setWhilePending r.origin start now then 0
  else if r.aged then 65535
  else saturatedDiff start r.origin

/-- The recharged estimate: the smaller of H and E + floor(s × H / C) (R25). -/
def recharged (e : NodeEntry) (r : Reserve) (interval : Nat) : Nat :=
  min e.holdup (r.estimate + interval * e.holdup / e.recharge)

/-- The recharge of one member at gap start; its origin becomes the start time (R24, R25). -/
def rechargeNode (start : Time) (node : Nat) (s : State) : State :=
  match s.reserve node, s.entry node with
  | some r, some e =>
    s.setReserve node
      (some { estimate := recharged e r (supplyInterval r start s.now), origin := start, aged := false })
  | _, _ => s

/-- The class of a member from x = E − d against the margin m: the first test that holds (R28). -/
def classify (x m : Int) : GapClass := if m ≤ x then .survived else if x ≤ -m then .lost else .uncertain

/-- x = E − d as a signed number (R28). -/
def gapX (estimate d : Nat) : Int := (estimate : Int) - (d : Int)

/-- The class of a member of the gap set at gap end (R28). -/
def State.classOf (s : State) (d node : Nat) : GapClass :=
  classify (gapX (match s.reserve node with | some r => r.estimate | none => 0) d) s.params.gapMargin

/-- The estimate after classification (R29). -/
def estimateAfter (c : GapClass) (x : Int) : Nat :=
  match c with
  | .survived | .uncertain => (max 0 x).toNat
  | .lost => 0

/-- A member's estimate is replaced (R29). -/
def settleReserve (d : Nat) (node : Nat) (s : State) : State :=
  match s.reserve node with
  | some r => s.setReserve node (some { r with estimate := estimateAfter (s.classOf d node) (gapX r.estimate d) })
  | none => s

/-- A configured node's recharge origin is set, and the aged mark cleared (R24). -/
def setOrigin (t : Time) (node : Nat) (s : State) : State :=
  match s.reserve node with
  | some r => s.setReserve node (some { r with origin := t, aged := false })
  | none => s

/-! ### Gap start -/

/-- Members in these states enter SUSPECT at gap start (R56). -/
def State.entersSuspect (s : State) (node : Nat) : Bool :=
  match s.nodeState node with
  | .online | .probe | .awaitBoot | .missing | .image | .config | .replay | .release => true
  | _ => false

/-- A member enters SUSPECT with its state as the phase before gap; a session ends (R56, R160). -/
def suspendMember (node : Nat) (s : State) : State :=
  enterSuspect node (s.nodeState node) (endSession node (cancelStep node s))

/-- The gap start event, in the order of R26: the gap set, the recharge, the node states and returned pass frames, the
notice. The condition has become IN_GAP (R19). That the members enter SUSPECT, and their sessions end, one after another in
ascending address order is the model's choice (log entry 37). -/
def confirmGapStart (start : Time) (s : State) : State :=
  let members := addresses.filter s.isFed
  let s1 := s.withGap { s.gap with condition := .inGap start, aged := false, gapSet := members }
  let s2 := forNodes members (rechargeNode start) s1
  let leaving := members.filter s2.entersSuspect
  let s3 := returnPasses leaving (forNodes leaving suspendMember s2)
  offerGap 0 start 0 0 0 0 s3

/-! ### Gap end -/

/-- A member's counter at gap end (R38, R57). -/
def countClass (c : GapClass) (r : Runtime) : Runtime :=
  match c with
  | .survived => { r with survived := r.survived + 1 }
  | .lost => { r with lost := r.lost + 1 }
  | .uncertain => r

/-- What gap end does to one member, by its state, its class and its phase before gap (R57). -/
def memberAtGapEnd (edge : Time) (node : Nat) (c : GapClass) (s : State) : State :=
  let s1 := s.mapRuntime node (countClass c)
  match s1.runtime node with
  | none => s1
  | some r =>
    match r.state, c with
    | .suspect, .survived => if r.phase = some .online then onward node s1 else enterProbe node s1
    | .suspect, .uncertain => enterProbe node s1
    | .suspect, .lost => enterAwaitBoot node edge s1
    | .failed, .lost => enterAwaitBoot node edge (s1.mapRuntime node (fun r => { r with attempts := 0 }))
    | _, _ => s1

/-- The duration of a gap (R27). -/
def State.gapDuration (s : State) (start edge : Time) : Nat :=
  if s.gap.aged then 65535 else saturatedDiff edge start

/-- The members of each class, counted (R31). -/
def countClasses (classes : List (Nat × GapClass)) (c : GapClass) : Nat := (classes.filter (fun p => p.2 == c)).length

/-- The gap end event, in the order of R30: d, classes and estimates, origins, node states, the notice; then the gap set is
emptied. The condition has become SUPPLIED (R20). -/
def confirmGapEnd (start edge : Time) (s : State) : State :=
  let d := s.gapDuration start edge
  let classes := s.gap.gapSet.map (fun a => (a, s.classOf d a))
  let s1 := s.withGap { s.gap with condition := .supplied, lastD := d }
  let s2 := forNodes s.gap.gapSet (settleReserve d) s1
  let s3 := forNodes addresses (setOrigin edge) s2
  let s4 := classes.foldl (fun t p => memberAtGapEnd edge p.1 p.2 t) s3
  let s5 := offerGap 1 edge d (countClasses classes .survived) (countClasses classes .uncertain)
    (countClasses classes .lost) s4
  s5.withGap { s5.gap with gapSet := [] }

/-! ### Edges, expiries and timers -/

/-- The last sample reads supply absent, by the GAPPOL strap (R18). -/
def State.supplyAbsent (s : State) : Bool := s.gap.gapHigh == s.straps.gapPol

def State.setCondition (s : State) (c : GapCondition) : State := s.withGap { s.gap with condition := c }

/-- The pending expiry of an edge taken now (R19). -/
def State.expiryOfEdge (s : State) : Time := after s.now s.params.debounce

/-- GAP_EDGE_ABSENT: a sample of supply absent after one of supply present (R18, R19). With debounce 0 the expiry is taken at
once. -/
def gapEdgeAbsent (s : State) : Option State :=
  if s.supplyAbsent then none
  else
    let s1 := s.withGap { s.gap with gapHigh := !s.gap.gapHigh }
    match s1.gap.condition with
    | .supplied =>
      if s1.params.debounce = 0 then some (confirmGapStart s1.now s1)
      else some (s1.setCondition (.startPending s1.now s1.expiryOfEdge))
    | .endPending start _ _ => some (raiseFlag .glitch (s1.setCondition (.inGap start)))
    | _ => some s1

/-- GAP_EDGE_PRESENT: a sample of supply present after one of supply absent (R18, R20). -/
def gapEdgePresent (s : State) : Option State :=
  if s.supplyAbsent then
    let s1 := s.withGap { s.gap with gapHigh := !s.gap.gapHigh }
    match s1.gap.condition with
    | .inGap start =>
      if s1.params.debounce = 0 then some (confirmGapEnd start s1.now s1)
      else some (s1.setCondition (.endPending start s1.now s1.expiryOfEdge))
    | .startPending _ _ => some (raiseFlag .glitch (s1.setCondition .supplied))
    | _ => some s1
  else none

/-- GAP_START: the debounce expiry in START_PENDING (R19). -/
def gapStart (s : State) : Option State :=
  match s.gap.condition with
  | .startPending edge expiry => if reached s.now expiry then some (confirmGapStart edge s) else none
  | _ => none

/-- GAP_END: the debounce expiry in END_PENDING (R20). -/
def gapEnd (s : State) : Option State :=
  match s.gap.condition with
  | .endPending start edge expiry => if reached s.now expiry then some (confirmGapEnd start edge s) else none
  | _ => none

/-- The start time of a gap in progress (R22). -/
def GapCondition.start : GapCondition → Option Time
  | .inGap start | .endPending start _ _ => some start
  | .supplied | .startPending _ _ => none

/-- GAP_AGED_EXPIRY: the clock reaches start time + 65535 during the gap (R22). -/
def gapAgedExpiry (s : State) : Option State :=
  match s.gap.condition.start with
  | some start =>
    if reached s.now (after start 65535) ∧ s.gap.aged = false then some (s.withGap { s.gap with aged := true }) else none
  | none => none

/-- ORIGIN_AGED_EXPIRY: the clock reaches a node's recharge origin + 65535 (R24). -/
def originAgedExpiry (node : Nat) (s : State) : Option State :=
  match s.reserve node with
  | some r =>
    if reached s.now (after r.origin 65535) ∧ r.aged = false then some (s.setReserve node (some { r with aged := true }))
    else none
  | none => none

/-! ### The commands -/

def execGapEdgeAbsent (s : State) : Host.Outcome State Fault Refusal := happens (gapEdgeAbsent s) s
def execGapEdgePresent (s : State) : Host.Outcome State Fault Refusal := happens (gapEdgePresent s) s
def execGapStart (s : State) : Host.Outcome State Fault Refusal := happens (gapStart s) s
def execGapEnd (s : State) : Host.Outcome State Fault Refusal := happens (gapEnd s) s
def execGapAgedExpiry (s : State) : Host.Outcome State Fault Refusal := happens (gapAgedExpiry s) s
def execOriginAgedExpiry (node : Nat) (s : State) : Host.Outcome State Fault Refusal :=
  happens (originAgedExpiry node s) s

end Sys2Proof.Machine
end

