-- ==== Sys2Proof/Machine/Segment.lean ====
section
/-! DEFINITION. The Segment Master: the frames of restore steps, the arbiter, the line condition (chapter 4), and the
engine restart (R61, R83, R140, R163, R195). -/

namespace Sys2Proof.Machine

/-! ### The frame of a restore step, built when its transaction starts (R39) -/

/-- The head of a release step as a frame: a broadcast copy goes as a COMMAND (R134). -/
def releaseFrame (node : Nat) (e : HoldEntry) : SegmentFrame :=
  { destination := node, kind := (match e.kind with | .query => .query | .command | .broadcast => .command)
    function := e.function, marker := 2, payload := e.payload }

/-- A replay step's frame: always a COMMAND, marker 1 (R2, R119). -/
def replayFrame (node : Nat) (r : ShadowRecord) : SegmentFrame :=
  { destination := node, kind := .command, function := r.function, marker := 1, payload := r.payload }

/-- The data a session's FILLED buffer holds (R149). -/
def State.blockData (s : State) (node : Nat) (x : Session) : Option (List Byte) :=
  match x.buffer with
  | some b =>
    match s.restore.buffers[b]? with
    | some (.filled n data) => if n = node then some data else none
    | _ => none
  | none => none

/-- The frame of a step of the given kind, from the node's records as they stand (R39, R50, R119, R134, R149, R154). -/
def State.stepFrame (s : State) (node : Nat) (k : StepKind) : Option SegmentFrame :=
  match k with
  | .probe => some (plainStepFrame node .statusQuery [])
  | .busyPoll => some (plainStepFrame node .busyPoll [])
  | .config =>
    (s.entry node).map (fun e => plainStepFrame node .config (identityBytes s.responder.identity ++ e.config))
  | .imageBlock =>
    match s.session node with
    | some x => (s.blockData node x).map (fun d => plainStepFrame node .imageBlock (le16n x.next ++ d))
    | none => none
  | .imageEnd =>
    ((s.session node).bind s.sessionImage).map (fun e => plainStepFrame node .imageEnd (imageEndPayload e))
  | .replay =>
    match s.pendingSlots node with
    | i :: _ => (s.slot i).map (replayFrame node)
    | [] => none
  | .release => (s.queue node).head?.map (releaseFrame node)

/-! ### The arbiter (section 4.5) -/

/-- The release step's head needs an egress reservation: it is tagged and holds none (R135). -/
def State.needsReservation (s : State) (node : Nat) : Bool :=
  match s.queue node with
  | e :: _ => e.tag.isSome && e.reservation.isNone
  | [] => false

/-- A node's restore step as a candidate: READY, and for a tagged release head one egress entry can be reserved (R76). -/
def State.candidate (s : State) (node : Nat) : Option (StepKind × SegmentFrame) :=
  match s.runtime node with
  | some { step := .ready k, .. } =>
    if k = .release ∧ s.needsReservation node ∧ s.freeEntry = none then none
    else (s.stepFrame node k).map (fun f => (k, f))
  | _ => none

/-- The round-robin order: after the pointer up to 30, then 1 up to the pointer (R79). -/
def searchOrder (last : Nat) : List Nat := List.range' (last + 1) (30 - last) ++ List.range' 1 last

/-- The round-robin choice in one class (R79). -/
def State.chooseStep (s : State) (c : NodeClass) (last : Nat) : Option Nat :=
  (searchOrder last).find? (fun a => s.isClass a c && (s.candidate a).isSome)

/-- What an arbiter decision starts. -/
inductive Pick where
  | urgent (e : PassEntry) (rest : List PassEntry)
  | normal (e : PassEntry) (rest : List PassEntry)
  | step (node : Nat)
  | nothing
  deriving DecidableEq, Repr

/-- Items 3 to 5 of R78. -/
def State.pickBelowUrgent (s : State) : Pick :=
  match s.chooseStep .entrance s.segment.lastEntrance with
  | some a => .step a
  | none =>
    match s.segment.normal with
    | e :: rest => .normal e rest
    | [] =>
      match s.chooseStep .info s.segment.lastInfo with
      | some a => .step a
      | none => .nothing

/-- The arbiter's order (R78). -/
def State.pick (s : State) : Pick :=
  match s.segment.urgent with
  | e :: rest => .urgent e rest
  | [] =>
    match s.segment.normal with
    | e :: rest =>
      if s.params.restoreRunLimit ≤ s.segment.runCount then .normal e rest else s.pickBelowUrgent
    | [] => s.pickBelowUrgent

/-- A frame goes on the wire: SENDING (R64). -/
def sendFrame (c : Carrier) (f : SegmentFrame) (kept : Bool) (s : State) : State :=
  s.withSegment
    { s.segment with
      line :=
        .sending { carries := c, destination := f.destination, kind := f.kind, timeout := none, destinationKept := kept }
          f.wire }

/-- The transaction of a pass entry starts (R64). -/
def startPass (e : PassEntry) (s : State) : State :=
  sendFrame (.pass e) (passFrame e) (s.runtime e.destination).isSome s

/-- The reservation of a tagged release head without one, granted at the start (R135). -/
def reserveRelease (node : Nat) (s : State) : State :=
  if s.needsReservation node then
    match s.queue node, s.freeEntry with
    | e :: rest, some i =>
      (s.setEgress i .reserved).setQueue node ({ e with reservation := some i } :: rest)
    | _, _ => s
  else s

/-- What the start of a step's transaction writes besides the line (R119, R134, R149, R154). -/
def beginStep (node : Nat) (k : StepKind) (s : State) : State :=
  match k with
  | .probe | .config | .busyPoll => s
  | .imageBlock => s.mapSession node (fun x => { x with lastSent := .block, busyCount := 0 })
  | .imageEnd => s.mapSession node (fun x => { x with lastSent := .imageEnd, busyCount := 0 })
  | .replay =>
    match s.pendingSlots node with
    | i :: _ => s.setReplayInFlight node (some { slot := i, replaced := false })
    | [] => s
  | .release =>
    let s1 := reserveRelease node s
    match s1.queue node with
    | e :: rest => s1.setQueue node ({ e with inFlight := true } :: rest)
    | [] => s1

/-- The pointer and the run count at the start of a restore step (R79, R80). -/
def countStep (node : Nat) (s : State) : State :=
  let g := s.segment
  let g1 := if g.normal.isEmpty then g else { g with runCount := min 16 (g.runCount + 1) }
  s.withSegment (if s.isClass node .entrance then { g1 with lastEntrance := node } else { g1 with lastInfo := node })

/-- The transaction of a node's READY step starts (R64, R76). -/
def startStep (node : Nat) (s : State) : State :=
  match s.candidate node with
  | none => s
  | some (k, f) =>
    let s1 := countStep node (beginStep node k s)
    let s2 := s1.mapRuntime node (fun r => { r with step := .inFlight k })
    sendFrame (.step node) f true s2

/-- What a decision starts (R78, R80). -/
def startPicked (p : Pick) (s : State) : Option State :=
  match p with
  | .urgent e rest => some (startPass e (s.withSegment { s.segment with urgent := rest }))
  | .normal e rest => some (startPass e (s.withSegment { s.segment with normal := rest, runCount := 0 }))
  | .step a => some (startStep a s)
  | .nothing => none

/-- TRANSACTION_START: one arbiter decision with the line FREE and no restart pending (R77). -/
def transactionStart (s : State) : Option State :=
  if s.segment.line = .free ∧ s.segment.restartPending = false then startPicked s.pick s else none

/-! ### The line condition (section 4.1) -/

def State.setLine (s : State) (l : Line) : State := s.withSegment { s.segment with line := l }

/-- SEGMENT_FRAME_SENT: a broadcast ends; any other frame enters AWAITING with the reply timeout fixed (R64, R65, R71). -/
def segmentFrameSent (s : State) : Option State :=
  match s.segment.line with
  | .sending t _ =>
    match t.carries, t.kind with
    | .pass e, .broadcast => some (broadcastEnded e (s.setLine .free))
    | _, _ => some (s.setLine (.awaiting { t with timeout := some s.params.replyTimeout }))
  | _ => none

/-- REPLY_START: an A5h while AWAITING; in any other condition the character is discarded (R5, R65). -/
def replyStart (s : State) : Option State :=
  match s.segment.line with
  | .awaiting t => some (s.setLine (.collecting t))
  | _ => none

/-- REPLY_TIMEOUT (R65). -/
def replyTimeout (s : State) : Option State :=
  match s.segment.line with
  | .awaiting t => some (transactionEnded t .timeout .free s)
  | _ => none

/-- REPLY_RECEIVED: a complete reply is judged (R6, R66). -/
def replyReceived (chars : List Byte) (s : State) : Option State :=
  match s.segment.line with
  | .collecting t =>
    match collectReply chars with
    | some r => some (transactionEnded t (judgeReply t.kind t.destination r) .free s)
    | none => none
  | _ => none

/-- A reply cut short: bad check, then SETTLING for one reply timeout (R5, R66). -/
def replyCutShort (s : State) : Option State :=
  match s.segment.line with
  | .collecting t => some (transactionEnded t .badCheck (.settling (t.timeout.getD 0)) s)
  | _ => none

/-- REPLY_LENGTH_ABOVE_64 (R5). -/
def replyTooLong (length : Byte) (s : State) : Option State := if length.toNat > 64 then replyCutShort s else none

/-- SETTLING_END (R66). -/
def settlingEnd (s : State) : Option State :=
  match s.segment.line with
  | .settling _ => some (s.setLine .free)
  | _ => none

/-! ### Engine restart -/

/-- The Segment Master's part: every queued entry is answered RESTARTED, urgent first (R83). -/
def restartPasses (s : State) : State :=
  let s1 := (s.segment.urgent ++ s.segment.normal).foldl (fun t e => answerPass e .restarted [] t) s
  s1.withSegment
    { s1.segment with
      urgent := [], normal := [], runCount := 0, lastEntrance := 0, lastInfo := 0, restartPending := false }

/-- The Restore Engine's part for one node (R61, R163). -/
def restartNode (node : Nat) (s : State) : State :=
  match s.nodeState node with
  | .unconfigured | .isolated => s
  | _ => enterProbeOrSuspect node (endSession node (cancelStep node s))

/-- The waiting list becomes empty at one instant with the end of every session, so that no buffer which a session gives up
is granted, and the store's lists stay as they are (R163, R179). -/
def clearWaiting (s : State) : State := s.withRestore { s.restore with waiting := [] }

/-- ENGINE_RESTART_EFFECT: with a restart pending and no transaction in flight (R195). -/
def engineRestartEffect (s : State) : Option State :=
  if s.segment.restartPending ∧ s.transaction = none then
    some (forNodes addresses discardQueue (forNodes addresses restartNode (clearWaiting (restartPasses s))))
  else none

/-! ### The commands -/

def execTransactionStart (s : State) : Host.Outcome State Fault Refusal := happens (transactionStart s) s
def execSegmentFrameSent (s : State) : Host.Outcome State Fault Refusal := happens (segmentFrameSent s) s
def execReplyStart (s : State) : Host.Outcome State Fault Refusal := happens (replyStart s) s
def execReplyTimeout (s : State) : Host.Outcome State Fault Refusal := happens (replyTimeout s) s
def execReplyReceived (chars : List Byte) (s : State) : Host.Outcome State Fault Refusal :=
  happens (replyReceived chars s) s
def execReplyCharacterGap (s : State) : Host.Outcome State Fault Refusal := happens (replyCutShort s) s
def execReplyLengthAbove64 (length : Byte) (s : State) : Host.Outcome State Fault Refusal :=
  happens (replyTooLong length s) s
def execSettlingEnd (s : State) : Host.Outcome State Fault Refusal := happens (settlingEnd s) s
def execEngineRestartEffect (s : State) : Host.Outcome State Fault Refusal := happens (engineRestartEffect s) s

end Sys2Proof.Machine
end

