-- ==== Sys2Proof/Machine/Switch.lean ====
section
/-! DEFINITION. The table switch to SERVICE: each block's part, in the order of R189. -/

namespace Sys2Proof.Machine

/-! ### Gap Monitor (R24, R33) -/

/-- One address in the Gap Monitor's part: a reserve record made, dropped or lowered. -/
def switchReserve (old new : Tables) (node : Nat) (s : State) : State :=
  match old.node node, new.node node with
  | none, some _ => s.setReserve node (some { estimate := 0, origin := s.now, aged := false })
  | some _, none => leaveGapSet node (s.setReserve node none)
  | some _, some e =>
    match s.reserve node with
    | some r => s.setReserve node (some { r with estimate := min r.estimate e.holdup })
    | none => s
  | none, none => s

/-! ### Restore Engine (R59) -/

/-- A new runtime record (R59, R60): its step is ORPHANED while a transaction of the address's former record is in flight. -/
def freshRuntime (orphan : Bool) : Runtime :=
  { state := .probe, bootCount := none, noReply := 0, attempts := 0, expected := none, phase := none, window := none
    nextProbe := none, step := if orphan then .orphaned else .none, misses := 0, session := none, restores := 0
    survived := 0, lost := 0, refusals := 0, passNoReplies := 0 }

/-- The transaction in flight carries a restore step of this address. -/
def State.carriesStep (s : State) (node : Nat) : Bool :=
  match s.transaction with
  | some { carries := .step n, .. } => n == node
  | _ => false

/-- A newly configured address enters PROBE, or SUSPECT with phase PROBE (R58, R59). Its queued pass frames are returned in
the Segment Master's part. -/
def addNode (node : Nat) (s : State) : State :=
  let s1 := s.setRuntime node (some (freshRuntime (s.carriesStep node)))
  if s1.gapInProgress && s1.isFed node then joinGapSet node (enterSuspect node .probe s1)
  else enterProbe node s1

/-- A removed node: its step is cancelled, its session ends, its runtime record is dropped (R59). -/
def removeNode (node : Nat) (s : State) : State := (endSession node (cancelStep node s)).setRuntime node none

def switchRuntime (old new : Tables) (node : Nat) (s : State) : State :=
  match old.node node, new.node node with
  | none, some _ => addNode node s
  | some _, none => removeNode node s
  | _, _ => s

/-! ### Segment Master (R72, R74, R84) -/

/-- The transaction in flight was started before its destination was newly configured or removed (R69, step 2). -/
def forgetDestination (node : Nat) (s : State) : State :=
  let mark := fun t : Transaction => if t.destination = node then { t with destinationKept := false } else t
  match s.segment.line with
  | .sending t w => s.setLine (.sending (mark t) w)
  | .awaiting t => s.setLine (.awaiting (mark t))
  | .collecting t => s.setLine (.collecting (mark t))
  | _ => s

def switchPasses (old new : Tables) (node : Nat) (s : State) : State :=
  match old.node node, new.node node with
  | none, some _ => returnPasses [node] (forgetDestination node s)
  | some _, none => dropLive node (forgetDestination node s)
  | _, _ => s

/-! ### Classifier (R107) -/

/-- The counters after a switch: 0 for each rule entry, and for the default rule, that differs. -/
def switchCounters (old new : Tables) (c : ClassifierCounters) : ClassifierCounters :=
  { rules := (List.range 48).foldl
      (fun v i => if old.rule i = new.rule i then v else v.setIfInBounds i { frames := 0, bytes := 0 }) c.rules
    defaultRule := if old.defaultAction = new.defaultAction then c.defaultRule else { frames := 0, bytes := 0 } }

/-! ### Shadow Store (R122, R123) -/

/-- A node in REPLAY left with nothing pending: it leaves at once by the onward choice, unless its step is in flight
(R122; for an ORPHANED step, log entry 11). -/
def replayAfterSwitch (node : Nat) (s : State) : State :=
  match s.runtime node with
  | some { state := .replay, step := .inFlight _, .. } => s
  | some { state := .replay, .. } => if s.hasPending node then s else onward node (cancelStep node s)
  | _ => s

/-- One address in the Shadow Store's part (R123). That a node left with nothing pending leaves REPLAY here, before the Hold Pool's
part, is the model's choice (log entry 40). -/
def switchShadow (old new : Tables) (node : Nat) (s : State) : State :=
  match old.node node, new.node node with
  | some a, none => clearShadow node a s
  | some a, some b =>
    if a.shadowBase = b.shadowBase ∧ a.shadowCount = b.shadowCount then s
    else replayAfterSwitch node (clearShadow node a s)
  | none, _ => s

/-! ### Hold Pool (R140, R141) -/

/-- A trim that reaches the head of a node in RELEASE: a step in flight is orphaned and the node leaves by the onward
choice (R141). -/
def releaseAfterTrim (node : Nat) (s : State) : State :=
  if s.nodeState node = .release ∧ (s.queue node).isEmpty then onward node (cancelStep node s) else s

def switchHold (old new : Tables) (node : Nat) (s : State) : State :=
  match old.node node, new.node node with
  | some _, none => discardQueue node s
  | some _, some b =>
    if b.holdCap < (s.queue node).length then releaseAfterTrim node (trimQueue node b.holdCap s) else s
  | none, _ => s

/-! ### Image Store (R177) -/

/-- The staged image is discarded, and a started IMAGE OPEN, IMAGE BLOCK or check-reading IMAGE CLOSE is met by the switch;
later phases are past the staged image. A check-read paused under a session read ends at that read's end. -/
def switchStore (s : State) : State :=
  let cut :=
    match s.store.progress with
    | some .opening | some (.programming _ _ _) | some (.checking _ _ _) => true
    | _ => s.store.cut
  s.withStore { s.store with staged := none, cut := cut }

/-! ### The switch -/

/-- The edit copy becomes the active tables and the mode becomes SERVICE; the blocks apply their parts in the order of R189,
each over the addresses in ascending order. -/
def tableSwitch (s : State) : State :=
  let old := s.tables
  let new := s.responder.edit
  let s1 := (s.withTables new).withResponder { s.responder with mode := .service }
  let s2 := forNodes addresses (switchReserve old new) s1
  let s3 := forNodes addresses (switchRuntime old new) s2
  let s4 := forNodes addresses (switchPasses old new) s3
  let s5 := s4.withCounters (switchCounters old new s4.counters)
  let s6 := forNodes addresses (switchShadow old new) s5
  let s7 := forNodes addresses (switchHold old new) s6
  switchStore s7

end Sys2Proof.Machine
end

