-- ==== Sys2Proof/Machine/Manage.lean ====
section
/-! DEFINITION. The Management Responder: the take and the judgement of a request, and each request's own rule
(sections 10.2 to 10.9; R37, R54, R55, R62, R87, R91 to R93, R106, R124). -/

namespace Sys2Proof.Machine

/-! ### The take (R94, R183) -/

/-- The two requests that are answered BUSY while an engine restart is pending (R183, case 4). -/
def busyInRestart : RequestCode → Bool
  | .isolateNode | .restoreNode => true
  | _ => false

/-- The judgement of a request of a known code, in the order of R183; `act` is the request's own rule. -/
def judgeRequest (k : RequestCode) (act : Request → State → State) (ref : RequestRef) (outcome : Byte)
    (args : List Byte) (s : State) : State :=
  if outcome ≠ 0 ∨ argumentsFit k args = false then answerRequest ref .malformed [] s
  else if depotOnly k = true ∧ s.responder.mode = .service then answerRequest ref .mode [] s
  else if busyInRestart k = true ∧ s.segment.restartPending = true then answerRequest ref .busy [] s
  else act { ref := ref, args := args } s

/-- The take of the head frame of ingress, when it is a MANAGEMENT REQUEST of code `k` and an egress entry can be reserved
(R94, R183). -/
def takeRequest (k : RequestCode) (act : Request → State → State) (s : State) : Option State :=
  match s.takeHead with
  | some (f, i, s1) =>
    match f.body with
    | c :: args =>
      if f.kind = managementRequestKind ∧ c = k.code then
        some (judgeRequest k act { tag := f.tag, reservation := i, code := c } f.outcome args s1)
      else none
    | [] => none
  | none => none

/-- An answer DONE with its data. -/
def done (q : Request) (data : List Byte) (s : State) : State := answerRequest q.ref .done data s

/-- An answer INVALID: the request code and no data. -/
def invalid (q : Request) (s : State) : State := answerRequest q.ref .invalid [] s

/-- The one-byte argument at an offset, as a number. -/
def Request.arg (q : Request) (i : Nat) : Nat := (byteAt q.args i).toNat

/-! ### Frames without a known request (R11, R12, R182) -/

/-- UNKNOWN_REQUEST: the take of a MANAGEMENT REQUEST that spells no known request. An empty body, and an outcome other
than 0, are MALFORMED; otherwise the answer is UNKNOWN_REQUEST with the code as its body. -/
def unknownRequest (s : State) : Option State :=
  match s.takeHead with
  | some (f, i, s1) =>
    if f.kind = managementRequestKind then
      match f.body with
      | [] => some (s1.enqueue i (managementAnswer f.tag .malformed []))
      | c :: _ =>
        if (RequestCode.ofCode c).isSome then none
        else
          some (answerRequest { tag := f.tag, reservation := i, code := c }
            (if f.outcome = 0 then .unknownRequest else .malformed) [] s1)
    else none
  | none => none

/-- NON_REQUEST_FRAME: the take of a frame of another kind, answered MALFORMED with an empty body. -/
def nonRequestFrame (s : State) : Option State :=
  match s.takeHead with
  | some (f, i, s1) =>
    if f.kind = managementRequestKind ∨ f.kind = segmentRequestKind then none
    else some (s1.enqueue i (managementAnswer f.tag .malformed []))
  | none => none

/-! ### Status and counters -/

/-- The number of addresses 1..30 in the state of a code (R184). -/
def State.nodesIn (s : State) (code : Nat) : Nat := (addresses.filter (fun a => (s.nodeState a).code == code)).length

/-- READ STATUS's 40 bytes (R184). -/
def State.statusBytes (s : State) : List Byte :=
  [s.responder.mode.code] ++ le16 (s.responder.flags.setWidth 16)
    ++ [u8 (16 - s.trunk.ingress.length), u8 s.egressFree, u8 s.passLength, u8 s.holdFree]
    ++ (List.range 12).map (fun n => u8 (s.nodesIn n))
    ++ [flagByte s.gapInProgress] ++ le16n s.gap.lastD
    ++ [flagByte s.segment.restartPending, flagByte s.storeBusy]
    ++ le32 s.now ++ le32 s.trunk.reportLost ++ le32 s.shadow.missCount ++ le32 s.trunk.ingressDrop

def actReadStatus (q : Request) (s : State) : State := done q s.statusBytes s

/-- A boot window as READ NODE shows it: open and close, 4 bytes each, both 0 when absent (R62). -/
def windowBytes : Option (Time × Time) → List Byte
  | some (opens, closes) => le32 opens ++ le32 closes
  | none => List.replicate 8 0

/-- READ NODE's data (R62). For an unconfigured address every runtime field reads 0 and the boot count FFFFh. -/
def State.nodeBytes (s : State) (a : Nat) : List Byte :=
  [u8 a] ++ nodeRecord (s.entry a)
    ++ (match s.runtime a with
        | some r =>
          [u8 r.state.code]
            ++ (match r.bootCount with | some b => [b, 0] | none => [0xFF, 0xFF])
            ++ [u8 r.noReply, u8 r.attempts]
            ++ [match r.phase with | some p => u8 p.code | none => 0xFF]
            ++ le16n (match s.reserve a with | some e => e.estimate | none => 0)
            ++ windowBytes r.window
            ++ (match r.expected with | some v => 1 :: le16 v | none => [0, 0, 0])
            ++ [u8 (s.queue a).length, u8 (s.pendingSlots a).length]
        | none => [0, 0xFF, 0xFF] ++ List.replicate 18 0)

def actReadNode (q : Request) (s : State) : State :=
  if isAddress (q.arg 0) then done q (s.nodeBytes (q.arg 0)) s else invalid q s

/-- The node's five counters in the order of R62. -/
def counterBytes : Option Runtime → List Byte
  | some r => le32 r.restores ++ le32 r.survived ++ le32 r.lost ++ le32 r.refusals ++ le32 r.passNoReplies
  | none => List.replicate 20 0

/-- A rule's two counters (R106). -/
def RuleCounters.bytesOf (c : RuleCounters) : List Byte := le32 c.frames ++ le32 c.bytes

/-- The counters of a rule index, FFh for the default rule; `none` is no rule (R106). -/
def State.ruleCounters (s : State) (i : Nat) : Option RuleCounters :=
  if i = 255 then some s.counters.defaultRule else s.counters.rules[i]?

/-- READ COUNTERS: subject global (R185), node (R62) or rule (R106). -/
def actReadCounters (q : Request) (s : State) : State :=
  let i := q.arg 1
  match q.arg 0 with
  | 0 =>
    if i = 0 then done q (le32 s.trunk.reportLost ++ le32 s.shadow.missCount ++ le32 s.trunk.ingressDrop) s
    else invalid q s
  | 1 => if isAddress i then done q (counterBytes (s.runtime i)) s else invalid q s
  | 2 =>
    match s.ruleCounters i with
    | some c => done q c.bytesOf s
    | none => invalid q s
  | _ => invalid q s

/-- The three global counters are set to 0 (R185). -/
def clearGlobalCounters (s : State) : State :=
  (s.withTrunk { s.trunk with reportLost := 0, ingressDrop := 0 }).withShadow { s.shadow with missCount := 0 }

/-- A node's five counters are set to 0 (R62). -/
def clearNodeCounters (r : Runtime) : Runtime :=
  { r with restores := 0, survived := 0, lost := 0, refusals := 0, passNoReplies := 0 }

/-- Both counters of a rule are set to 0 (R106). -/
def clearRuleCounters (i : Nat) (s : State) : State :=
  if i = 255 then s.withCounters { s.counters with defaultRule := { frames := 0, bytes := 0 } }
  else s.withCounters { s.counters with rules := s.counters.rules.setIfInBounds i { frames := 0, bytes := 0 } }

/-- CLEAR COUNTERS: subject global (R185), node (R62) or rule (R106). -/
def actClearCounters (q : Request) (s : State) : State :=
  let i := q.arg 1
  match q.arg 0 with
  | 0 => if i = 0 then done q [] (clearGlobalCounters s) else invalid q s
  | 1 => if isAddress i then done q [] (s.mapRuntime i clearNodeCounters) else invalid q s
  | 2 => if i = 255 ∨ i < 48 then done q [] (clearRuleCounters i s) else invalid q s
  | _ => invalid q s

/-! ### Reads of the tables, the shadow and the identity -/

/-- READ RULE (R93). -/
def actReadRule (q : Request) (s : State) : State :=
  let i := q.arg 0
  if i = 255 then done q (byteAt q.args 0 :: defaultRuleRecord s.tables.defaultAction) s
  else if i < 48 then done q (byteAt q.args 0 :: ruleRecord (s.tables.rule i)) s
  else invalid q s

/-- A set as READ SET and WRITE SET answer it: index, member count, members in ascending order (R87). -/
def setBytes (i : Nat) (members : List Nat) : List Byte :=
  [u8 i, u8 (addressSet members).length] ++ (addressSet members).map u8

/-- READ SET (R87). -/
def actReadSet (q : Request) (s : State) : State :=
  if q.arg 0 < 8 then done q (setBytes (q.arg 0) (s.tables.set (q.arg 0))) s else invalid q s

/-- The owner of a pool slot: the configured node whose range in the active node table holds it, or 0 (R124). -/
def State.ownerOf (s : State) (i : Nat) : Nat :=
  (addresses.find? (fun a =>
    match s.entry a with
    | some e => decide (e.shadowBase ≤ i ∧ i < e.shadowBase + e.shadowCount)
    | none => false)).getD 0

/-- The position of a slot in a node's replay order list, 1 at the head, 0 where it is not in the list (R124). -/
def State.listPosition (s : State) (node i : Nat) : Nat :=
  match (s.replayList node).findIdx? (· == i) with
  | some p => p + 1
  | none => 0

/-- READ SHADOW's data (R124). -/
def State.slotBytes (s : State) (i : Nat) : List Byte :=
  match s.slot i with
  | some r =>
    [u8 i, 1, u8 (s.ownerOf i), u8 r.relative, r.rule.code, r.policy.code, flagByte r.marked,
      u8 (s.listPosition (s.ownerOf i) i), r.kind.segment.code, r.function, u8 r.payload.length] ++ r.payload
  | none => [u8 i, 0, u8 (s.ownerOf i)] ++ List.replicate 8 0

def actReadShadow (q : Request) (s : State) : State :=
  if q.arg 0 < 96 then done q (s.slotBytes (q.arg 0)) s else invalid q s

/-- READ PARAMETERS: the active record (R186). -/
def actReadParameters (q : Request) (s : State) : State := done q (paramsRecord s.params) s

/-- READ IDENTITY: the written mark, then the three fields (R192). -/
def actReadIdentity (q : Request) (s : State) : State :=
  done q (flagByte s.responder.identity.isSome :: identityBytes s.responder.identity) s

/-! ### Table writes: the edit copy (R37, R87, R91, R92, R186) -/

def State.withEdit (s : State) (t : Tables) : State := s.withResponder { s.responder with edit := t }

/-- WRITE RULE (R91). -/
def actWriteRule (q : Request) (s : State) : State :=
  let i := q.arg 0
  if i < 48 then
    match parseRule (q.args.drop 1) with
    | none => invalid q s
    | some r =>
      done q (byteAt q.args 0 :: ruleRecord r)
        (s.withEdit { s.responder.edit with rules := s.responder.edit.rules.setIfInBounds i r })
  else invalid q s

/-- WRITE DEFAULT (R92). -/
def actWriteDefault (q : Request) (s : State) : State :=
  match parseAction q.args with
  | none => invalid q s
  | some a => done q (actionBytes a) (s.withEdit { s.responder.edit with defaultAction := a })

/-- The members of WRITE SET, if the set is one that R87 takes: at most 30 members, each 1..30, none twice. -/
def parseMembers (n : Nat) (bs : List Byte) : Option (List Nat) :=
  let members := bs.map BitVec.toNat
  if n ≤ 30 ∧ members.all isAddress ∧ members.Nodup then some (addressSet members) else none

/-- WRITE SET (R87). -/
def actWriteSet (q : Request) (s : State) : State :=
  let i := q.arg 0
  if i < 8 then
    match parseMembers (q.arg 1) (q.args.drop 2) with
    | none => invalid q s
    | some m =>
      done q (setBytes i m) (s.withEdit { s.responder.edit with sets := s.responder.edit.sets.setIfInBounds i m })
  else invalid q s

/-- The node entry that WRITE NODE leaves in the edit copy: a kept config record, or an empty one (R37). -/
def newEntry (old : Option NodeEntry) (e : NodeEntry) : NodeEntry :=
  { e with config := match old with | some x => x.config | none => [] }

/-- WRITE NODE (R37). -/
def actWriteNode (q : Request) (s : State) : State :=
  let a := q.arg 0
  let t := s.responder.edit
  if isAddress a then
    match parseNode (q.args.drop 1) with
    | none => invalid q s
    | some e =>
      let held := e.map (newEntry (t.node a))
      done q (byteAt q.args 0 :: nodeRecord held) (s.withEdit { t with nodes := putNode t.nodes a held })
  else invalid q s

/-- WRITE CONFIG RECORD (R37). -/
def actWriteConfigRecord (q : Request) (s : State) : State :=
  let a := q.arg 0
  let t := s.responder.edit
  match t.node a with
  | none => invalid q s
  | some e =>
    done q [byteAt q.args 0]
      (s.withEdit { t with nodes := putNode t.nodes a (some { e with config := q.args.drop 1 }) })

/-- WRITE PARAMETERS (R186). -/
def actWriteParameters (q : Request) (s : State) : State :=
  let p := parseParams q.args
  done q (paramsRecord p) (s.withEdit { s.responder.edit with params := p })

/-! ### Modes, the stored tables, image loading -/

/-- SET MODE SERVICE in DEPOT: the tests of R188, then the switch (R189). -/
def enterService (q : Request) (s : State) : State :=
  match s.responder.edit.firstFault with
  | some (kind, item) => answerRequest q.ref .invalid [kind, item] s
  | none => done q [Mode.service.code] (tableSwitch s)

/-- SET MODE (R187). -/
def actSetMode (q : Request) (s : State) : State :=
  match q.arg 0 with
  | 0 => done q [Mode.depot.code] (s.withResponder { s.responder with edit := s.tables, mode := .depot })
  | 1 =>
    match s.responder.mode with
    | .service => done q [Mode.service.code] s
    | .depot => enterService q s
  | _ => invalid q s

/-- STORE TABLES (R190): BUSY while an earlier one waits or is in progress. -/
def actStoreTables (q : Request) (s : State) : State :=
  if s.store.operations.any (fun o => o.kind == .tableWrite) then answerRequest q.ref .busy [] s
  else joinOperations { kind := .tableWrite, request := some q.ref } s

/-- A loading request in DEPOT joins the tail of the operation list; its answer waits for its end (R172). -/
def joinLoading (q : Request) (k : OperationKind) (s : State) : State :=
  joinOperations { kind := k, request := some q.ref } s

/-- IMAGE OPEN: node kind, version, length in blocks, image check (R173). -/
def actImageOpen (q : Request) (s : State) : State :=
  joinLoading q
    (.imageOpen (byteAt q.args 0) (word16At q.args 1) (word16At q.args 3).toNat (word32At q.args 5)) s

/-- IMAGE BLOCK: block index and data (R174). -/
def actImageBlock (q : Request) (s : State) : State :=
  joinLoading q (.imageBlock (word16At q.args 0).toNat (q.args.drop 2)) s

def actImageClose (q : Request) (s : State) : State := joinLoading q .imageClose s

def actImageDiscard (q : Request) (s : State) : State := joinLoading q .imageDiscard s

def actImageDrop (q : Request) (s : State) : State := joinLoading q (.imageDrop (byteAt q.args 0)) s

/-! ### Nodes and the engine (R54, R55, R195) -/

/-- ISOLATE NODE (R54). -/
def actIsolateNode (q : Request) (s : State) : State :=
  match s.nodeState (q.arg 0) with
  | .unconfigured => invalid q s
  | .isolated => done q [] s
  | _ => done q [] (enterIsolated (q.arg 0) s)

/-- What RESTORE NODE does to the record before the move (R55). -/
def forgetBoot (r : Runtime) : Runtime :=
  match r.state with
  | .failed | .isolated => r
  | _ => { r with bootCount := none, expected := none }

/-- RESTORE NODE (R55). -/
def actRestoreNode (q : Request) (s : State) : State :=
  let a := q.arg 0
  match s.nodeState a with
  | .unconfigured => invalid q s
  | _ => done q [] (enterProbeOrSuspect a (endSession a (cancelStep a (s.mapRuntime a forgetBoot))))

/-- RESTART ENGINE (R195). -/
def actRestartEngine (q : Request) (s : State) : State :=
  done q [] (s.withSegment { s.segment with restartPending := true })

/-! ### Identity, flags, notice mask (R192 to R194) -/

/-- SET IDENTITY (R192). -/
def actSetIdentity (q : Request) (s : State) : State :=
  let car := (word16At q.args 0).toNat
  let position := q.arg 2
  match s.responder.identity, Orientation.ofCode (byteAt q.args 3) with
  | some _, _ => answerRequest q.ref .writtenOnce [] s
  | none, some o =>
    if car ≤ 9999 ∧ 1 ≤ position ∧ position ≤ 8 then
      let i : Identity := { car := car, position := position, orientation := o }
      done q (identityBytes (some i)) (s.withResponder { s.responder with identity := some i })
    else invalid q s
  | none, none => invalid q s

/-- CLEAR FLAGS (R193). -/
def actClearFlags (q : Request) (s : State) : State :=
  let named := word16At q.args 0
  if named.toNat < 1024 then
    let flags := s.responder.flags &&& ~~~(named.setWidth 10)
    done q (le16 (flags.setWidth 16)) (s.withResponder { s.responder with flags := flags })
  else invalid q s

/-- SET NOTICE MASK (R194). -/
def actSetNoticeMask (q : Request) (s : State) : State :=
  let m := byteAt q.args 0
  if m.toNat < 8 then done q [m] (s.withResponder { s.responder with mask := m.setWidth 3 }) else invalid q s

/-! ### The commands -/

def execUnknownRequest (s : State) : Host.Outcome State Fault Refusal := happens (unknownRequest s) s
def execNonRequestFrame (s : State) : Host.Outcome State Fault Refusal := happens (nonRequestFrame s) s
def execReadStatus (s : State) : Host.Outcome State Fault Refusal :=
  happens (takeRequest .readStatus actReadStatus s) s
def execReadNode (s : State) : Host.Outcome State Fault Refusal := happens (takeRequest .readNode actReadNode s) s
def execReadRule (s : State) : Host.Outcome State Fault Refusal := happens (takeRequest .readRule actReadRule s) s
def execReadSet (s : State) : Host.Outcome State Fault Refusal := happens (takeRequest .readSet actReadSet s) s
def execReadCounters (s : State) : Host.Outcome State Fault Refusal :=
  happens (takeRequest .readCounters actReadCounters s) s
def execReadShadow (s : State) : Host.Outcome State Fault Refusal :=
  happens (takeRequest .readShadow actReadShadow s) s
def execReadParameters (s : State) : Host.Outcome State Fault Refusal :=
  happens (takeRequest .readParameters actReadParameters s) s
def execReadIdentity (s : State) : Host.Outcome State Fault Refusal :=
  happens (takeRequest .readIdentity actReadIdentity s) s
def execClearCounters (s : State) : Host.Outcome State Fault Refusal :=
  happens (takeRequest .clearCounters actClearCounters s) s
def execWriteRule (s : State) : Host.Outcome State Fault Refusal := happens (takeRequest .writeRule actWriteRule s) s
def execWriteDefault (s : State) : Host.Outcome State Fault Refusal :=
  happens (takeRequest .writeDefault actWriteDefault s) s
def execWriteSet (s : State) : Host.Outcome State Fault Refusal := happens (takeRequest .writeSet actWriteSet s) s
def execWriteNode (s : State) : Host.Outcome State Fault Refusal := happens (takeRequest .writeNode actWriteNode s) s
def execWriteConfigRecord (s : State) : Host.Outcome State Fault Refusal :=
  happens (takeRequest .writeConfigRecord actWriteConfigRecord s) s
def execWriteParameters (s : State) : Host.Outcome State Fault Refusal :=
  happens (takeRequest .writeParameters actWriteParameters s) s
def execSetMode (s : State) : Host.Outcome State Fault Refusal := happens (takeRequest .setMode actSetMode s) s
def execStoreTables (s : State) : Host.Outcome State Fault Refusal :=
  happens (takeRequest .storeTables actStoreTables s) s
def execImageOpen (s : State) : Host.Outcome State Fault Refusal := happens (takeRequest .imageOpen actImageOpen s) s
def execImageBlock (s : State) : Host.Outcome State Fault Refusal :=
  happens (takeRequest .imageBlock actImageBlock s) s
def execImageClose (s : State) : Host.Outcome State Fault Refusal :=
  happens (takeRequest .imageClose actImageClose s) s
def execImageDiscard (s : State) : Host.Outcome State Fault Refusal :=
  happens (takeRequest .imageDiscard actImageDiscard s) s
def execImageDrop (s : State) : Host.Outcome State Fault Refusal := happens (takeRequest .imageDrop actImageDrop s) s
def execIsolateNode (s : State) : Host.Outcome State Fault Refusal :=
  happens (takeRequest .isolateNode actIsolateNode s) s
def execRestoreNode (s : State) : Host.Outcome State Fault Refusal :=
  happens (takeRequest .restoreNode actRestoreNode s) s
def execRestartEngine (s : State) : Host.Outcome State Fault Refusal :=
  happens (takeRequest .restartEngine actRestartEngine s) s
def execSetIdentity (s : State) : Host.Outcome State Fault Refusal :=
  happens (takeRequest .setIdentity actSetIdentity s) s
def execClearFlags (s : State) : Host.Outcome State Fault Refusal :=
  happens (takeRequest .clearFlags actClearFlags s) s
def execSetNoticeMask (s : State) : Host.Outcome State Fault Refusal :=
  happens (takeRequest .setNoticeMask actSetNoticeMask s) s

end Sys2Proof.Machine
end

