-- ==== Sys2Proof/Machine/Power.lean ====
section
/-! DEFINITION. Power-on and RESET: what the nonvolatile areas keep, the table load, the directory load, and the start of
every block (R34, R60, R179, R191). Both resets have the same effect (00_scope.md, Conventions, Resets). -/

namespace Sys2Proof.Machine

/-! ### What a reset does to the nonvolatile areas (R179, R190) -/

/-- A block program in progress is cut off: its block's data and check are left in any state (free value, log entry 5). -/
def cutProgram (s : State) : List (Nat × StoreBlock) :=
  match s.store.access, s.store.progress with
  | some .operation, some (.programming _ block _) => writeBlock s.store.blocks block (tornBlock s.moment)
  | _, _ => s.store.blocks

/-- A directory write in progress is cut off: the copy written is left invalid. -/
def cutDirectory (m : ImageStore) : ImageStore :=
  match m.access, m.progress with
  | some .operation, some p => if p.writesDirectory then m.setCopy m.target none else m
  | _, _ => m

/-- A table write in progress is cut off: the stored copy is left invalid (R190). -/
def cutTables (s : State) : Option StoredTables :=
  match s.store.access, s.store.progress with
  | some .operation, some (.tableWriting _) => none
  | _, _ => s.stored

/-! ### The table load (R191) -/

/-- The stored copy is good: its Fletcher-32 matches and the tables pass R188. -/
def StoredTables.good (x : StoredTables) : Bool := x.check == tableCheck x.tables && x.tables.firstFault.isNone

/-- The tables that the load gives, if the stored copy is good. -/
def loadTables : Option StoredTables → Option Tables
  | some x => if x.good then some x.tables else none
  | none => none

/-! ### The directory load (R179) -/

/-- No two entries hold the same kind, and no two extents share a block. -/
def entriesApart : List ImageEntry → Bool
  | [] => true
  | e :: rest =>
    rest.all (fun x =>
      x.kind != e.kind && decide (e.first + e.length ≤ x.first ∨ x.first + x.length ≤ e.first))
      && entriesApart rest

/-- A stored copy is valid for the N now strapped. -/
def DirectoryCopy.valid (c : DirectoryCopy) (n : Nat) : Bool :=
  let entries := c.places.toList.filterMap id
  c.check == directoryCheck c.sequence c.places
    && entries.all (fun e => decide (1 ≤ e.length ∧ e.length ≤ 4096 ∧ e.first + e.length ≤ n))
    && entriesApart entries

/-- A copy that the load finds valid. -/
def validCopy (n : Nat) : Option DirectoryCopy → Option DirectoryCopy
  | some c => if c.valid n then some c else none
  | none => none

/-- The newer of two valid copies. -/
def newerCopy (c0 c1 : DirectoryCopy) : CopyPlace :=
  if c1.sequence = c0.sequence + 1 then .copy1
  else if c0.sequence = c1.sequence + 1 then .copy0
  else if c0.sequence.toNat < c1.sequence.toNat then .copy1
  else .copy0

/-- The copy that the load takes. -/
def takenCopy (n : Nat) (m : ImageStore) : Option (CopyPlace × DirectoryCopy) :=
  match validCopy n m.copy0, validCopy n m.copy1 with
  | some c0, some c1 =>
    match newerCopy c0 c1 with
    | .copy0 => some (.copy0, c0)
    | .copy1 => some (.copy1, c1)
  | some c0, none => some (.copy0, c0)
  | none, some c1 => some (.copy1, c1)
  | none, none => none

/-- The working catalogue of a stored copy: every readers count 0, the DAMAGED marks as stored. -/
def loadedCatalogue (c : DirectoryCopy) : Vector (Option CatalogueEntry) 12 :=
  Vector.ofFn (fun i => (c.places[i]).map (fun e => { image := e, readers := 0 }))

/-- The Image Store after the directory load: nothing staged, retained, waiting or in progress. -/
def startStore (n : Nat) (blocks : List (Nat × StoreBlock)) (m : ImageStore) : ImageStore :=
  let taken := takenCopy n m
  { blocks := blocks, copy0 := m.copy0, copy1 := m.copy1
    latest := taken.map (·.1)
    saved := taken.isSome
    catalogue := match taken with | some t => loadedCatalogue t.2 | none => Vector.replicate 12 none
    retained := none, staged := none, reads := [], operations := [], progress := none, cut := false, access := none }

/-! ### The start of the blocks -/

/-- The Gap Monitor's start (R34): clock 0, every configured node's E and origin 0. -/
def startGap (t : Tables) (gapHigh : Bool) : GapMonitor :=
  { clock := 0, gapHigh := gapHigh, condition := .supplied, aged := false, lastD := 0, gapSet := []
    reserves := Vector.ofFn (fun i => (t.nodes[i]).map (fun _ => { estimate := 0, origin := 0, aged := false })) }

/-- The Restore Engine's start (R60): each configured node in PROBE with its first probe READY; buffers FREE. -/
def startRestore (t : Tables) : RestoreEngine :=
  { nodes := Vector.ofFn (fun i => (t.nodes[i]).map (fun _ => { freshRuntime false with step := .ready .probe }))
    buffers := State.reset.restore.buffers
    waiting := [] }

/-- The mode, flags and edit copy after the loads (R187, R191, R193). -/
def startResponder (loaded : Option Tables) (m : ImageStore) : Responder :=
  { State.reset.responder with
    mode := if loaded.isSome then .service else .depot
    flags :=
      (if loaded.isSome then 0 else BitVec.twoPow 10 Flag.tablesInvalid.code)
        ||| (if m.saved then 0 else BitVec.twoPow 10 Flag.directoryInvalid.code)
    edit := loaded.getD Tables.empty }

/-- Every block as it leaves power-on or RESET, before the first sample of GAP. The queue of commands and the count of
moments are the model's own and stay. -/
def restart (straps : Straps) (gapHigh : Bool) (s : State) : State :=
  let loaded := loadTables (cutTables s)
  let t := loaded.getD Tables.empty
  let n := if straps.storeSz then 16384 else 8192
  let m := startStore n (cutProgram s) (cutDirectory s.store)
  { State.reset with
    pending := s.pending
    moment := s.moment
    straps := straps
    tables := t
    responder := startResponder loaded m
    gap := startGap t gapHigh
    restore := startRestore t
    store := m
    stored := cutTables s }

/-- The first sample of GAP (R34): supply present leaves SUPPLIED; supply absent makes START_PENDING with pending edge time
0, and with debounce 0 the expiry, already reached, is taken at once (log entry 23). -/
def firstSample (s : State) : State :=
  if s.gap.gapHigh == s.straps.gapPol then
    if s.params.debounce = 0 then confirmGapStart 0 s
    else s.setCondition (.startPending 0 s.expiryOfEdge)
  else s

/-- POWER_ON (R191). -/
def powerOn (straps : Straps) (gapHigh : Bool) (s : State) : State := firstSample (restart straps gapHigh s)

/-- RESET (R191): the same effect as power-on. -/
def resetLine (straps : Straps) (gapHigh : Bool) (s : State) : State := firstSample (restart straps gapHigh s)

/-! ### The commands -/

def execPowerOn (straps : Straps) (gapHigh : Bool) (s : State) : Host.Outcome State Fault Refusal :=
  took (powerOn straps gapHigh s)

def execReset (straps : Straps) (gapHigh : Bool) (s : State) : Host.Outcome State Fault Refusal :=
  took (resetLine straps gapHigh s)

end Sys2Proof.Machine
end

