-- ==== Sys2Proof/Machine/Timers.lean ====
section
/-! DEFINITION. The timers of the Restore Engine and the Hold Pool: next probe time, boot window close, busy poll time,
hold expiry (R43, R44, R130, R131, R152). -/

namespace Sys2Proof.Machine

/-- NEXT_PROBE_TIME: the clock reaches the next probe time of a node in AWAIT_BOOT or MISSING whose step is WAITING; the probe
becomes READY (R43, R44). -/
def nextProbeTime (node : Nat) (s : State) : Option State :=
  match s.runtime node with
  | some r =>
    match r.nextProbe with
    | some due =>
      if (r.state = .awaitBoot ∨ r.state = .missing) ∧ r.step = .waiting ∧ reached s.now due then
        some (offerKind node .probe s)
      else none
    | none => none
  | none => none

/-- BOOT_WINDOW_CLOSE: the clock reaches close; the node enters MISSING, and a probe in flight is kept (R43). -/
def bootWindowClose (node : Nat) (s : State) : Option State :=
  match s.runtime node with
  | some r =>
    match r.window with
    | some (_, closes) =>
      if r.state = .awaitBoot ∧ reached s.now closes then some (enterMissing node s) else none
    | none => none
  | none => none

/-- BUSY_POLL_TIME: the busy poll time becomes absent and a BUSY POLL step becomes READY (R152). -/
def busyPollTime (node : Nat) (s : State) : Option State :=
  match s.runtime node with
  | some r =>
    match r.session with
    | some x =>
      match x.pollTime with
      | some due =>
        if r.step = .waiting ∧ reached s.now due then
          some (offerKind node .busyPoll (s.mapSession node (fun x => { x with pollTime := none })))
        else none
      | none => none
    | none => none
  | none => none

/-- HOLD_EXPIRY: an entry whose release transaction is not in flight reaches its expiry time (R130). -/
def holdExpiry (node place : Nat) (s : State) : Option State :=
  match (s.queue node)[place]? with
  | some e => if e.expired s.now = true ∧ e.inFlight = false then some (expireEntry node place e s) else none
  | none => none

/-! ### The commands -/

def execNextProbeTime (node : Nat) (s : State) : Host.Outcome State Fault Refusal := happens (nextProbeTime node s) s
def execBootWindowClose (node : Nat) (s : State) : Host.Outcome State Fault Refusal :=
  happens (bootWindowClose node s) s
def execBusyPollTime (node : Nat) (s : State) : Host.Outcome State Fault Refusal := happens (busyPollTime node s) s
def execHoldExpiry (node place : Nat) (s : State) : Host.Outcome State Fault Refusal :=
  happens (holdExpiry node place s) s

end Sys2Proof.Machine
end

