-- ==== Sys2Proof/Machine/Trunk.lean ====
section
/-! DEFINITION. The Trunk Port's receiver and transmitter (section 10.1; R10, R180 to R182). -/

namespace Sys2Proof.Machine

def State.setReceiver (s : State) (c : RxCondition) : State := s.withTrunk { s.trunk with rx := c }

/-- TRUNK_FRAME_START: a C3h while hunting starts a frame (R10). -/
def trunkFrameStart (s : State) : Option State :=
  match s.trunk.rx with
  | .hunting => some (s.setReceiver .collecting)
  | .collecting => none

/-- A good frame goes to the tail of ingress, or is dropped at a full ingress with INGRESS_OVERRUN and a count (R180). -/
def acceptFrame (f : TrunkFrame) (s : State) : State :=
  if s.trunk.ingress.length < 16 then s.withTrunk { s.trunk with ingress := s.trunk.ingress ++ [f] }
  else raiseFlag .ingressOverrun (s.withTrunk { s.trunk with ingressDrop := s.trunk.ingressDrop + 1 })

/-- GOOD_FRAME: the frame being collected is complete and its check is good (R10, R180). -/
def goodFrame (chars : List Byte) (s : State) : Option State :=
  match s.trunk.rx, receiveTrunk chars with
  | .collecting, .good f => some (acceptFrame f (s.setReceiver .hunting))
  | _, _ => none

/-- BAD_FRAME: a length above 300, or a check that differs (R10, R182). -/
def badFrame (chars : List Byte) (s : State) : Option State :=
  match s.trunk.rx, receiveTrunk chars with
  | .collecting, .bad => some (raiseFlag .trunkCheck (s.setReceiver .hunting))
  | _, _ => none

/-- TRUNK_CHARACTER_GAP: more than 1 ms between two characters of a frame. The frame is truncated; the character that ends
the wait is examined while hunting, as a possible start (R10). -/
def trunkCharacterGap (ender : Option Byte) (s : State) : Option State :=
  match s.trunk.rx with
  | .hunting => none
  | .collecting =>
    some (raiseFlag .trunkCheck (s.setReceiver (if ender = some 0xC3 then .collecting else .hunting)))

/-- The egress entry whose frame is on the link (R181). -/
def State.sendingEntry (s : State) : Option Nat :=
  (List.range 24).find? (fun i => match s.trunk.egress[i]? with | some (.sending _) => true | _ => false)

/-- TRUNK_FRAME_SENT: the last character of the frame on the link has been sent; its entry becomes FREE (R181). -/
def trunkFrameSent (s : State) : Option State := s.sendingEntry.map (fun i => s.setEgress i .free)

/-! ### The commands -/

def execTrunkFrameStart (s : State) : Host.Outcome State Fault Refusal := happens (trunkFrameStart s) s
def execGoodFrame (chars : List Byte) (s : State) : Host.Outcome State Fault Refusal := happens (goodFrame chars s) s
def execBadFrame (chars : List Byte) (s : State) : Host.Outcome State Fault Refusal := happens (badFrame chars s) s
def execTrunkCharacterGap (ender : Option Byte) (s : State) : Host.Outcome State Fault Refusal :=
  happens (trunkCharacterGap ender s) s
def execTrunkFrameSent (s : State) : Host.Outcome State Fault Refusal := happens (trunkFrameSent s) s

end Sys2Proof.Machine
end

