-- ==== Sys2Proof/Machine/Dispatch.lean ====
section
/-! DEFINITION. The dispatch: one arm per command, each one direct call of its meaning. -/

namespace Sys2Proof.Machine

def exec (i : Instr) (s : State) : Host.Outcome State Fault Refusal :=
  match i with
  | .powerOn straps gapHigh => Sys2Proof.Machine.execPowerOn straps gapHigh s
  | .reset straps gapHigh => Sys2Proof.Machine.execReset straps gapHigh s
  | .goodFrame chars => Sys2Proof.Machine.execGoodFrame chars s
  | .badFrame chars => Sys2Proof.Machine.execBadFrame chars s
  | .trunkCharacterGap ender => Sys2Proof.Machine.execTrunkCharacterGap ender s
  | .trunkFrameSent => Sys2Proof.Machine.execTrunkFrameSent s
  | .segmentRequest => Sys2Proof.Machine.execSegmentRequest s
  | .unknownRequest => Sys2Proof.Machine.execUnknownRequest s
  | .nonRequestFrame => Sys2Proof.Machine.execNonRequestFrame s
  | .readStatus => Sys2Proof.Machine.execReadStatus s
  | .readNode => Sys2Proof.Machine.execReadNode s
  | .readRule => Sys2Proof.Machine.execReadRule s
  | .readSet => Sys2Proof.Machine.execReadSet s
  | .readCounters => Sys2Proof.Machine.execReadCounters s
  | .readShadow => Sys2Proof.Machine.execReadShadow s
  | .readParameters => Sys2Proof.Machine.execReadParameters s
  | .readIdentity => Sys2Proof.Machine.execReadIdentity s
  | .clearCounters => Sys2Proof.Machine.execClearCounters s
  | .writeRule => Sys2Proof.Machine.execWriteRule s
  | .writeDefault => Sys2Proof.Machine.execWriteDefault s
  | .writeSet => Sys2Proof.Machine.execWriteSet s
  | .writeNode => Sys2Proof.Machine.execWriteNode s
  | .writeConfigRecord => Sys2Proof.Machine.execWriteConfigRecord s
  | .writeParameters => Sys2Proof.Machine.execWriteParameters s
  | .setMode => Sys2Proof.Machine.execSetMode s
  | .storeTables => Sys2Proof.Machine.execStoreTables s
  | .imageOpen => Sys2Proof.Machine.execImageOpen s
  | .imageBlock => Sys2Proof.Machine.execImageBlock s
  | .imageClose => Sys2Proof.Machine.execImageClose s
  | .imageDiscard => Sys2Proof.Machine.execImageDiscard s
  | .imageDrop => Sys2Proof.Machine.execImageDrop s
  | .isolateNode => Sys2Proof.Machine.execIsolateNode s
  | .restoreNode => Sys2Proof.Machine.execRestoreNode s
  | .restartEngine => Sys2Proof.Machine.execRestartEngine s
  | .setIdentity => Sys2Proof.Machine.execSetIdentity s
  | .clearFlags => Sys2Proof.Machine.execClearFlags s
  | .setNoticeMask => Sys2Proof.Machine.execSetNoticeMask s
  | .engineRestartEffect => Sys2Proof.Machine.execEngineRestartEffect s
  | .operationStart => Sys2Proof.Machine.execOperationStart s
  | .blockProgramEnd writeError => Sys2Proof.Machine.execBlockProgramEnd writeError s
  | .checkReadEnd arrayFails => Sys2Proof.Machine.execCheckReadEnd arrayFails s
  | .directoryWriteEnd writeError => Sys2Proof.Machine.execDirectoryWriteEnd writeError s
  | .tableWriteEnd writeError => Sys2Proof.Machine.execTableWriteEnd writeError s
  | .storeReadEnd arrayFails => Sys2Proof.Machine.execStoreReadEnd arrayFails s
  | .gapEdgeAbsent => Sys2Proof.Machine.execGapEdgeAbsent s
  | .gapEdgePresent => Sys2Proof.Machine.execGapEdgePresent s
  | .gapStart => Sys2Proof.Machine.execGapStart s
  | .gapEnd => Sys2Proof.Machine.execGapEnd s
  | .gapAgedExpiry => Sys2Proof.Machine.execGapAgedExpiry s
  | .originAgedExpiry node => Sys2Proof.Machine.execOriginAgedExpiry node s
  | .transactionStart => Sys2Proof.Machine.execTransactionStart s
  | .segmentFrameSent => Sys2Proof.Machine.execSegmentFrameSent s
  | .replyTimeout => Sys2Proof.Machine.execReplyTimeout s
  | .replyReceived chars => Sys2Proof.Machine.execReplyReceived chars s
  | .replyCharacterGap => Sys2Proof.Machine.execReplyCharacterGap s
  | .settlingEnd => Sys2Proof.Machine.execSettlingEnd s
  | .nextProbeTime node => Sys2Proof.Machine.execNextProbeTime node s
  | .bootWindowClose node => Sys2Proof.Machine.execBootWindowClose node s
  | .busyPollTime node => Sys2Proof.Machine.execBusyPollTime node s
  | .holdExpiry node place => Sys2Proof.Machine.execHoldExpiry node place s
  | .replyStart => Sys2Proof.Machine.execReplyStart s
  | .trunkFrameStart => Sys2Proof.Machine.execTrunkFrameStart s
  | .replyLengthAbove64 length => Sys2Proof.Machine.execReplyLengthAbove64 length s

end Sys2Proof.Machine
end

