-- ==== Sys2Proof/Machine/Step.lean ====
section
/-! DEFINITION. One step: the command at the front of the queue, or one millisecond of an idle queue. -/

namespace Sys2Proof.Machine

/-- One millisecond passes with no command waiting (R17). What falls due at the new clock value is a command of the table
(log entry 2). -/
def tick (s : State) : State := s.withGap { s.gap with clock := s.gap.clock + 1 }

/-- The queue of waiting commands is replaced. -/
def State.withPending (s : State) (p : List Instr) : State := { s with pending := p }

/-- One step of the machine. -/
def step (s : State) : Host.Outcome State Fault Refusal :=
  match s.pending with
  | [] => .next (tick s)
  | c :: rest => exec c (s.withPending rest)

/-- The state with the command that a word spells at the front of its queue; unchanged where the word spells none. -/
def State.withFetchWord (s : State) (nbits w : Nat) : State :=
  match decodeTableWord nbits w with
  | some c => s.withPending (c :: s.pending)
  | none => s

end Sys2Proof.Machine
end

