-- ==== Sys2Proof/Safety.lean ====
section
/-! DEFINITION. What a sound state is, in the terms the statements use: bounds and agreements that the manual gives and that
every step keeps; and the states in which a command finds what it takes. -/

namespace Sys2Proof.Machine

/-! ### Sound states -/

/-- The block array is in its one canonical form (R165). -/
def State.BlocksSound (s : State) : Prop := s.store.wf = true

/-- Ingress holds 0..16 frames (R180). -/
def State.IngressSound (s : State) : Prop := s.trunk.ingress.length ≤ 16

/-- The pass queue holds 0..32 entries, the one in flight counted (R68). -/
def State.PassesSound (s : State) : Prop := s.passLength ≤ 32

/-- Exactly the configured nodes have a reserve record, and its estimate E lies between 0 and the node's H (R24). -/
def State.ReservesSound (s : State) : Prop :=
  (∀ a, (s.reserve a).isSome = (s.entry a).isSome)
    ∧ ∀ a r e, s.reserve a = some r → s.entry a = some e → r.estimate ≤ e.holdup

/-- Exactly the configured nodes have a runtime record, and none reads UNCONFIGURED (R38). -/
def State.RuntimesSound (s : State) : Prop :=
  (∀ a, (s.runtime a).isSome = (s.entry a).isSome) ∧ ∀ a r, s.runtime a = some r → r.state ≠ .unconfigured

/-- The gap set is a set: no address stands in it twice (R23). -/
def State.GapSetSound (s : State) : Prop := s.gap.gapSet.Nodup

/-- A node's hold queue is never longer than its hold cap, an unconfigured address has none, the entries in use are at most
128, and the queue of a node in ONLINE, FAILED, ISOLATED or UNCONFIGURED is empty (R126, R127). -/
def State.HoldSound (s : State) : Prop :=
  (∀ a, (s.queue a).length ≤ (match s.entry a with | some e => e.holdCap | none => 0))
    ∧ (addresses.map (fun a => (s.queue a).length)).sum ≤ 128
    ∧ ∀ a, s.nodeState a ∈ [NodeState.online, .failed, .isolated, .unconfigured] → s.queue a = []

/-- The active tables pass the tests of a switch, so that no two ranges share a slot (R109, R188); a replay order list holds each
valid slot of its node once and no other (R111); a valid slot is the one of its relative number in its node's range (R109,
R110); and a slot is pending only while its node is not ONLINE (R117). -/
def State.ShadowSound (s : State) : Prop :=
  s.tables.firstFault = none
    ∧ (∀ a, (s.replayList a).Nodup ∧ ∀ i, i ∈ s.replayList a ↔ ∃ r, s.slot i = some r ∧ r.node = a)
    ∧ (∀ i r, s.slot i = some r →
        ∃ e, s.entry r.node = some e ∧ r.relative < e.shadowCount ∧ i = e.shadowBase + r.relative)
    ∧ ∀ i r, s.slot i = some r → r.marked = true → s.nodeState r.node ≠ .online

/-! ### Sound transfers (chapter 8) -/

/-- The kind of a step that is READY or IN_FLIGHT (R39). -/
def StepCondition.offered : StepCondition → Option StepKind
  | .ready k | .inFlight k => some k
  | .none | .waiting | .orphaned => Option.none

/-- The states whose nodes offer a step of this kind (section 3.3). -/
def StepKind.offeredIn : StepKind → List NodeState
  | .probe => [.probe, .awaitBoot, .missing]
  | .config => [.config]
  | .replay => [.replay]
  | .release => [.release]
  | .imageBlock | .imageEnd | .busyPoll => [.image]

/-- A session agrees with its node's step: a block goes out of a FILLED buffer, an IMAGE END holds no buffer, a frame in flight is
the frame last sent, and a poll awaited or offered asks for the verdict on one of the two (R149, R152, R154). -/
def Session.Fits (x : Session) (c : StepCondition) : Prop :=
  (c.offered = some .imageBlock → x.request = .filled)
    ∧ (c.offered = some .imageEnd → x.request = .none)
    ∧ (c = .inFlight .imageBlock → x.lastSent = .block)
    ∧ (c = .inFlight .imageEnd → x.lastSent = .imageEnd)
    ∧ (c.offered = some .busyPoll ∨ x.pollTime ≠ none →
        (x.lastSent = .block ∧ x.request = .filled) ∨ (x.lastSent = .imageEnd ∧ x.request = .none))
    ∧ (c.offered ≠ none → x.pollTime = none)

/-- Exactly the nodes in IMAGE hold a session (R144), a step that is READY or IN_FLIGHT is of a kind that its node's state offers
(R39), and the sessions agree with the steps. -/
def State.SessionsSound (s : State) : Prop :=
  ∀ a r, s.runtime a = some r →
    (r.session ≠ none ↔ r.state = .image) ∧ (∀ k, r.step.offered = some k → r.state ∈ k.offeredIn)
      ∧ ∀ x, r.session = some x → x.Fits r.step

/-- The waiting list holds no node twice and exactly the nodes whose sessions wait for a buffer, and no buffer is FREE while it
holds one; a session holds the one buffer that is READING or FILLED for it, and every such buffer is held by a session
(R148). -/
def State.BuffersSound (s : State) : Prop :=
  s.restore.waiting.Nodup
    ∧ (s.restore.waiting ≠ [] → ∀ b : Nat, s.restore.buffers[b]? ≠ some .free)
    ∧ (∀ a, a ∈ s.restore.waiting ↔ ∃ x, s.session a = some x ∧ x.request = .waitingList)
    ∧ (∀ a x, s.session a = some x →
        match x.buffer, x.request with
        | some b, .reading => s.restore.buffers[b]? = some (.reading a)
        | some b, .filled => ∃ data, s.restore.buffers[b]? = some (.filled a data)
        | none, .waitingList | none, .none => True
        | _, _ => False)
    ∧ ∀ (b a : Nat), (s.restore.buffers[b]? = some (.reading a) ∨ ∃ data, s.restore.buffers[b]? = some (.filled a data)) →
        ∃ x, s.session a = some x ∧ x.buffer = some b

/-- The buffers of the reads that wait or are in progress (R169). -/
def State.readBuffers (s : State) : List Nat :=
  (match s.store.access with | some (.read r) => [r.buffer] | _ => []) ++ s.store.reads.map (·.buffer)

/-- One read is pending for each buffer READING or DRAINING, and none for any other (R169). -/
def State.ReadsSound (s : State) : Prop :=
  s.readBuffers.Nodup
    ∧ ∀ b, b ∈ s.readBuffers ↔
        ((∃ a, s.restore.buffers[b]? = some (.reading a)) ∨ s.restore.buffers[b]? = some .draining)

/-- The readers count of every catalogue place is the number of sessions that name it, an empty place is named by none (R145),
and the place of an entry that an IMAGE DROP is writing out stays empty (R178). -/
def State.ReadersSound (s : State) : Prop :=
  (∀ i, (match s.place i with | some e => e.readers | none => 0) =
      (addresses.filter (fun a => (s.session a).any (fun x => x.entry == i))).length)
    ∧ ∀ i e, s.store.progress = some (.dropping i e) → s.place i = none

/-- Sessions, steps, block buffers, pending reads and readers counts agree. -/
def State.TransfersSound (s : State) : Prop :=
  s.RuntimesSound ∧ s.SessionsSound ∧ s.BuffersSound ∧ s.ReadsSound ∧ s.ReadersSound

/-! ### Kinds of command -/

/-- The two commands that start every block anew (R191). -/
def isReset : Instr → Bool
  | .powerOn _ _ | .reset _ _ => true
  | _ => false

/-- The command that takes a request of a known code. -/
def RequestCode.command : RequestCode → Instr
  | .readStatus => .readStatus
  | .readNode => .readNode
  | .readRule => .readRule
  | .readSet => .readSet
  | .readCounters => .readCounters
  | .readShadow => .readShadow
  | .readParameters => .readParameters
  | .readIdentity => .readIdentity
  | .clearCounters => .clearCounters
  | .writeRule => .writeRule
  | .writeDefault => .writeDefault
  | .writeSet => .writeSet
  | .writeNode => .writeNode
  | .writeConfigRecord => .writeConfigRecord
  | .writeParameters => .writeParameters
  | .setMode => .setMode
  | .storeTables => .storeTables
  | .imageOpen => .imageOpen
  | .imageBlock => .imageBlock
  | .imageClose => .imageClose
  | .imageDiscard => .imageDiscard
  | .imageDrop => .imageDrop
  | .isolateNode => .isolateNode
  | .restoreNode => .restoreNode
  | .restartEngine => .restartEngine
  | .setIdentity => .setIdentity
  | .clearFlags => .clearFlags
  | .setNoticeMask => .setNoticeMask

/-! ### What a take finds and leaves -/

/-- The frame `f` is at the head of ingress, and `i` is the FREE egress entry that its take reserves (R94). -/
def State.Heads (s : State) (f : TrunkFrame) (rest : List TrunkFrame) (i : Nat) : Prop :=
  s.trunk.ingress = f :: rest ∧ s.freeEntry = some i

/-- At the head of ingress stands a MANAGEMENT REQUEST of code `k` with these arguments. -/
def State.HeadsRequest (s : State) (k : RequestCode) (tag : Word16) (outcome : Byte) (args : List Byte)
    (rest : List TrunkFrame) (i : Nat) : Prop :=
  s.Heads { kind := 0x02, tag := tag, outcome := outcome, body := k.code :: args } rest i

/-- At the head of ingress stands a MANAGEMENT REQUEST of code `k` that R11 and R14 find in order. -/
def State.Asks (s : State) (k : RequestCode) (tag : Word16) (args : List Byte) (rest : List TrunkFrame) (i : Nat) :
    Prop :=
  s.HeadsRequest k tag 0 args rest i ∧ argumentsFit k args = true

/-- The head of ingress has left it, and the frame `a` waits in egress entry `i`. -/
def State.answered (s : State) (rest : List TrunkFrame) (i : Nat) (a : TrunkFrame) : State :=
  { s with
    trunk :=
      { s.trunk with
        ingress := rest
        egress := s.trunk.egress.setIfInBounds i (.waiting a)
        order := s.trunk.order ++ [{ entry := i, moment := s.moment }] } }

/-- The head of ingress has left it, and its MANAGEMENT ANSWER waits: tag echoed, outcome, request code, data (R12). -/
def State.replies (s : State) (k : RequestCode) (tag : Word16) (rest : List TrunkFrame) (i : Nat) (c : AnswerCode)
    (data : List Byte) : State :=
  s.answered rest i { kind := 0x42, tag := tag, outcome := c.code, body := k.code :: data }

/-- The head of ingress has left it with entry `i` RESERVED: its answer is still owed. -/
def State.reserved (s : State) (rest : List TrunkFrame) (i : Nat) : State :=
  { s with trunk := { s.trunk with ingress := rest, egress := s.trunk.egress.setIfInBounds i .reserved } }

/-- A frame waits in an egress entry that was reserved for it. -/
def State.fills (s : State) (i : Nat) (f : TrunkFrame) : State :=
  { s with
    trunk :=
      { s.trunk with
        egress := s.trunk.egress.setIfInBounds i (.waiting f)
        order := s.trunk.order ++ [{ entry := i, moment := s.moment }] } }

/-- The edit copy is replaced. -/
def State.edited (s : State) (t : Tables) : State := { s with responder := { s.responder with edit := t } }

/-- The store when its arbiter has chosen again after an access (R169): the read at the head of the read list, else the next
access of the operation in progress, else idle. -/
def ImageStore.chosen (m : ImageStore) : ImageStore :=
  match m.reads with
  | r :: rest => { m with access := some (.read r), reads := rest }
  | [] => { m with access := if m.progress.isSome then some .operation else none }

/-- A frame stands in an egress entry, waiting or on the link (R181). -/
def State.Shows (s : State) (i : Nat) (f : TrunkFrame) : Prop :=
  s.trunk.egress[i]? = some (.waiting f) ∨ s.trunk.egress[i]? = some (.sending f)

/-- The characters of a complete reply after its start character: to address 0, from a node, its check good (R5, R6, section
1.6). -/
def replyChars (node : Nat) (r : Reply) : List Byte :=
  let c := [0, u8 node, r.kind.code, r.function, r.marker, u8 r.payload.length] ++ r.payload
  c ++ check16 c

/-- The line is FREE and the transaction record empty (R67). -/
def State.lineFree (s : State) : State := { s with segment := { s.segment with line := .free } }

/-- The kind and the payload of a complete reply are ones that R6 lists for the kind of frame sent (its tests 4 to 6). -/
def RawReply.Listed (r : RawReply) (sent : SegmentKind) : Prop :=
  let value := fun (k : Nat) => (byteAt r.payload k).toNat
  let accept := r.kind = 0x80 ∧ r.payload = []
  let refuse := r.kind = 0x81 ∧ r.payload.length = 1
  let answer := r.kind = 0x82 ∧ r.payload.length ≤ 64
  match sent with
  | .command => accept ∨ refuse ∨ answer
  | .query => answer ∨ refuse
  | .config => accept ∨ refuse
  | .statusQuery => r.kind = 0x90 ∧ r.payload.length = 8 ∧ value 0 ≤ 3 ∧ value 5 + 256 * value 6 ≤ 4095
  | .imageBlock | .imageEnd | .busyPoll => r.kind = 0x91 ∧ r.payload.length = 1 ∧ value 0 ≤ 4
  | .broadcast => False

/-- A complete reply to a frame of kind `sent` to `node` fails a test of R6. -/
def RawReply.Fails (r : RawReply) (sent : SegmentKind) (node : Nat) : Prop :=
  r.check ≠ check16 r.covered ∨ r.destination ≠ 0 ∨ r.source.toNat ≠ node ∨ ¬ r.Listed sent

/-- The command `c` ends the transaction `t` with a miss (R65 to R67): a timeout, a complete reply that fails R6, or a reply cut
short. `v` is the state that its result acts on: the line FREE or SETTLING, and SEGMENT_CHECK raised for a bad check. -/
def State.Misses (s : State) (t : Transaction) (c : Instr) (v : State) : Prop :=
  (c = .replyTimeout ∧ s.segment.line = .awaiting t ∧ v = s.lineFree)
    ∨ (∃ chars r, c = .replyReceived chars ∧ s.segment.line = .collecting t ∧ collectReply chars = some r
        ∧ r.Fails t.kind t.destination ∧ v = raiseFlag .segmentCheck s.lineFree)
    ∨ ∃ n, (c = .replyCharacterGap ∨ ∃ length : Byte, 64 < length.toNat ∧ c = .replyLengthAbove64 length)
        ∧ s.segment.line = .collecting t ∧ t.timeout = some n
        ∧ v = raiseFlag .segmentCheck { s with segment := { s.segment with line := .settling n } }

/-- A reply to a transaction in flight that carries a restore step of node `a` is being collected (R65). -/
def State.CollectsStep (s : State) (a : Nat) (k : SegmentKind) : Prop :=
  1 ≤ a ∧ a ≤ 30 ∧ ∃ t, s.segment.line = .collecting t ∧ t.carries = .step a ∧ t.destination = a ∧ t.kind = k

end Sys2Proof.Machine
end

