-- ==== Sys2Proof/WellFormed.lean ====
section
/-! DEFINITION. Which commands are well formed: each names an event that can take place in some state. A command that is not
well formed is an event the manual does not know: a timer of an address outside 1..30, a complete reply without its
check characters, a good frame whose check differs. -/

namespace Sys2Proof

/-- The commands that name an event of the manual. -/
def Instr.wellFormed : Instr → Bool
  | .powerOn _ _ | .reset _ _ => true
  | .goodFrame chars => match Machine.receiveTrunk chars with | .good _ => true | _ => false
  | .badFrame chars => Machine.receiveTrunk chars == .bad
  | .trunkCharacterGap _ | .trunkFrameSent => true
  | .segmentRequest | .unknownRequest | .nonRequestFrame => true
  | .readStatus | .readNode | .readRule | .readSet | .readCounters | .readShadow | .readParameters | .readIdentity
  | .clearCounters | .writeRule | .writeDefault | .writeSet | .writeNode | .writeConfigRecord | .writeParameters
  | .setMode | .storeTables | .imageOpen | .imageBlock | .imageClose | .imageDiscard | .imageDrop | .isolateNode
  | .restoreNode | .restartEngine | .setIdentity | .clearFlags | .setNoticeMask => true
  | .engineRestartEffect | .operationStart => true
  | .blockProgramEnd _ | .checkReadEnd _ | .directoryWriteEnd _ | .tableWriteEnd _ | .storeReadEnd _ => true
  | .gapEdgeAbsent | .gapEdgePresent | .gapStart | .gapEnd | .gapAgedExpiry => true
  | .originAgedExpiry node | .nextProbeTime node | .bootWindowClose node | .busyPollTime node =>
    Machine.isAddress node
  | .transactionStart | .segmentFrameSent | .replyTimeout | .replyCharacterGap | .settlingEnd | .replyStart
  | .trunkFrameStart => true
  | .replyReceived chars => (Machine.collectReply chars).isSome
  | .holdExpiry node place => Machine.isAddress node && decide (place < 16)
  | .replyLengthAbove64 length => decide (64 < length.toNat)

end Sys2Proof
end

