-- ==== Sys2Proof/Certificates/Slice0/Obligations.lean ====
section
/-! DEFINITION. The statements for the provers. Each docstring names the rules of spec/ it formalises, or the log entry of the
choice it states. -/

open Sys2Proof Sys2Proof.Machine

/-! ### Steps, reset and sound states -/

/-- One step takes the command at the front of the queue and runs it with the queue's rest. On an empty queue a step is one
millisecond of the clock and nothing else (R17: the clock advances by 1 each millisecond; that an empty queue stands for one
millisecond is the model's choice, log entry 2). -/
def Obligations.StepRunsFrontCommandOrIdles : Prop :=
  (∀ (c : Instr) (rest : List Instr) (s : State),
      s.pending = c :: rest → step s = exec c { s with pending := rest })
    ∧ ∀ s : State, s.pending = [] → step s = .next { s with gap := { s.gap with clock := s.gap.clock + 1 } }

/-- What reset leaves in every block, for a part whose nonvolatile areas were never written (that they were not is the model's
choice, log entry 3): R10, R17, R22, R34, R63, R79, R80, R109, R126, R148, R180, R181, R187, R191 to R195. -/
def Obligations.ResetLeavesEveryBlockAtStart : Prop :=
  let s := State.reset
  s.gap.clock = 0 ∧ s.gap.lastD = 0 ∧ s.gap.gapSet = [] ∧ s.gap.aged = false ∧ s.trunk.rx = .hunting
    ∧ s.trunk.ingress = [] ∧ s.egressFree = 24 ∧ s.trunk.reportLost = 0 ∧ s.trunk.ingressDrop = 0
    ∧ s.shadow.missCount = 0 ∧ s.responder.mode = .depot ∧ s.responder.edit = s.tables ∧ s.tables = Tables.empty
    ∧ s.responder.mask = 0 ∧ s.responder.identity = none
    ∧ (∀ f : Flag, s.flagSet f = true ↔ f = .tablesInvalid ∨ f = .directoryInvalid)
    ∧ (∀ a, s.nodeState a = .unconfigured ∧ s.queue a = [] ∧ s.replayList a = [] ∧ s.reserve a = none)
    ∧ (∀ i, s.slot i = none ∧ s.place i = none) ∧ s.holdFree = 128 ∧ s.restore.waiting = []
    ∧ (∀ b, b < 4 → s.restore.buffers[b]? = some .free)
    ∧ s.segment.line = .free ∧ s.passLength = 0 ∧ s.segment.runCount = 0 ∧ s.segment.lastEntrance = 0
    ∧ s.segment.lastInfo = 0 ∧ s.segment.restartPending = false ∧ s.store.staged = none ∧ s.store.retained = none
    ∧ s.storeBusy = false ∧ s.store.saved = false

/-- The state right after reset is sound in every way the invariants below state. -/
def Obligations.ResetStateIsSound : Prop :=
  State.reset.BlocksSound ∧ State.reset.IngressSound ∧ State.reset.PassesSound ∧ State.reset.ReservesSound
    ∧ State.reset.RuntimesSound ∧ State.reset.GapSetSound ∧ State.reset.HoldSound ∧ State.reset.ShadowSound
    ∧ State.reset.TransfersSound

/-- Every step keeps the block array in its one canonical form (R165; the form is the model's, log entry 7), ingress at no more
than 16 frames (R180), and the pass queue at no more than 32 entries, the one in flight counted (R68). -/
def Obligations.StepKeepsBlockArrayIngressAndPassQueueSound : Prop :=
  ∀ s t : State, step s = .next t →
    (s.BlocksSound → t.BlocksSound) ∧ (s.IngressSound → t.IngressSound) ∧ (s.PassesSound → t.PassesSound)

/-- Every step leaves the hold queues sound: each within its node's hold cap, at most 128 entries in use, and the queue of a node
in ONLINE, FAILED, ISOLATED or UNCONFIGURED empty (R126, R127, R141). It leaves the shadow slots sound: the active tables pass
the tests of a switch, each replay order list holds each valid slot of its node once and no other, a valid slot lies in its
node's range at its relative number, and a slot is pending only while its node is not ONLINE (R109 to R111, R117, R188). -/
def Obligations.StepKeepsHoldAndShadowSound : Prop :=
  ∀ s t : State, step s = .next t → (s.HoldSound → t.HoldSound) ∧ (s.ShadowSound → t.ShadowSound)

/-- Every step leaves exactly the configured nodes with a reserve record whose estimate is at most the holdup (R24, R33, R34) and
with a runtime record (R38, R59, R60), and no address twice in the gap set (R23). -/
def Obligations.StepKeepsNodeRecordsAndGapSet : Prop :=
  ∀ s t : State, step s = .next t →
    (s.ReservesSound → t.ReservesSound) ∧ (s.RuntimesSound → t.RuntimesSound) ∧ (s.GapSetSound → t.GapSetSound)

/-- Every step leaves the transfers sound: exactly the nodes in IMAGE hold a session; the four block buffers, the waiting list, the
sessions and the pending reads name one another; and every readers count is the number of sessions that name its entry (R39,
R144, R145, R148, R149, R159, R163, R169, R178). -/
def Obligations.StepKeepsTransfersSound : Prop :=
  ∀ s t : State, s.TransfersSound → step s = .next t → t.TransfersSound

/-! ### What only some commands change -/

/-- A written identity keeps its value under every command but POWER_ON and RESET (R192), and a set flag stays set under every
command but these and CLEAR FLAGS (00_scope.md, Terms, flag; R193). The active tables and the mode change at SET MODE and at the
two resets only, and the edit copy at these and the six table writes only (R187, R189, R191). No command but the two resets
changes the millisecond clock or the sampled straps, and none but these and BLOCK_PROGRAM_END changes the nonvolatile block
array (R17, R165; 00_scope.md). -/
def Obligations.KeptStateChangesOnlyWhereNamed : Prop :=
  ∀ (c : Instr) (s t : State), isReset c = false → exec c s = .next t →
    (∀ x, s.responder.identity = some x → t.responder.identity = some x)
      ∧ (c ≠ .clearFlags → ∀ f : Flag, s.flagSet f = true → t.flagSet f = true)
      ∧ (c ≠ .setMode →
          t.tables = s.tables ∧ t.responder.mode = s.responder.mode
            ∧ (c ≠ .writeRule → c ≠ .writeDefault → c ≠ .writeSet → c ≠ .writeNode → c ≠ .writeConfigRecord →
                c ≠ .writeParameters → t.responder.edit = s.responder.edit))
      ∧ t.gap.clock = s.gap.clock ∧ t.straps = s.straps
      ∧ ((∀ b, c ≠ .blockProgramEnd b) → t.store.blocks = s.store.blocks)

/-! ### Power-on and RESET -/

/-- POWER_ON and RESET both run, and leave every block at its start: the clock 0, the trunk, the segment, the shadow, the hold
queues, the counters, the mask and the identity as at State.reset, every flag clear but the two load flags, the block buffers
FREE with nothing waiting, the straps as sampled, the edit copy equal to the active tables; every configured node has E = 0 and
origin 0 and is in PROBE with its first probe READY. With GAP at supply present the condition is SUPPLIED; with supply absent it
is START_PENDING from 0, or with debounce 0 IN_GAP from 0, with the FED nodes in the gap set and in SUSPECT with phase PROBE
(R19, R23, R24, R34, R56, R60, R85, R107, R125, R142, R179 to R181, R187, R191 to R195). That the queue of commands, which is
the model's own, is kept through both, and that with debounce 0 the gap start is part of the same command, are the model's
choices (log entries 28, 23). -/
def Obligations.PowerOnAndResetStartEveryBlock : Prop :=
  ∀ (c : Instr) (x : Straps) (high : Bool) (s : State), c = .powerOn x high ∨ c = .reset x high →
    ∃ t, exec c s = .next t ∧ t.gap.clock = 0 ∧ t.gap.lastD = 0 ∧ t.gap.aged = false
      ∧ t.trunk = State.reset.trunk ∧ t.segment = State.reset.segment ∧ t.shadow = State.reset.shadow
      ∧ t.hold = State.reset.hold ∧ t.counters = State.reset.counters ∧ t.straps = x
      ∧ t.responder.mask = 0 ∧ t.responder.identity = none ∧ t.responder.edit = t.tables ∧ t.pending = s.pending
      ∧ (∀ f : Flag, f ≠ .tablesInvalid → f ≠ .directoryInvalid → t.flagSet f = false)
      ∧ t.restore.buffers = State.reset.restore.buffers ∧ t.restore.waiting = []
      ∧ t.store.staged = none ∧ t.store.retained = none ∧ t.storeBusy = false
      ∧ (high ≠ x.gapPol → t.gap.condition = .supplied ∧ t.gap.gapSet = [])
      ∧ (high = x.gapPol → t.tables.params.debounce ≠ 0 →
          t.gap.condition = .startPending 0 (BitVec.ofNat 32 t.tables.params.debounce) ∧ t.gap.gapSet = [])
      ∧ (high = x.gapPol → t.tables.params.debounce = 0 →
          t.gap.condition = .inGap 0 ∧ ∀ a, a ∈ t.gap.gapSet ↔ ∃ e, t.entry a = some e ∧ e.supply = .fed)
      ∧ ∀ a e, t.entry a = some e →
          let suspect := decide (high = x.gapPol ∧ t.tables.params.debounce = 0 ∧ e.supply = .fed)
          t.reserve a = some { estimate := 0, origin := 0, aged := false }
            ∧ ∃ r, t.runtime a = some r ∧ r.state = (if suspect then .suspect else .probe)
                ∧ r.step = (if suspect then .none else .ready .probe) ∧ r.phase = (if suspect then some .probe else none)
                ∧ r.bootCount = none ∧ r.noReply = 0 ∧ r.attempts = 0 ∧ r.misses = 0 ∧ r.expected = none
                ∧ r.window = none ∧ r.nextProbe = none ∧ r.session = none ∧ r.restores = 0
                ∧ r.survived = 0 ∧ r.lost = 0 ∧ r.refusals = 0 ∧ r.passNoReplies = 0

/-- The table load: a good stored copy gives SERVICE and its tables, anything else DEPOT, the empty tables and TABLES_INVALID;
a stored copy cut off in its write is not good (R190, R191). -/
def Obligations.TableLoadDecidesMode : Prop :=
  ∀ (c : Instr) (x : Straps) (high : Bool) (s t : State), c = .powerOn x high ∨ c = .reset x high →
    exec c s = .next t →
      (∀ k, s.stored = some k → (∀ w, s.store.access = some .operation → s.store.progress ≠ some (.tableWriting w)) →
          k.check = tableCheck k.tables → k.tables.firstFault = none →
          t.tables = k.tables ∧ t.responder.mode = .service ∧ t.flagSet .tablesInvalid = false ∧ t.stored = some k)
        ∧ ((s.stored = none ∨ (∃ w, s.store.access = some .operation ∧ s.store.progress = some (.tableWriting w))
              ∨ (∃ k, s.stored = some k ∧ (k.check ≠ tableCheck k.tables ∨ k.tables.firstFault ≠ none))) →
            t.tables = Tables.empty ∧ t.responder.mode = .depot ∧ t.flagSet .tablesInvalid = true)

/-- A stored directory copy is valid when its Fletcher-32 matches, every entry has a length of 1 to 4096 and an extent within
the N blocks, no two entries hold the same kind, and no two extents share a block. What a reset does to the Image Store. A
directory write in progress leaves the copy it was writing invalid and the other as it was; a block program in progress leaves
every other block as it was; no other access changes the nonvolatile areas. Then the load: no valid copy leaves an empty unsaved
catalogue and DIRECTORY_INVALID; one valid copy is taken, with readers counts 0; of two valid ones the newer; nothing is staged,
retained or waiting. That a write while there is no latest successful write was writing copy 0, and not only the first one after
a reset, is the model's choice (log entry 15) (R165, R169, R171, R179). -/
def Obligations.DirectoryLoadTakesNewerValidCopy : Prop :=
  (∀ n, validCopy n none = none ∧ ∀ k : DirectoryCopy,
    let sound :=
      k.check = directoryCheck k.sequence k.places
        ∧ ∀ (i : Nat) (e : ImageEntry), k.places[i]? = some (some e) →
            1 ≤ e.length ∧ e.length ≤ 4096 ∧ e.first + e.length ≤ n
              ∧ ∀ (j : Nat) (d : ImageEntry), j ≠ i → k.places[j]? = some (some d) →
                  d.kind ≠ e.kind
                    ∧ ∀ b, ¬ (e.first ≤ b ∧ b < e.first + e.length ∧ d.first ≤ b ∧ b < d.first + d.length)
    (sound → validCopy n (some k) = some k) ∧ (¬ sound → validCopy n (some k) = none)) ∧
  ∀ (c : Instr) (x : Straps) (high : Bool) (s t : State) (n : Nat) (c0 c1 : Option DirectoryCopy),
    c = .powerOn x high ∨ c = .reset x high → n = (if x.storeSz then 16384 else 8192) → exec c s = .next t →
    let m := s.store
    let running := fun (p : Progress) => m.access = some .operation ∧ m.progress = some p
    let writing := ∃ p, running p ∧ p.writesDirectory = true
    let taken := fun (k : DirectoryCopy) =>
      t.store.saved = true ∧ t.flagSet .directoryInvalid = false
        ∧ ∀ i, (h : i < 12) → t.place i = (k.places[i]).map (fun e => { image := e, readers := 0 })
    (¬ writing ∧ c0 = m.copy0 ∧ c1 = m.copy1) ∨ (writing ∧ m.latest = some .copy0 ∧ c0 = m.copy0 ∧ c1 = none)
        ∨ (writing ∧ m.latest ≠ some .copy0 ∧ c0 = none ∧ c1 = m.copy1) →
      t.store.copy0 = c0 ∧ t.store.copy1 = c1 ∧ t.store.staged = none ∧ t.store.retained = none ∧ t.storeBusy = false
        ∧ ((∀ i b d, ¬ running (.programming i b d)) → t.store.blocks = m.blocks)
        ∧ (∀ i b d j, running (.programming i b d) → j ≠ b → readBlock t.store.blocks j = readBlock m.blocks j)
        ∧ (validCopy n c0 = none → validCopy n c1 = none →
            t.store.saved = false ∧ t.flagSet .directoryInvalid = true ∧ ∀ i, t.place i = none)
        ∧ (∀ k, validCopy n c0 = some k → validCopy n c1 = none → taken k)
        ∧ (∀ k, validCopy n c0 = none → validCopy n c1 = some k → taken k)
        ∧ (∀ k k', validCopy n c0 = some k → validCopy n c1 = some k' → k'.sequence = k.sequence + 1 → taken k')
        ∧ (∀ k k', validCopy n c0 = some k → validCopy n c1 = some k' → k'.sequence ≠ k.sequence + 1 →
            (k.sequence = k'.sequence + 1 ∨ k'.sequence.toNat ≤ k.sequence.toNat) → taken k)
        ∧ (∀ k k', validCopy n c0 = some k → validCopy n c1 = some k' → k'.sequence ≠ k.sequence + 1 →
            k.sequence ≠ k'.sequence + 1 → k.sequence.toNat < k'.sequence.toNat → taken k')

/-! ### The trunk link -/

/-- What the characters collected after a C3h amount to. A length field above 300 makes a bad frame at its second character. With
a length up to 300, that many body characters and two check characters make a good frame of these fields when the check is that
of the characters before it, and a bad one when it is not; any other number of characters is no whole frame. A trunk frame as
the bridge sends it is received back as that frame (R10, R15, sections 1.3 and 1.6). -/
def Obligations.TrunkFrameIsGoodBadOrUnfinished : Prop :=
  (∀ (kind t0 t1 outcome n0 n1 : Byte) (rest : List Byte),
      let n := n0.toNat + 256 * n1.toNat
      let header := [kind, t0, t1, outcome, n0, n1]
      (300 < n → receiveTrunk header = .bad ∧ (rest ≠ [] → receiveTrunk (header ++ rest) = .unfinished))
        ∧ (n ≤ 300 → rest.length ≠ n + 2 → receiveTrunk (header ++ rest) = .unfinished)
        ∧ ∀ body b a, n ≤ 300 → body.length = n →
            let sums := fletcher16 (header ++ body)
            let received := receiveTrunk (header ++ body ++ [b, a])
            (b = u8 sums.2 → a = u8 sums.1 →
                received =
                  .good
                    { kind := kind, tag := BitVec.ofNat 16 (t0.toNat + 256 * t1.toNat), outcome := outcome, body := body })
              ∧ ((b ≠ u8 sums.2 ∨ a ≠ u8 sums.1) → received = .bad))
    ∧ (∀ chars : List Byte, chars.length < 6 → receiveTrunk chars = .unfinished)
    ∧ ∀ f : TrunkFrame, f.body.length ≤ 300 →
        f.wire = 0xC3 :: f.wire.tail ∧ receiveTrunk f.wire.tail = .good f ∧ f.wire.length = f.body.length + 9

/-- TRUNK_FRAME_START collects after a C3h while hunting; TRUNK_FRAME_SENT frees the one entry on the link; at the end of every
command an idle transmitter begins the frame that became WAITING first, when no other became WAITING at the same moment, and a
busy one, or one with nothing WAITING, begins nothing; the end of a command changes nothing else but the model's count of
moments (R10, R181; log entry 34). -/
def Obligations.TrunkLinkFramesStartAndEnd : Prop :=
  ∀ s : State,
    (s.trunk.rx = .hunting →
        exec .trunkFrameStart s = .next (endCommand { s with trunk := { s.trunk with rx := .collecting } }))
      ∧ (∀ i f, i < 24 → s.trunk.egress[i]? = some (.sending f) →
          (∀ j g, j < i → s.trunk.egress[j]? ≠ some (.sending g)) →
          exec .trunkFrameSent s =
            .next (endCommand
              { s with trunk := { s.trunk with egress := s.trunk.egress.setIfInBounds i .free } }))
      ∧ (endCommand s = { s with trunk := (endCommand s).trunk, moment := s.moment + 1 })
      ∧ (s.transmitting = true → (endCommand s).trunk = s.trunk)
      ∧ (s.trunk.order = [] → (endCommand s).trunk = s.trunk)
      ∧ (∀ w rest f, s.transmitting = false → s.trunk.order = w :: rest → (∀ x ∈ rest, x.moment ≠ w.moment) →
          s.trunk.egress[w.entry]? = some (.waiting f) →
          (endCommand s).trunk =
            { s.trunk with egress := s.trunk.egress.setIfInBounds w.entry (.sending f), order := rest })

/-- A good frame joins the tail of an ingress that holds fewer than 16 frames; at 16 it is dropped, counted, and INGRESS_OVERRUN is
raised. A bad frame and a character gap give no answer, raise TRUNK_CHECK and leave ingress and the drop count as they are; but
for the FLAG notice of a flag that rises with bit 0 of the mask set, egress is that of the end of a command. The
receiver then hunts, or collects at once when the character that ends a gap is C3h. That a gap with no character yet raises
TRUNK_CHECK at once is the model's choice, its reading of R10 (log entry 20) (R10, R180, R182). -/
def Obligations.ReceivedFramesJoinIngressOrRaiseFlags : Prop :=
  ∀ s : State, s.trunk.rx = .collecting →
    let raised := fun (c : Instr) (rx : RxCondition) (flag : Flag) (dropped : Word32) =>
      ∃ t, exec c s = .next t ∧ t.trunk.rx = rx ∧ t.flagSet flag = true ∧ t.trunk.ingress = s.trunk.ingress
        ∧ t.trunk.ingressDrop = s.trunk.ingressDrop + dropped ∧ t.restore = s.restore ∧ t.segment = s.segment
        ∧ t.store = s.store ∧ t.tables = s.tables ∧ t.shadow = s.shadow ∧ t.hold = s.hold ∧ t.gap = s.gap
        ∧ ((s.flagSet flag = true ∨ s.responder.mask.getLsbD 0 = false) →
            t.trunk.egress = (endCommand s).trunk.egress ∧ t.trunk.order = (endCommand s).trunk.order
              ∧ t.trunk.reportLost = s.trunk.reportLost)
    (∀ chars f, receiveTrunk chars = .good f →
        (s.trunk.ingress.length < 16 →
            exec (.goodFrame chars) s =
              .next (endCommand
                { s with trunk := { s.trunk with rx := .hunting, ingress := s.trunk.ingress ++ [f] } }))
          ∧ (s.trunk.ingress.length = 16 → raised (.goodFrame chars) .hunting .ingressOverrun 1))
      ∧ (∀ chars, receiveTrunk chars = .bad → raised (.badFrame chars) .hunting .trunkCheck 0)
      ∧ raised (.trunkCharacterGap (some 0xC3)) .collecting .trunkCheck 0
      ∧ ∀ ender, ender ≠ some 0xC3 → raised (.trunkCharacterGap ender) .hunting .trunkCheck 0

/-- A report or a notice without a reservation takes a FREE egress entry, or is lost: the report-lost count goes up by 1 and
EGRESS_OVERFLOW is raised, whose own FLAG notice, while bit 0 of the mask is set, is lost and counted in the same way. A FLAG
notice is offered at a rising only, while bit 0 is set, a NODE STATE notice while bit 1 is, a GAP notice while bit 2 is; with the
bit clear nothing is offered and nothing lost. Shown for GLITCH, an entry to MISSING, a gap start and a gap end of a pair without
configured nodes, and an EXPIRED report; a report whose entry holds a reservation fills it (R13, R31, R41, R130, R132, R133,
R181, R193, R194). -/
def Obligations.ReportsAndNoticesTakeFreeEntryOrAreLost : Prop :=
  ∀ s : State,
    let now := s.gap.clock
    let bit := fun (n : Nat) => s.responder.mask.getLsbD n
    let notice := fun (body : List Byte) => ({ kind := 0x44, tag := 0, outcome := 0, body := body } : TrunkFrame)
    let lose := fun (n : Word32) (u : State) =>
      { u with
        trunk := { u.trunk with reportLost := u.trunk.reportLost + n }
        responder := { u.responder with flags := u.responder.flags ||| 0x004#10 } }
    let offers := fun (c : Instr) (u : State) (f : TrunkFrame) =>
      (∀ i, s.freeEntry = some i → exec c s = .next (endCommand (u.fills i f)))
        ∧ (s.freeEntry = none → (s.flagSet .egressOverflow = true ∨ bit 0 = false) →
            exec c s = .next (endCommand (lose 1 u)))
        ∧ (s.freeEntry = none → s.flagSet .egressOverflow = false → bit 0 = true →
            exec c s = .next (endCommand (lose 2 u)))
    let masked := fun (n : Nat) (c : Instr) (u : State) (body : List Byte) =>
      (bit n = false → exec c s = .next (endCommand u)) ∧ (bit n = true → offers c u (notice body))
    (∀ start e x, s.gap.gapHigh ≠ s.straps.gapPol → s.gap.condition = .endPending start e x →
        let u := { s with gap := { s.gap with gapHigh := !s.gap.gapHigh, condition := .inGap start } }
        (s.flagSet .glitch = true → exec .gapEdgeAbsent s = .next (endCommand u))
          ∧ (s.flagSet .glitch = false →
              masked 0 .gapEdgeAbsent
                { u with responder := { s.responder with flags := s.responder.flags ||| 0x200#10 } } [1, 9]))
      ∧ (∀ a r opens, s.runtime a = some r → r.state = .awaitBoot → r.window = some (opens, now) → r.step = .none →
          masked 1 (.bootWindowClose a)
            (s.setRuntime a
              (some
                { r with
                  state := .missing, window := none, phase := none, step := .waiting
                  nextProbe := some (now + BitVec.ofNat 32 (s.tables.params.missingInterval * 1000)) }))
            [2, u8 a, 5])
      ∧ ((∀ a, s.entry a = none ∧ s.reserve a = none) →
          (∀ edge, s.gap.condition = .startPending edge now →
              masked 2 .gapStart
                { s with gap := { s.gap with condition := .inGap edge, aged := false, gapSet := [] } }
                ([3, 0] ++ le32 edge ++ [0, 0, 0, 0, 0]))
            ∧ (∀ start edge, s.gap.condition = .endPending start edge now → s.gap.gapSet = [] →
                let d := if s.gap.aged then 65535 else min (edge - start).toNat 65535
                masked 2 .gapEnd { s with gap := { s.gap with condition := .supplied, lastD := d } }
                  ([3, 1] ++ le32 edge ++ le16n d ++ [0, 0, 0])))
      ∧ (∀ a k e tag, (s.queue a)[k]? = some e → e.expiry = some now → e.inFlight = false → s.nodeState a ≠ .release →
          e.tag = some tag →
          let u := { s with hold := { queues := putNode s.hold.queues a ((s.queue a).eraseIdx k) } }
          let f : TrunkFrame := { kind := 0x43, tag := tag, outcome := 0x21, body := [u8 e.node] }
          (∀ i, e.reservation = some i → exec (.holdExpiry a k) s = .next (endCommand (u.fills i f)))
            ∧ (e.reservation = none → offers (.holdExpiry a k) u f))

/-- A take needs a FREE egress entry: the entry reserved is one of the 24 and FREE, and while none is FREE the head of ingress
stays and no take changes anything (R94). -/
def Obligations.TakeNeedsFreeEgressEntry : Prop :=
  ∀ s : State,
    (∀ i, s.freeEntry = some i → i < 24 ∧ s.trunk.egress[i]? = some .free)
      ∧ (s.freeEntry = none ↔ ∀ i, i < 24 → s.trunk.egress[i]? ≠ some .free)
      ∧ (s.freeEntry = none →
          exec .segmentRequest s = .next s ∧ exec .unknownRequest s = .next s ∧ exec .nonRequestFrame s = .next s
            ∧ ∀ k : RequestCode, exec k.command s = .next s)

/-! ### Classification -/

/-- The field tests of a SEGMENT REQUEST, and the fields a valid one gives (R11). -/
def Obligations.SegmentRequestFieldTests : Prop :=
  ∀ f : TrunkFrame,
    (parseSegmentRequest f = none ↔
        f.outcome ≠ 0 ∨ f.body.length < 3 ∨ 67 < f.body.length ∨ byteAt f.body 0 = 0
          ∨ 31 < (byteAt f.body 0).toNat
          ∨ (byteAt f.body 1 ≠ 0x10 ∧ byteAt f.body 1 ≠ 0x11 ∧ byteAt f.body 1 ≠ 0x12)
          ∨ (byteAt f.body 1 = 0x12 ∧ byteAt f.body 0 ≠ 31) ∨ (byteAt f.body 0 = 31 ∧ byteAt f.body 1 ≠ 0x12))
      ∧ ∀ q, parseSegmentRequest f = some q →
          q.tag = f.tag ∧ q.destination = (byteAt f.body 0).toNat ∧ q.kind.segment.code = byteAt f.body 1
            ∧ q.function = byteAt f.body 2 ∧ q.payload = f.body.drop 3

/-- A malformed SEGMENT REQUEST is answered MALFORMED and matched against no rule; one whose matched rule says DISCARD is
counted and answered FILTERED. A FORWARDed broadcast is answered QUEUE_FULL at a full pass queue; else it joins its sub-queue
with the ONLINE members of its rule's set as live members. The members in an absent state are treated at once: under REFUSE
nothing is held or captured for them; under QUEUE each gets an untagged copy at the tail of its hold queue while its cap
allows; under LATEST the frame is captured with the pending mark into each one's slot (R96, R97, R103, R104, R115, R128). -/
def Obligations.SegmentRequestMalformedFilteredOrBroadcast : Prop :=
  ∀ (s : State) (f : TrunkFrame) (rest : List TrunkFrame) (i : Nat), s.Heads f rest i → f.kind = 0x01 →
    let answer := fun (u : State) (code : Byte) =>
      exec .segmentRequest s =
        .next (endCommand (u.answered rest i { kind := 0x41, tag := f.tag, outcome := code, body := [] }))
    (parseSegmentRequest f = none → answer s 0x0C)
      ∧ ∀ q, parseSegmentRequest f = some q →
          let m := s.tables.matched q
          let u := countMatch m.ref q.payload.length s
          let members := match m.set with | some k => s.tables.set k | none => addresses
          let e : PassEntry :=
            { tag := f.tag, destination := 31, kind := .broadcast, function := q.function, payload := q.payload
              rule := m.ref, action := m.action.part, misses := 0, reservation := i
              live := addresses.filter (fun a => decide (a ∈ members ∧ s.nodeState a = .online)) }
          let away := fun (a : Nat) => decide (a ∈ members) && (s.nodeState a).isAbsent
          let copy := fun (a : Nat) (n : NodeEntry) =>
            ({ tag := none, node := a, kind := .broadcast, function := q.function, payload := q.payload, rule := m.ref
               slot := m.action.part.slot, policy := m.action.part.replay, arrival := s.gap.clock
               expiry := if n.holdLifetime = 0 then none else some (s.gap.clock + BitVec.ofNat 32 (n.holdLifetime * 100))
               reservation := none, inFlight := false } : HoldEntry)
          (m.action.verdict = .discard → answer u 0x05)
            ∧ (m.action.verdict = .forward → q.kind = .broadcast → 32 ≤ s.passLength → answer u 0x06)
            ∧ (m.action.verdict = .forward → q.kind = .broadcast → s.passLength < 32 →
                ∃ t, exec .segmentRequest s = .next t
                  ∧ t.segment =
                      (match m.action.part.urgency with
                        | .urgent => { s.segment with urgent := s.segment.urgent ++ [e] }
                        | .normal => { s.segment with normal := s.segment.normal ++ [e] })
                  ∧ t.counters = u.counters ∧ t.trunk.ingress = rest ∧ t.restore = s.restore
                  ∧ (m.action.part.absent = .refuse → t.hold = s.hold ∧ t.shadow = s.shadow)
                  ∧ (m.action.part.absent = .queue → t.shadow = s.shadow
                      ∧ ((addresses.filter away).length ≤ s.holdFree →
                          ∀ a n, s.entry a = some n →
                            t.queue a =
                              if away a ∧ (s.queue a).length < n.holdCap then s.queue a ++ [copy a n] else s.queue a))
                  ∧ (m.action.part.absent = .latest → t.hold = s.hold
                      ∧ ∀ k a n, m.action.part.slot = some k → s.entry a = some n → away a = true → k < n.shadowCount →
                          n.shadowBase + k < 96 → (∀ b d, b ≠ a → s.entry b = some d → d.shadowBase ≠ n.shadowBase) →
                          t.slot (n.shadowBase + k) =
                            some
                              { node := a, relative := k, rule := m.ref, policy := m.action.part.replay
                                kind := .broadcast, function := q.function, payload := q.payload, marked := true }
                            ∧ t.replayList a =
                                (s.replayList a).filter (fun j => decide (j ≠ n.shadowBase + k))
                                  ++ [n.shadowBase + k]
                            ∧ t.replayInFlight a =
                                (s.replayInFlight a).map
                                  (fun g => if g.slot = n.shadowBase + k then { g with replaced := true } else g)))

/-- A FORWARDed unicast request is disposed of by its destination's state: an entry at the tail of its sub-queue, or
QUEUE_FULL, for UNCONFIGURED and ONLINE; NODE_FAILED and NODE_ISOLATED; under REFUSE in an absent state other than RELEASE,
NO_REPLY or NO_REPLY_GAP (R98, R99, R102). -/
def Obligations.UnicastDispositionByNodeState : Prop :=
  ∀ (s : State) (f : TrunkFrame) (rest : List TrunkFrame) (i : Nat) (q : SegmentRequest),
    s.Heads f rest i → f.kind = 0x01 → parseSegmentRequest f = some q → q.kind ≠ .broadcast →
    (s.tables.matched q).action.verdict = .forward →
    let m := s.tables.matched q
    let u := countMatch m.ref q.payload.length s
    let st := s.nodeState q.destination
    let answer := fun (code : Byte) =>
      exec .segmentRequest s =
        .next (endCommand (u.answered rest i { kind := 0x41, tag := f.tag, outcome := code, body := [] }))
    let e : PassEntry :=
      { tag := f.tag, destination := q.destination, kind := q.kind, function := q.function, payload := q.payload
        rule := m.ref, action := m.action.part, live := [], misses := 0, reservation := i }
    ((st = .unconfigured ∨ st = .online) → s.passLength < 32 → e.action.urgency = .normal →
        exec .segmentRequest s =
          .next (endCommand
            { u.reserved rest i with segment := { s.segment with normal := s.segment.normal ++ [e] } }))
      ∧ ((st = .unconfigured ∨ st = .online) → s.passLength < 32 → e.action.urgency = .urgent →
          exec .segmentRequest s =
            .next (endCommand
              { u.reserved rest i with segment := { s.segment with urgent := s.segment.urgent ++ [e] } }))
      ∧ ((st = .unconfigured ∨ st = .online) → 32 ≤ s.passLength → answer 0x06)
      ∧ (st = .failed → answer 0x09)
      ∧ (st = .isolated → answer 0x0A)
      ∧ (st.isAbsent = true → st ≠ .release → e.action.absent = .refuse → s.gapInProgress = false → answer 0x07)
      ∧ (st.isAbsent = true → st ≠ .release → e.action.absent = .refuse → s.gapInProgress = true → answer 0x08)

/-- A FORWARDed unicast request to a node in an absent state under QUEUE, or to one in RELEASE under QUEUE or REFUSE, joins the
tail of the node's hold queue and is answered HELD while the cap and the pool allow, else HOLD_FULL. Under LATEST it is captured
with the pending mark into the slot its rule names, whatever the slot held, and answered STORED; a replay of that slot on the wire
gets its replaced mark, and one of another slot does not (R98, R100, R101, R112, R115, R128). -/
def Obligations.AbsentNodeHoldsOrStoresRequest : Prop :=
  ∀ (s : State) (f : TrunkFrame) (rest : List TrunkFrame) (i : Nat) (q : SegmentRequest) (n : NodeEntry),
    s.Heads f rest i → f.kind = 0x01 → parseSegmentRequest f = some q → q.kind ≠ .broadcast →
    (s.tables.matched q).action.verdict = .forward → s.entry q.destination = some n →
    let m := s.tables.matched q
    let a := q.destination
    let u := countMatch m.ref q.payload.length s
    let held : HoldEntry :=
      { tag := some f.tag, node := a, kind := q.kind, function := q.function, payload := q.payload, rule := m.ref
        slot := m.action.part.slot, policy := m.action.part.replay, arrival := s.gap.clock
        expiry := if n.holdLifetime = 0 then none else some (s.gap.clock + BitVec.ofNat 32 (n.holdLifetime * 100))
        reservation := none, inFlight := false }
    let holds := ((s.nodeState a).isAbsent = true ∧ m.action.part.absent = .queue)
      ∨ (s.nodeState a = .release ∧ m.action.part.absent = .refuse)
    (holds → (s.queue a).length < n.holdCap → 0 < s.holdFree →
        exec .segmentRequest s =
          .next (endCommand
            ({ u with hold := { queues := putNode s.hold.queues a (s.queue a ++ [held]) } }.answered rest i
              { kind := 0x41, tag := f.tag, outcome := 0x02, body := [] })))
      ∧ (holds → (n.holdCap ≤ (s.queue a).length ∨ s.holdFree = 0) →
          exec .segmentRequest s =
            .next (endCommand (u.answered rest i { kind := 0x41, tag := f.tag, outcome := 0x04, body := [] })))
      ∧ (∀ k, (s.nodeState a).isAbsent = true → m.action.part.absent = .latest → m.action.part.slot = some k →
          k < n.shadowCount → n.shadowBase + k < 96 →
          ∃ t, exec .segmentRequest s = .next t
            ∧ t.slot (n.shadowBase + k) =
                some
                  { node := a, relative := k, rule := m.ref, policy := m.action.part.replay, kind := q.kind
                    function := q.function, payload := q.payload, marked := true }
            ∧ t.replayList a = (s.replayList a).filter (fun j => decide (j ≠ n.shadowBase + k)) ++ [n.shadowBase + k]
            ∧ (∀ j, j ≠ n.shadowBase + k → t.slot j = s.slot j) ∧ t.hold = s.hold ∧ t.restore = s.restore
            ∧ t.replayInFlight a =
                (s.replayInFlight a).map
                  (fun g => if g.slot = n.shadowBase + k then { g with replaced := true } else g)
            ∧ (∀ b, b ≠ a → t.replayInFlight b = s.replayInFlight b)
            ∧ t.segment = s.segment ∧ t.Shows i { kind := 0x41, tag := f.tag, outcome := 0x03, body := [] })

/-- The first present rule in index order that takes a request is its matched rule; the default rule takes the rest (R88, R92,
R97). A payload selector matches by the byte under its mask (R89). -/
def Obligations.FirstMatchingRuleDecides : Prop :=
  (∀ (t : Tables) (q : SegmentRequest) (k : Nat) (r : Rule), k < 48 → t.rule k = some r → r.takes t q = true →
      (∀ j r', j < k → t.rule j = some r' → r'.takes t q = false) →
      t.matched q = { ref := .rule k, set := r.set, action := r.action })
    ∧ (∀ (t : Tables) (q : SegmentRequest), (∀ j r', j < 48 → t.rule j = some r' → r'.takes t q = false) →
        t.matched q = { ref := .defaultRule, set := none, action := t.defaultAction })
    ∧ (∀ (t : Tables) (q : SegmentRequest) (r : Rule),
        r.takes t q = true ↔
          (∀ k, r.set = some k → if q.kind = .broadcast then t.set k ≠ [] else q.destination ∈ t.set k)
            ∧ (q.kind = .command → r.onCommand = true) ∧ (q.kind = .query → r.onQuery = true)
            ∧ (q.kind = .broadcast → r.onBroadcast = true)
            ∧ r.low.toNat ≤ q.function.toNat ∧ q.function.toNat ≤ r.high.toNat
            ∧ ∀ x, r.selector = some x → ∃ b, q.payload[x.index]? = some b ∧ b &&& x.mask = x.value &&& x.mask)

/-! ### Management requests: the take and the reads -/

/-- What the Management Responder answers before a request's own rule. A frame of a kind other than the two request kinds, and an
empty MANAGEMENT REQUEST, are answered MALFORMED with an empty body; an unknown request code is answered UNKNOWN_REQUEST, or
MALFORMED where the outcome field is not 0, with the code as its body. A known request is MALFORMED for an outcome other than 0
or a wrong argument length; MODE in SERVICE for the table writes and the loading requests; BUSY for ISOLATE NODE and RESTORE NODE
while an engine restart is pending. None has any other effect. That UNKNOWN_REQUEST is the command that takes an empty MANAGEMENT
REQUEST, or an unknown code with an outcome other than 0, is the model's choice (log entry 19) (R11, R12, R14, R182,
R183). -/
def Obligations.FramesAndRequestsAreJudgedInOrder : Prop :=
  (∀ (s : State) (f : TrunkFrame) (rest : List TrunkFrame) (i : Nat), s.Heads f rest i →
      let answer := fun (c : Instr) (code : Byte) (body : List Byte) =>
        exec c s = .next (endCommand (s.answered rest i { kind := 0x42, tag := f.tag, outcome := code, body := body }))
      (f.kind ≠ 0x01 → f.kind ≠ 0x02 → answer .nonRequestFrame 0x0C [])
        ∧ (f.kind = 0x02 → f.body = [] → answer .unknownRequest 0x0C [])
        ∧ (∀ c args, f.kind = 0x02 → f.body = c :: args → (∀ k : RequestCode, k.code ≠ c) → f.outcome = 0 →
            answer .unknownRequest 0x39 [c])
        ∧ (∀ c args, f.kind = 0x02 → f.body = c :: args → (∀ k : RequestCode, k.code ≠ c) → f.outcome ≠ 0 →
            answer .unknownRequest 0x0C [c]))
    ∧ ∀ (k : RequestCode) (s : State) (tag : Word16) (outcome : Byte) (args : List Byte) (rest : List TrunkFrame)
        (i : Nat), s.HeadsRequest k tag outcome args rest i →
        let answer := fun (c : AnswerCode) => exec k.command s = .next (endCommand (s.replies k tag rest i c []))
        let fits := outcome = 0 ∧ argumentsFit k args = true
        (¬ fits → answer .malformed)
          ∧ (fits → s.responder.mode = .service →
              k ∈ [RequestCode.writeRule, .writeDefault, .writeSet, .writeNode, .writeConfigRecord, .writeParameters,
                .imageOpen, .imageBlock, .imageClose, .imageDiscard, .imageDrop] → answer .mode)
          ∧ (fits → s.segment.restartPending = true → k ∈ [RequestCode.isolateNode, .restoreNode] → answer .busy)

/-- READ STATUS takes no argument and is answered DONE in both modes with 40 bytes built from each block at the take, in the
order of R184; the entry reserved for the answer is not counted as free. -/
def Obligations.ReadStatusAnswersEveryBlock : Prop :=
  ∀ (s : State) (tag : Word16) (rest : List TrunkFrame) (i : Nat), s.Asks .readStatus tag [] rest i →
    let nodes := fun (n : Nat) => (addresses.filter (fun a => decide ((s.nodeState a).code = n))).length
    let data : List Byte :=
      [(match s.responder.mode with | .depot => 0 | .service => 1 : Byte)]
        ++ [s.responder.flags.setWidth 8, (s.responder.flags.extractLsb' 8 2).setWidth 8]
        ++ [u8 (16 - rest.length), u8 (s.egressFree - 1), u8 s.passLength, u8 s.holdFree]
        ++ (List.range 12).map (fun n => u8 (nodes n))
        ++ [if s.gapInProgress then 1 else 0] ++ le16n s.gap.lastD
        ++ [if s.segment.restartPending then 1 else 0, if s.storeBusy then 1 else 0]
        ++ le32 s.gap.clock ++ le32 s.trunk.reportLost ++ le32 s.shadow.missCount ++ le32 s.trunk.ingressDrop
    data.length = 40 ∧ ((List.range 12).map nodes).sum = 30
      ∧ exec .readStatus s = .next (endCommand (s.replies .readStatus tag rest i .done data))

/-- READ NODE's data for a configured and for an unconfigured address, and INVALID outside 1..30; the five node counters read
and cleared with subject node (R62). -/
def Obligations.ReadNodeAndNodeCounters : Prop :=
  ∀ (s : State) (tag : Word16) (rest : List TrunkFrame) (i : Nat) (b : Byte),
    let a := b.toNat
    let node := fun (u : State) (c : AnswerCode) (data : List Byte) =>
      exec .readNode s = .next (endCommand (u.replies .readNode tag rest i c data))
    let read := fun (c : AnswerCode) (data : List Byte) =>
      exec .readCounters s = .next (endCommand (s.replies .readCounters tag rest i c data))
    let clear := fun (u : State) (c : AnswerCode) =>
      exec .clearCounters s = .next (endCommand (u.replies .clearCounters tag rest i c []))
    (s.Asks .readNode tag [b] rest i →
        ((a = 0 ∨ 30 < a) → node s .invalid [])
          ∧ (∀ e r x, s.entry a = some e → s.runtime a = some r → s.reserve a = some x →
              node s .done
                ([b] ++ nodeRecord (some e) ++ [u8 r.state.code]
                  ++ (match r.bootCount with | some v => [v, 0] | none => [0xFF, 0xFF])
                  ++ [u8 r.noReply, u8 r.attempts] ++ [match r.phase with | some p => u8 p.code | none => 0xFF]
                  ++ le16n x.estimate
                  ++ (match r.window with | some w => le32 w.1 ++ le32 w.2 | none => List.replicate 8 0)
                  ++ (match r.expected with | some v => 1 :: le16 v | none => [0, 0, 0])
                  ++ [u8 (s.queue a).length, u8 (s.pendingSlots a).length]))
          ∧ (1 ≤ a → a ≤ 30 → s.entry a = none → s.runtime a = none →
              node s .done ([b] ++ List.replicate 19 0 ++ [0xFF, 0xFF] ++ List.replicate 18 0)))
      ∧ (s.Asks .readCounters tag [1, b] rest i →
          ((a = 0 ∨ 30 < a) → read .invalid [])
            ∧ (∀ r, s.runtime a = some r →
                read .done (le32 r.restores ++ le32 r.survived ++ le32 r.lost ++ le32 r.refusals
                  ++ le32 r.passNoReplies))
            ∧ (1 ≤ a → a ≤ 30 → s.runtime a = none → read .done (List.replicate 20 0)))
      ∧ (s.Asks .clearCounters tag [1, b] rest i →
          ((a = 0 ∨ 30 < a) → clear s .invalid)
            ∧ (∀ r, s.runtime a = some r →
                clear
                  { s with
                    restore :=
                      { s.restore with
                        nodes := putNode s.restore.nodes a
                          (some { r with restores := 0, survived := 0, lost := 0, refusals := 0, passNoReplies := 0 }) } }
                  .done)
            ∧ (1 ≤ a → a ≤ 30 → s.runtime a = none → clear s .done))

/-- READ COUNTERS and CLEAR COUNTERS with subject global and subject rule; a second argument other than 0 with subject global,
an index that names no rule, and a subject above 2 are INVALID; no flag is cleared with its counter (R106, R185). -/
def Obligations.GlobalAndRuleCounters : Prop :=
  ∀ (s : State) (tag : Word16) (rest : List TrunkFrame) (i : Nat) (subject b : Byte),
    let k := b.toNat
    let read := fun (c : AnswerCode) (data : List Byte) =>
      exec .readCounters s = .next (endCommand (s.replies .readCounters tag rest i c data))
    let clear := fun (u : State) (c : AnswerCode) =>
      exec .clearCounters s = .next (endCommand (u.replies .clearCounters tag rest i c []))
    let bad := (subject = 0 ∧ b ≠ 0) ∨ (subject = 2 ∧ 48 ≤ k ∧ k ≠ 255) ∨ 2 < subject.toNat
    (s.Asks .readCounters tag [subject, b] rest i →
        (bad → read .invalid [])
          ∧ (subject = 0 → b = 0 →
              read .done (le32 s.trunk.reportLost ++ le32 s.shadow.missCount ++ le32 s.trunk.ingressDrop))
          ∧ (∀ c, subject = 2 → s.counters.rules[k]? = some c → read .done (le32 c.frames ++ le32 c.bytes))
          ∧ (subject = 2 → k = 255 →
              read .done (le32 s.counters.defaultRule.frames ++ le32 s.counters.defaultRule.bytes)))
      ∧ (s.Asks .clearCounters tag [subject, b] rest i →
          (bad → clear s .invalid)
            ∧ (subject = 0 → b = 0 →
                clear
                  { s with
                    trunk := { s.trunk with reportLost := 0, ingressDrop := 0 }
                    shadow := { s.shadow with missCount := 0 } }
                  .done)
            ∧ (subject = 2 → k < 48 →
                clear
                  { s with
                    counters :=
                      { s.counters with rules := s.counters.rules.setIfInBounds k { frames := 0, bytes := 0 } } }
                  .done)
            ∧ (subject = 2 → k = 255 →
                clear { s with counters := { s.counters with defaultRule := { frames := 0, bytes := 0 } } } .done))

/-- READ RULE: the index and the 14-byte record of the active rule, all zero for an empty entry; for FFh the default rule shown
as a rule that matches every request; INVALID for any other index; in both modes (R93). -/
def Obligations.ReadRuleAnswersRecord : Prop :=
  ∀ (s : State) (tag : Word16) (rest : List TrunkFrame) (i : Nat) (b : Byte), s.Asks .readRule tag [b] rest i →
    let read := fun (c : AnswerCode) (data : List Byte) =>
      exec .readRule s = .next (endCommand (s.replies .readRule tag rest i c data))
    let slot := fun (x : Option Nat) => match x with | some n => u8 n | none => (0xFF : Byte)
    let action := fun (x : Action) =>
      [x.verdict.code, slot x.part.slot, x.part.absent.code, x.part.urgency.code, x.part.replay.code]
    let bit := fun (x : Bool) (n : Nat) => if x then n else 0
    (b.toNat < 48 → s.tables.rule b.toNat = none → read .done (b :: List.replicate 14 0))
      ∧ (∀ r, b.toNat < 48 → s.tables.rule b.toNat = some r →
          read .done
            (b :: ([1, slot r.set, u8 (bit r.onCommand 1 + bit r.onQuery 2 + bit r.onBroadcast 4), r.low, r.high]
              ++ (match r.selector with | some q => [1, u8 q.index, q.value, q.mask] | none => [0, 0, 0, 0])
              ++ action r.action)))
      ∧ (b = 0xFF → read .done ([0xFF, 1, 0xFF, 7, 0, 0xFF, 0, 0, 0, 0] ++ action s.tables.defaultAction))
      ∧ (48 ≤ b.toNat → b ≠ 0xFF → read .invalid [])

/-- READ SHADOW: the slot as it stands, with its owner, the node whose active range holds it, or 0; an invalid slot reads its
number and its owner and zeros; INVALID above 95; in both modes, and nothing of the shadow changes (R124). -/
def Obligations.ReadShadowAnswersSlot : Prop :=
  ∀ (s : State) (tag : Word16) (rest : List TrunkFrame) (i : Nat) (b : Byte) (owner : Nat),
    s.Asks .readShadow tag [b] rest i →
    let n := b.toNat
    let holds := fun (a : Nat) => ∃ e, s.entry a = some e ∧ e.shadowBase ≤ n ∧ n < e.shadowBase + e.shadowCount
    let read := fun (c : AnswerCode) (data : List Byte) =>
      exec .readShadow s = .next (endCommand (s.replies .readShadow tag rest i c data))
    ((owner = 0 ∧ ∀ a, ¬ holds a) ∨ (holds owner ∧ ∀ a, holds a → a = owner)) →
    (95 < n → read .invalid [])
      ∧ (n ≤ 95 → s.slot n = none → read .done ([b, 0, u8 owner] ++ List.replicate 8 0))
      ∧ (∀ r p, n ≤ 95 → s.slot n = some r → (s.replayList owner)[p]? = some n →
          (∀ q, q < p → (s.replayList owner)[q]? ≠ some n) →
          read .done
            ([b, 1, u8 owner, u8 r.relative, r.rule.code, r.policy.code, (if r.marked then 1 else 0), u8 (p + 1),
              r.kind.segment.code, r.function, u8 r.payload.length] ++ r.payload))

/-! ### Management requests: the tables, the identity, the flags -/

/-- READ SET gives the active set in ascending order, in both modes; WRITE SET, MODE in SERVICE, replaces the whole of a set of
the edit copy and gives it back in ascending order, and refuses an index above 7, a count above 30, a member outside 1..30 and
an address given twice (R87). -/
def Obligations.AddressSetsReadAndWritten : Prop :=
  ∀ (s : State) (tag : Word16) (rest : List TrunkFrame) (i : Nat) (b n : Byte) (ms : List Byte),
    let ascending := fun (m : List Nat) => addresses.filter (fun a => decide (a ∈ m))
    let shown := fun (m : List Nat) => [b, u8 (ascending m).length] ++ (ascending m).map u8
    let bad := 7 < b.toNat ∨ 30 < n.toNat ∨ (∃ m ∈ ms, m = 0 ∨ 30 < m.toNat) ∨ ¬ ms.Nodup
    let read := fun (c : AnswerCode) (data : List Byte) =>
      exec .readSet s = .next (endCommand (s.replies .readSet tag rest i c data))
    let write := fun (u : State) (c : AnswerCode) (data : List Byte) =>
      exec .writeSet s = .next (endCommand (u.replies .writeSet tag rest i c data))
    (s.Asks .readSet tag [b] rest i →
        (∀ m, s.tables.sets[b.toNat]? = some m → read .done (shown m)) ∧ (7 < b.toNat → read .invalid []))
      ∧ (s.Asks .writeSet tag (b :: n :: ms) rest i →
          (s.responder.mode = .service → write s .mode [])
            ∧ (s.responder.mode = .depot → bad → write s .invalid [])
            ∧ (s.responder.mode = .depot → ¬ bad →
                write
                  (s.edited
                    { s.responder.edit with
                      sets := s.responder.edit.sets.setIfInBounds b.toNat (ascending (ms.map BitVec.toNat)) })
                  .done (shown (ms.map BitVec.toNat))))

/-- READ PARAMETERS gives the active record; WRITE PARAMETERS, MODE in SERVICE, clamps each value to its range, stores the
record in the edit copy, answers DONE with the clamped record, and refuses no value (R186). -/
def Obligations.ParametersReadAndWritten : Prop :=
  ∀ (s : State) (tag : Word16) (rest : List TrunkFrame) (i : Nat) (args : List Byte),
    let record := fun (p : Params) =>
      [u8 p.replyTimeout, u8 p.passRetries, u8 p.lostThreshold, u8 p.stepRetries, u8 p.blockRetries,
        u8 p.imageAttempts, u8 p.busyPollInterval, u8 p.busyLimit, u8 p.gapMargin, u8 p.debounce]
        ++ le16n p.callInterval ++ [u8 p.missingInterval, u8 p.restoreRunLimit]
    let v := fun (k : Nat) => (byteAt args k).toNat
    let p : Params :=
      { replyTimeout := max 1 (v 0), passRetries := min 3 (v 1), lostThreshold := max 1 (min 15 (v 2))
        stepRetries := max 1 (min 7 (v 3)), blockRetries := max 1 (min 7 (v 4)), imageAttempts := max 1 (min 3 (v 5))
        busyPollInterval := max 1 (v 6), busyLimit := max 1 (v 7), gapMargin := v 8, debounce := min 50 (v 9)
        callInterval := max 5 (min 1000 (v 10 + 256 * v 11)), missingInterval := max 1 (min 60 (v 12))
        restoreRunLimit := max 1 (min 16 (v 13)) }
    (s.Asks .readParameters tag [] rest i →
        exec .readParameters s =
          .next (endCommand (s.replies .readParameters tag rest i .done (record s.tables.params))))
      ∧ (s.Asks .writeParameters tag args rest i → args.length = 14
          ∧ (s.responder.mode = .service →
              exec .writeParameters s = .next (endCommand (s.replies .writeParameters tag rest i .mode [])))
          ∧ (s.responder.mode = .depot →
              exec .writeParameters s =
                .next (endCommand
                  ((s.edited { s.responder.edit with params := p }).replies .writeParameters tag rest i .done
                    (record p)))))

/-- SET IDENTITY: WRITTEN_ONCE where the identity is written, INVALID for a field out of its range, else written and answered
with the three values; READ IDENTITY gives the written mark and the fields, or the identity-unset value (R192, R3). CLEAR FLAGS
clears the flags named and answers the flag set as it then stands, or refuses a bit above bit 9; SET NOTICE MASK takes the mask,
or refuses a bit above bit 2 (R193, R194). -/
def Obligations.IdentityFlagsAndMaskRequests : Prop :=
  ∀ (s : State) (tag : Word16) (rest : List TrunkFrame) (i : Nat) (c0 c1 p o : Byte),
    let clear := fun (u : State) (c : AnswerCode) (data : List Byte) =>
      exec .clearFlags s = .next (endCommand (u.replies .clearFlags tag rest i c data))
    let mask := fun (u : State) (c : AnswerCode) (data : List Byte) =>
      exec .setNoticeMask s = .next (endCommand (u.replies .setNoticeMask tag rest i c data))
    let car := c0.toNat + 256 * c1.toNat
    let bad := 9999 < car ∨ p = 0 ∨ 8 < p.toNat ∨ 1 < o.toNat
    let write := fun (u : State) (c : AnswerCode) (data : List Byte) =>
      exec .setIdentity s = .next (endCommand (u.replies .setIdentity tag rest i c data))
    let read := fun (data : List Byte) =>
      exec .readIdentity s = .next (endCommand (s.replies .readIdentity tag rest i .done data))
    (s.Asks .setIdentity tag [c0, c1, p, o] rest i →
        (s.responder.identity ≠ none → write s .writtenOnce [])
          ∧ (s.responder.identity = none → bad → write s .invalid [])
          ∧ (s.responder.identity = none → ¬ bad →
              write
                { s with
                  responder :=
                    { s.responder with
                      identity :=
                        some { car := car, position := p.toNat, orientation := if o = 0 then .a else .b } } }
                .done [c0, c1, p, o]))
      ∧ (s.Asks .readIdentity tag [] rest i →
          (s.responder.identity = none → read [0, 0xFF, 0xFF, 0, 0xFF])
            ∧ ∀ x, s.responder.identity = some x →
                read ([(1 : Byte)] ++ le16n x.car ++ [u8 x.position, match x.orientation with | .a => 0 | .b => 1]))
      ∧ (s.Asks .clearFlags tag [c0, c1] rest i →
          (3 < c1.toNat → clear s .invalid [])
            ∧ (c1.toNat ≤ 3 →
                ∃ w : BitVec 10,
                  (∀ n, n < 8 → w.getLsbD n = (s.responder.flags.getLsbD n && !c0.getLsbD n))
                    ∧ (∀ n, n < 2 → w.getLsbD (8 + n) = (s.responder.flags.getLsbD (8 + n) && !c1.getLsbD n))
                    ∧ clear { s with responder := { s.responder with flags := w } } .done
                        [w.setWidth 8, (w.extractLsb' 8 2).setWidth 8]))
      ∧ (s.Asks .setNoticeMask tag [c0] rest i →
          (7 < c0.toNat → mask s .invalid [])
            ∧ (c0.toNat ≤ 7 →
                mask { s with responder := { s.responder with mask := c0.setWidth 3 } } .done [c0]))

/-- WRITE RULE, MODE in SERVICE, judges the 14-byte record by the tests of R91 in DEPOT: INVALID with the edit copy unchanged,
or the entry emptied, or the rule stored with an absent selector's bytes as 0, and the answer gives the record as now held.
WRITE DEFAULT applies the action-part tests and stores the default rule; its answer gives the five fields as now held (R91,
R92). -/
def Obligations.WriteRuleAndDefaultStoreJudgedRecords : Prop :=
  ∀ (s : State) (tag : Word16) (rest : List TrunkFrame) (i : Nat) (b : Byte) (bs : List Byte),
    let depot := s.responder.mode = .depot
    let v := fun (k : Nat) => (byteAt bs k).toNat
    let t := s.responder.edit
    let write := fun (u : State) (c : AnswerCode) (data : List Byte) =>
      exec .writeRule s = .next (endCommand (u.replies .writeRule tag rest i c data))
    let default := fun (u : State) (c : AnswerCode) (data : List Byte) =>
      exec .writeDefault s = .next (endCommand (u.replies .writeDefault tag rest i c data))
    let held := if v 5 = 1 then bs else bs.take 6 ++ [0, 0, 0] ++ bs.drop 9
    let badAction := fun (n : Nat) => 1 < v n ∨ (7 < v (n + 1) ∧ v (n + 1) ≠ 255) ∨ 2 < v (n + 2) ∨ 1 < v (n + 3)
      ∨ 1 < v (n + 4) ∨ (v (n + 1) ≤ 7 ∧ v (n + 2) = 0) ∨ (v (n + 2) = 1 ∧ v (n + 1) = 255)
    let bad := 1 < v 0 ∨ (v 0 = 1 ∧ ((7 < v 1 ∧ v 1 ≠ 255) ∨ v 2 = 0 ∨ 7 < v 2 ∨ v 4 < v 3 ∨ 1 < v 5
      ∨ (v 5 = 1 ∧ 63 < v 6) ∨ badAction 9))
    (s.Asks .writeRule tag (b :: bs) rest i →
        (¬ depot → write s .mode [])
          ∧ (depot → (47 < b.toNat ∨ bad) → write s .invalid [])
          ∧ (depot → b.toNat < 48 → v 0 = 0 →
              write (s.edited { t with rules := t.rules.setIfInBounds b.toNat none }) .done (b :: List.replicate 14 0))
          ∧ (depot → b.toNat < 48 → v 0 = 1 → ¬ bad →
              ∃ r, ruleRecord (some r) = held
                ∧ write (s.edited { t with rules := t.rules.setIfInBounds b.toNat (some r) }) .done (b :: held)))
      ∧ (s.Asks .writeDefault tag bs rest i →
          (¬ depot → default s .mode [])
            ∧ (depot → badAction 0 → default s .invalid [])
            ∧ (depot → ¬ badAction 0 → ∃ a, actionBytes a = bs ∧ default (s.edited { t with defaultAction := a }) .done bs))

/-- WRITE NODE, MODE in SERVICE, judges and clamps the 18-byte record in DEPOT, keeps the config record of a present entry,
empties it with a removal, and answers with the record as now held; WRITE CONFIG RECORD replaces the config record of a present
entry (R37). -/
def Obligations.WriteNodeAndConfigRecord : Prop :=
  ∀ (s : State) (tag : Word16) (rest : List TrunkFrame) (i : Nat) (b : Byte) (bs : List Byte),
    let depot := s.responder.mode = .depot
    let a := b.toNat
    let t := s.responder.edit
    let v := fun (k : Nat) => (byteAt bs k).toNat
    let w := fun (k : Nat) => v k + 256 * v (k + 1)
    let write := fun (u : State) (c : AnswerCode) (data : List Byte) =>
      exec .writeNode s = .next (endCommand (u.replies .writeNode tag rest i c data))
    let config := fun (u : State) (c : AnswerCode) (data : List Byte) =>
      exec .writeConfigRecord s = .next (endCommand (u.replies .writeConfigRecord tag rest i c data))
    let opens := min (w 9) 6000
    let held := bs.take 5 ++ le16n (min (w 5) 4095) ++ le16n (max (w 7) 1) ++ le16n opens
      ++ le16n (max (max (min (w 11) 6000) 1) opens) ++ bs.drop 13
    let bad := a = 0 ∨ 30 < a ∨ 1 < v 0 ∨ (v 0 = 1 ∧ (1 < v 1 ∨ 1 < v 2 ∨ 2 < v 4 ∨ 16 < v 13 ∨ 600 < w 14 ∨ 95 < v 16
      ∨ 8 < v 17))
    (s.Asks .writeNode tag (b :: bs) rest i →
        (¬ depot → write s .mode [])
          ∧ (depot → bad → write s .invalid [])
          ∧ (depot → ¬ bad → v 0 = 0 →
              write (s.edited { t with nodes := putNode t.nodes a none }) .done (b :: List.replicate 18 0))
          ∧ (depot → ¬ bad → v 0 = 1 →
              ∃ e, nodeRecord (some e) = held ∧ (∀ old, t.node a = some old → e.config = old.config)
                ∧ (t.node a = none → e.config = [])
                ∧ write (s.edited { t with nodes := putNode t.nodes a (some e) }) .done (b :: held)))
      ∧ (s.Asks .writeConfigRecord tag (b :: bs) rest i →
          (¬ depot → config s .mode [])
            ∧ (depot → t.node a = none → config s .invalid [])
            ∧ ∀ e, depot → t.node a = some e →
                config (s.edited { t with nodes := putNode t.nodes a (some { e with config := bs }) }) .done [b])

/-! ### Modes -/

/-- SET MODE refuses an unknown code; SET MODE DEPOT copies the active tables into the edit copy; SET MODE SERVICE in SERVICE
changes nothing; in DEPOT it is refused INVALID, with the item kind and the address or index, at the first test of R188 that
fails: range by lowest address, overlap by the lowest address that shares a slot with a lower one (log entry 16), rule by
lowest index, FFh the default rule (R187, R188). -/
def Obligations.SetModeRefusedOrWithoutSwitch : Prop :=
  ∀ (s : State) (tag : Word16) (rest : List TrunkFrame) (i : Nat) (b : Byte), s.Asks .setMode tag [b] rest i →
    let answer := fun (u : State) (c : AnswerCode) (data : List Byte) =>
      exec .setMode s = .next (endCommand (u.replies .setMode tag rest i c data))
    let t := s.responder.edit
    let long := fun (a : Nat) => ∃ e, t.node a = some e ∧ 96 < e.shadowBase + e.shadowCount
    let shares := fun (a c : Nat) => ∃ d e n, t.node a = some d ∧ t.node c = some e ∧ d.shadowBase ≤ n
      ∧ n < d.shadowBase + d.shadowCount ∧ e.shadowBase ≤ n ∧ n < e.shadowBase + e.shadowCount
    let ruleFails := fun (k : Nat) => ∃ r, t.rule k = some r ∧ r.valid = false
    let asked := b = 1 ∧ s.responder.mode = .depot
    (1 < b.toNat → answer s .invalid [])
      ∧ (b = 0 → answer { s with responder := { s.responder with edit := s.tables, mode := .depot } } .done [0])
      ∧ (b = 1 → s.responder.mode = .service → answer s .done [1])
      ∧ (∀ a, asked → long a → (∀ c, c < a → ¬ long c) → answer s .invalid [1, u8 a])
      ∧ (∀ a c, asked → (∀ x, ¬ long x) → c < a → shares c a → (∀ x y, x < y → y < a → ¬ shares x y) →
          answer s .invalid [2, u8 a])
      ∧ (∀ k, asked → (∀ x, ¬ long x) → (∀ x y, x < y → ¬ shares x y) → k < 48 → ruleFails k →
          (∀ j, j < k → ¬ ruleFails j) → answer s .invalid [3, u8 k])
      ∧ (asked → (∀ x, ¬ long x) → (∀ x y, x < y → ¬ shares x y) → (∀ k, k < 48 → ¬ ruleFails k) →
          t.defaultAction.valid = false → answer s .invalid [3, 0xFF])

/-- The table switch at SET MODE SERVICE: the edit copy becomes the active tables and the mode SERVICE; the staged image goes;
changed rules have their counters at 0 and unchanged ones keep them; reserve records are made, dropped or lowered; a newly
configured node enters PROBE, or SUSPECT when it is FED during a gap, with a new record; a removed one loses its record, its
held frames and its place in the gap set; a queue keeps its oldest entries up to its node's new cap, each tagged one beyond it
is reported DISCARDED, and a RELEASE left without entries is left; the slots of a changed or removed range become invalid, its
list empty, its replay in flight replaced, and a REPLAY left without pending slots is left unless its step is IN_FLIGHT; an
unchanged range keeps its slots. That such a REPLAY is left also with a step that is neither READY nor IN_FLIGHT (an ORPHANED
one), where R122 is silent, is the model's choice (log entry 11) (R24, R33, R58, R59, R107, R122, R123, R139 to R141, R177,
R189). -/
def Obligations.SwitchMakesEditCopyActive : Prop :=
  ∀ (s : State) (tag : Word16) (rest : List TrunkFrame) (i : Nat), s.Asks .setMode tag [1] rest i →
    s.responder.mode = .depot → s.responder.edit.firstFault = none →
    let old := s.tables
    let new := s.responder.edit
    let a : TrunkFrame := { kind := 0x42, tag := tag, outcome := 0x01, body := [0x30, 1] }
    let cleared := fun (t : State) (n : Nat) (d : NodeEntry) =>
      t.replayList n = [] ∧ (∀ j, d.shadowBase ≤ j → j < d.shadowBase + d.shadowCount → t.slot j = none)
        ∧ ∀ f, s.replayInFlight n = some f → t.replayInFlight n = some { f with replaced := true }
    ∃ t, exec .setMode s = .next t ∧ t.tables = new ∧ t.responder.mode = .service ∧ t.responder.edit = new
      ∧ t.responder.identity = s.responder.identity ∧ t.responder.mask = s.responder.mask
      ∧ t.Shows i a ∧ t.trunk.ingress = rest
      ∧ t.store.staged = none ∧ t.store.blocks = s.store.blocks ∧ t.stored = s.stored
      ∧ t.gap.condition = s.gap.condition ∧ t.gap.clock = s.gap.clock
      ∧ (∀ k, k < 48 → old.rule k = new.rule k → t.counters.rules[k]? = s.counters.rules[k]?)
      ∧ (∀ k, k < 48 → old.rule k ≠ new.rule k → t.counters.rules[k]? = some { frames := 0, bytes := 0 })
      ∧ (old.defaultAction = new.defaultAction → t.counters.defaultRule = s.counters.defaultRule)
      ∧ (old.defaultAction ≠ new.defaultAction → t.counters.defaultRule = { frames := 0, bytes := 0 })
      ∧ (∀ n e, old.node n = none → new.node n = some e →
          t.reserve n = some { estimate := 0, origin := s.gap.clock, aged := false }
            ∧ ∃ r, t.runtime n = some r
                ∧ r.state = (if s.gapInProgress = true ∧ e.supply = .fed then .suspect else .probe)
                ∧ r.bootCount = none ∧ r.noReply = 0 ∧ r.attempts = 0 ∧ r.misses = 0 ∧ r.expected = none
                ∧ r.window = none ∧ r.nextProbe = none ∧ r.session = none ∧ r.restores = 0 ∧ r.survived = 0
                ∧ r.lost = 0 ∧ r.refusals = 0 ∧ r.passNoReplies = 0
                ∧ r.phase = (if s.gapInProgress = true ∧ e.supply = .fed then some .probe else none)
                ∧ ((s.gapInProgress = true ∧ e.supply = .fed) → n ∈ t.gap.gapSet))
      ∧ (∀ n e, old.node n = some e → new.node n = none →
          t.reserve n = none ∧ t.runtime n = none ∧ t.queue n = [] ∧ n ∉ t.gap.gapSet ∧ cleared t n e)
      ∧ (∀ n d e r, old.node n = some d → new.node n = some e → s.reserve n = some r →
          t.reserve n = some { r with estimate := min r.estimate e.holdup })
      ∧ (∀ n d e, old.node n = some d → new.node n = some e →
          t.queue n = (s.queue n).take e.holdCap
            ∧ (s.nodeState n = .release → e.holdCap = 0 → s.queue n ≠ [] → t.nodeState n ≠ .release)
            ∧ (∀ j x k g, (s.queue n)[j]? = some x → e.holdCap ≤ j → x.tag = some g → x.reservation = some k →
                s.trunk.egress[k]? = some .reserved → (∀ p ∈ s.segment.urgent ++ s.segment.normal, p.reservation ≠ k) →
                (∀ b y, y ∈ s.queue b → y.reservation = some k → y = x) →
                t.Shows k { kind := 0x43, tag := g, outcome := 0x22, body := [u8 x.node] })
            ∧ (s.responder.mask = 0 → s.segment.urgent ++ s.segment.normal = [] →
                (∀ b y, y ∈ s.queue b → y.reservation = none) →
                (addresses.map (fun b => (s.queue b).length)).sum < s.egressFree →
                ∀ j x g, (s.queue n)[j]? = some x → e.holdCap ≤ j → x.tag = some g →
                  ∃ k, s.trunk.egress[k]? = some .free
                    ∧ t.Shows k { kind := 0x43, tag := g, outcome := 0x22, body := [u8 x.node] })
            ∧ ((d.shadowBase ≠ e.shadowBase ∨ d.shadowCount ≠ e.shadowCount) →
                cleared t n d ∧ ((∀ r k, s.runtime n = some r → r.step ≠ .inFlight k) → t.nodeState n ≠ .replay))
            ∧ (d.shadowBase = e.shadowBase → d.shadowCount = e.shadowCount → old.firstFault = none →
                ∀ j, d.shadowBase ≤ j → j < d.shadowBase + d.shadowCount → t.slot j = s.slot j))

/-! ### The Image Store and the Table Store -/

/-- STORE TABLES joins the tail of the operation list, and is answered BUSY while an earlier one waits or is in progress; in DEPOT
each loading request joins the tail with its arguments. None is answered at its take, and its egress entry stays reserved
(R172, R190). -/
def Obligations.StoreRequestsJoinOperationList : Prop :=
  ∀ (s : State) (tag : Word16) (args : List Byte) (rest : List TrunkFrame) (i : Nat),
    let joins := fun (k : RequestCode) (o : OperationKind) =>
      exec k.command s =
        .next (endCommand
          { s.reserved rest i with
            store :=
              { s.store with
                operations :=
                  s.store.operations ++ [{ kind := o, request := some { tag := tag, reservation := i, code := k.code } }] } })
    let w := fun (n : Nat) => (byteAt args n).toNat + 256 * (byteAt args (n + 1)).toNat
    let loads := fun (k : RequestCode) (o : OperationKind) =>
      s.Asks k tag args rest i → s.responder.mode = .depot → joins k o
    (s.Asks .storeTables tag args rest i →
        ((∃ o ∈ s.store.operations, o.kind = .tableWrite) →
            exec .storeTables s = .next (endCommand (s.replies .storeTables tag rest i .busy [])))
          ∧ ((∀ o ∈ s.store.operations, o.kind ≠ .tableWrite) → joins .storeTables .tableWrite))
      ∧ loads .imageOpen
          (.imageOpen (byteAt args 0) (BitVec.ofNat 16 (w 1)) (w 3) (BitVec.ofNat 32 (w 5 + 65536 * w 7)))
      ∧ loads .imageBlock (.imageBlock (w 0) (args.drop 2))
      ∧ loads .imageClose .imageClose
      ∧ loads .imageDiscard .imageDiscard
      ∧ loads .imageDrop (.imageDrop (byteAt args 0))

/-- First-fit allocation over extents in order of first block: the block chosen starts a free run of the length asked for within
the N blocks and no lower block does; where none is chosen, no free run is long enough (R168). -/
def Obligations.FirstFitTakesLowestFreeRun : Prop :=
  ∀ (length n : Nat) (l : List Extent), 0 < length → (∀ e ∈ l, 0 < e.length) →
    l.Pairwise (fun d e => d.first + d.length ≤ e.first) →
    let fits := fun (f : Nat) => f + length ≤ n ∧ ∀ e ∈ l, f + length ≤ e.first ∨ e.first + e.length ≤ f
    (∀ f, firstFit length n 0 l = some f → fits f ∧ ∀ g, g < f → ¬ fits g)
      ∧ (firstFit length n 0 l = none → ∀ f, ¬ fits f)

/-- OPERATION_START with the arbiter idle: what each operation at the head of the list does at its start. In SERVICE a loading
request is answered MODE; a refused one is answered at once and the next comes to the head; an accepted IMAGE OPEN on a saved
directory makes the staged image from a first-fit extent; an accepted IMAGE DISCARD drops it; the others begin their access, a
mark write, which answers no request, too. That a loading request which waited through a switch to SERVICE and starts in DEPOT
again does its work is the model's choice (log entry 43) (R169, R170, R172 to R178, R190). -/
def Obligations.OperationStartJudgesHead : Prop :=
  ∀ (s : State) (o : Operation) (more : List Operation),
    s.store.operations = o :: more → s.store.access = none → s.store.reads = [] → s.store.progress = none →
    let begins := fun (m : ImageStore) (p : Progress) =>
      exec .operationStart s = .next (endCommand { s with store := { m with progress := some p, access := some .operation } })
    let m := s.store
    let depot := s.responder.mode = .depot
    (o.kind = .markWrite → begins m .marking) ∧ ∀ (k : OperationKind) (ref : RequestRef), o = { kind := k, request := some ref } →
    let ends := fun (m : ImageStore) (c : AnswerCode) (data : List Byte) =>
      exec .operationStart s =
        .next (endCommand
          ({ s with store := { m with operations := more, cut := false } }.fills ref.reservation
            { kind := 0x42, tag := ref.tag, outcome := c.code, body := ref.code :: data }))
    (s.responder.mode = .service → k ≠ .tableWrite → k ≠ .markWrite → ends m .mode [])
      ∧ (k = .tableWrite → begins m (.tableWriting s.tables))
      ∧ (∀ kind version len check, depot → k = .imageOpen kind version len check →
          let full := (∀ p, p < 12 → s.place p ≠ none) ∧ s.placeOfKind kind = none
          (m.staged ≠ none → ends m .busy [])
            ∧ (m.staged = none → (len = 0 ∨ 4096 < len) → ends m .invalid [])
            ∧ (m.staged = none → 0 < len → len ≤ 4096 → full → ends m .noSpace [])
            ∧ (m.staged = none → 0 < len → len ≤ 4096 → ¬ full → m.saved = false → begins m .opening)
            ∧ (m.staged = none → 0 < len → len ≤ 4096 → ¬ full → m.saved = true →
                firstFit len s.blockCount 0 s.extents = none → ends m .noSpace [])
            ∧ (∀ f, m.staged = none → 0 < len → len ≤ 4096 → ¬ full → m.saved = true →
                firstFit len s.blockCount 0 s.extents = some f →
                ends
                  { m with
                    staged :=
                      some { kind := kind, version := version, length := len, check := check, first := f, written := [] } }
                  .done
                  (le16n f ++ le16n len
                    ++ (match (s.placeOfKind kind).bind s.place with
                        | some e => 1 :: (le16 e.image.version ++ [if e.image.damaged then 1 else 0])
                        | none => [0, 0, 0, 0]))))
      ∧ (∀ index data, depot → k = .imageBlock index data →
          (m.staged = none → ends m .invalid [])
            ∧ ∀ x, m.staged = some x →
                (x.length ≤ index → ends m .invalid [])
                  ∧ (index < x.length → begins m (.programming index (x.first + index) data)))
      ∧ (depot → k = .imageClose →
          (m.staged = none → ends m .invalid [])
            ∧ ∀ x, m.staged = some x →
                (x.written.length < x.length → ∀ j, j < x.length → j ∉ x.written → (∀ n, n < j → n ∈ x.written) →
                    ends m .incomplete (le16n j ++ le16n (x.length - x.written.length)))
                  ∧ (x.length ≤ x.written.length → begins m (.checking x 0 (0, 0))))
      ∧ (depot → k = .imageDiscard →
          (m.staged = none → ends m .invalid []) ∧ (m.staged ≠ none → ends { m with staged := none } .done []))
      ∧ (∀ kind, depot → k = .imageDrop kind →
          (s.placeOfKind kind = none → ends m .invalid [])
            ∧ ∀ p e, s.placeOfKind kind = some p → s.place p = some e →
                (0 < e.readers → ends m .inUse [u8 e.readers])
                  ∧ (e.readers = 0 →
                      begins { m with catalogue := m.catalogue.setIfInBounds p none } (.dropping p e.image)))

/-- BLOCK_PROGRAM_END: without error the block holds the data with their Fletcher-16, the index joins the written-block set, and
the answer is DONE; with one STORE_WRITE_ERROR is raised, the index leaves the set, the block keeps its content and the answer
is STORE_FAULT; both with the index and the blocks remaining. A program that the switch met ends in the same way but with the
answer MODE, and leaves what is staged now; that its write error still raises the flag is the model's choice (log entry 21).
Every other block of the array is as before (R15, R165, R169, R172, R174, R177). -/
def Obligations.BlockProgramEndWritesBlock : Prop :=
  ∀ (s : State) (index block : Nat) (data : List Byte) (ref : RequestRef) (more : List Operation) (k : OperationKind),
    s.store.access = some .operation → s.store.progress = some (.programming index block data) →
    s.store.operations = { kind := k, request := some ref } :: more → block < s.blockCount → ref.reservation < 24 →
    let ended := fun (failed : Bool) (c : AnswerCode) (answered : List Byte) (y : Option StagedImage) (t : State) =>
      exec (.blockProgramEnd failed) s = .next t
        ∧ t.store =
            ImageStore.chosen
              { s.store with
                blocks := t.store.blocks, staged := y, operations := more, progress := none, cut := false, access := none }
        ∧ (∀ j, j ≠ block → readBlock t.store.blocks j = readBlock s.store.blocks j)
        ∧ (failed = false → t.responder = s.responder ∧ (readBlock t.store.blocks block).data = data
            ∧ (readBlock t.store.blocks block).check = [u8 (fletcher16 data).2, u8 (fletcher16 data).1])
        ∧ (failed = true → t.flagSet .storeWriteError = true ∧ t.store.blocks = s.store.blocks)
        ∧ t.restore = s.restore ∧ t.segment = s.segment ∧ t.gap = s.gap ∧ t.shadow = s.shadow ∧ t.hold = s.hold
        ∧ t.tables = s.tables ∧ t.stored = s.stored
        ∧ t.Shows ref.reservation { kind := 0x42, tag := ref.tag, outcome := c.code, body := ref.code :: answered }
    (s.store.cut = true → ∀ failed, ∃ t, ended failed .mode [] s.store.staged t)
      ∧ ∀ x, s.store.cut = false → s.store.staged = some x →
          let counted := fun (y : StagedImage) => le16n index ++ le16n (x.length - y.written.length)
          (∃ t y, ended false .done (counted y) (some y) t ∧ y = { x with written := y.written }
              ∧ ∀ j, j ∈ y.written ↔ j ∈ x.written ∨ j = index)
            ∧ ∃ t y, ended true .storeFault (counted y) (some y) t ∧ y = { x with written := y.written }
                ∧ ∀ j, j ∈ y.written ↔ j ∈ x.written ∧ j ≠ index

/-- CHECK_READ_END of an IMAGE CLOSE that no switch has met: a read error raises STORE_READ_ERROR, takes the index out of the
written-block set and answers STORE_FAULT; a good block before the last goes on with the running Fletcher-32; after the last, a
differing check answers CHECK_FAIL with the check computed, and a matching one answers IN_USE while the entry has readers, else
commits the image: the entry, in the old entry's place or the lowest empty one, the old extent retained, nothing staged, and
the directory write to come. A check-read that the switch met ends the operation with the answer MODE; that its read error still
raises the flag is the model's choice (log entry 21) (R169, R172, R175 to R177). -/
def Obligations.CheckReadEndJudgesImage : Prop :=
  ∀ (s : State) (x : StagedImage) (index : Nat) (sums : Nat × Nat) (ref : RequestRef) (more : List Operation)
    (k : OperationKind) (fails : Bool),
    s.store.access = some .operation → s.store.progress = some (.checking x index sums) →
    s.store.operations = { kind := k, request := some ref } :: more →
    x.first + index < s.blockCount → ref.reservation < 24 →
    let b := readBlock s.store.blocks (x.first + index)
    let good := fails = false ∧ b.check = check16 b.data
    let last := good ∧ x.length ≤ index + 1
    let next := fletcher32From sums b.data
    let m := s.store
    let ended := fun (n : ImageStore) =>
      ImageStore.chosen { n with operations := more, progress := none, cut := false, access := none }
    let ends := fun (n : ImageStore) (c : AnswerCode) (data : List Byte) =>
      exec (.checkReadEnd fails) s =
        .next (endCommand
          ({ s with store := ended n }.fills ref.reservation
            { kind := 0x42, tag := ref.tag, outcome := c.code, body := ref.code :: data }))
    let goes := fun (n : ImageStore) (p : Progress) =>
      exec (.checkReadEnd fails) s = .next (endCommand { s with store := ImageStore.chosen { n with progress := some p } })
    let image : ImageEntry :=
      { kind := x.kind, version := x.version, length := x.length, check := x.check, first := x.first, damaged := false }
    (s.store.cut = true →
        (good → ends m .mode [])
          ∧ (¬ good →
              ∃ t, exec (.checkReadEnd fails) s = .next t ∧ t.flagSet .storeReadError = true ∧ t.store = ended m
                ∧ t.Shows ref.reservation { kind := 0x42, tag := ref.tag, outcome := 0x30, body := [ref.code] }))
      ∧ (s.store.cut = false →
        (¬ good →
            ∃ t, exec (.checkReadEnd fails) s = .next t ∧ t.flagSet .storeReadError = true
              ∧ t.store = ended { m with staged := some { x with written := x.written.filter (fun j => decide (j ≠ index)) } }
              ∧ t.Shows ref.reservation
                  { kind := 0x42, tag := ref.tag, outcome := 0x37, body := ref.code :: le16n index })
          ∧ (good → index + 1 < x.length → goes m (.checking x (index + 1) next))
          ∧ (last → check32 next ≠ x.check → ends m .checkFail (le32 (check32 next)))
          ∧ (∀ p e, last → check32 next = x.check → s.placeOfKind x.kind = some p → s.place p = some e → 0 < e.readers →
              ends m .inUse [u8 e.readers])
          ∧ (∀ p e, last → check32 next = x.check → s.placeOfKind x.kind = some p → s.place p = some e → e.readers = 0 →
              goes
                { m with
                  catalogue := m.catalogue.setIfInBounds p (some { image := image, readers := 0 })
                  staged := none
                  retained := some { first := e.image.first, length := e.image.length } }
                (.committing p x.first))
          ∧ (∀ p, last → check32 next = x.check → s.placeOfKind x.kind = none → p < 12 → s.place p = none →
              (∀ q, q < p → s.place q ≠ none) →
              goes
                { m with
                  catalogue := m.catalogue.setIfInBounds p (some { image := image, readers := 0 })
                  staged := none }
                (.committing p x.first)))

/-- DIRECTORY_WRITE_END without error writes the working catalogue, readers counts apart, to the copy that does not hold the
latest successful write (copy 0 where there is none), with a sequence number one above that copy's (1 where there is none),
saves the directory and frees the retained extent; with an error the copy written is invalid, STORE_WRITE_ERROR is raised, the
directory is unsaved and the other copy stays. The operation that asked for it ends: a commit and a drop with DONE, or with
STORE_FAULT and, for a drop, the entry back in its place; an IMAGE OPEN that no switch met with NO_SPACE, or with DONE and its
image staged at the first free run, the retained extent being free now; one that the switch met with MODE; a mark write answers
nothing. That every write while there is no latest successful write goes to copy 0 with sequence number 1, and not only the
first one after a reset, is the model's choice (log entry 15) (R168 to R173, R176 to R178). -/
def Obligations.DirectoryWriteEndSavesOrFails : Prop :=
  ∀ (s : State) (p : Progress), s.store.access = some .operation → s.store.progress = some p →
    p.writesDirectory = true →
    let m := s.store
    let target : CopyPlace := if m.latest = some .copy0 then .copy1 else .copy0
    let other : CopyPlace := if m.latest = some .copy0 then .copy0 else .copy1
    let answers := fun (t : State) (code : Byte) (data : List Byte) =>
      ∀ k ref more, m.operations = { kind := k, request := some ref } :: more → ref.reservation < 24 →
        t.Shows ref.reservation { kind := 0x42, tag := ref.tag, outcome := code, body := ref.code :: data }
    (∃ t, exec (.directoryWriteEnd false) s = .next t ∧ t.store.saved = true ∧ t.store.latest = some target
        ∧ t.store.retained = none ∧ t.store.catalogue = m.catalogue ∧ t.store.copy other = m.copy other
        ∧ t.responder = s.responder ∧ t.store.operations = m.operations.tail ∧ t.store.progress = none
        ∧ (∃ c, t.store.copy target = some c
            ∧ c.sequence = (match m.latest.bind m.copy with | some d => d.sequence + 1 | none => 1)
            ∧ ∀ k, (h : k < 12) → c.places[k] = (s.place k).map (·.image))
        ∧ (∀ n first, p = .committing n first → answers t 0x01 (u8 n :: le16n first))
        ∧ (∀ n e, p = .dropping n e → answers t 0x01 (le16 e.version ++ [if e.damaged then 1 else 0]))
        ∧ (p = .opening → m.cut = true → answers t 0x30 [] ∧ t.store.staged = m.staged)
        ∧ (∀ kind version len check ref more, p = .opening → m.cut = false →
            m.operations = { kind := .imageOpen kind version len check, request := some ref } :: more →
            let fit := firstFit len s.blockCount 0 ({ s with store := { m with retained := none } } : State).extents
            (fit = none → answers t 0x34 [] ∧ t.store.staged = m.staged)
              ∧ ∀ f, fit = some f →
                  t.store.staged =
                      some { kind := kind, version := version, length := len, check := check, first := f, written := [] }
                    ∧ answers t 0x01
                        (le16n f ++ le16n len
                          ++ (match (s.placeOfKind kind).bind s.place with
                              | some e => 1 :: (le16 e.image.version ++ [if e.image.damaged then 1 else 0])
                              | none => [0, 0, 0, 0])))
        ∧ (p = .marking → (∀ o more, m.operations = o :: more → o.request = none) → t.trunk = (endCommand s).trunk)
        ∧ (p ≠ .opening → t.store.staged = m.staged))
      ∧ (∃ t, exec (.directoryWriteEnd true) s = .next t ∧ t.store.saved = false ∧ t.store.latest = m.latest
          ∧ t.store.retained = m.retained ∧ t.store.copy other = m.copy other ∧ t.store.copy target = none
          ∧ t.flagSet .storeWriteError = true ∧ t.store.operations = m.operations.tail ∧ t.store.progress = none
          ∧ t.store.staged = m.staged ∧ (p ≠ .marking → answers t 0x37 [])
          ∧ (p = .marking → (∀ o more, m.operations = o :: more → o.request = none) → s.responder.mask = 0 →
              t.trunk = (endCommand s).trunk)
          ∧ (∀ n e, p = .dropping n e →
              t.store.catalogue = m.catalogue.setIfInBounds n (some { image := e, readers := 0 }))
          ∧ ((∀ n e, p ≠ .dropping n e) → t.store.catalogue = m.catalogue))

/-- TABLE_WRITE_END without error stores the tables as they stood when the write started with their Fletcher-32 and answers DONE
with it; with an error the stored copy is invalid, STORE_WRITE_ERROR is raised and the answer is STORE_FAULT (R169, R190). -/
def Obligations.TableWriteEndStoresTables : Prop :=
  ∀ (s : State) (w : Tables) (ref : RequestRef) (more : List Operation) (k : OperationKind),
    s.store.access = some .operation → s.store.progress = some (.tableWriting w) →
    s.store.operations = { kind := k, request := some ref } :: more → ref.reservation < 24 →
    let ended :=
      ImageStore.chosen { s.store with operations := more, progress := none, cut := false, access := none }
    (exec (.tableWriteEnd false) s =
        .next (endCommand
          ({ s with stored := some { tables := w, check := tableCheck w }, store := ended }.fills ref.reservation
            { kind := 0x42, tag := ref.tag, outcome := 0x01, body := ref.code :: le32 (tableCheck w) })))
      ∧ ∃ t, exec (.tableWriteEnd true) s = .next t ∧ t.stored = none ∧ t.flagSet .storeWriteError = true
          ∧ t.store = ended ∧ t.tables = s.tables
          ∧ t.Shows ref.reservation { kind := 0x42, tag := ref.tag, outcome := 0x37, body := [ref.code] }

/-- STORE_READ_END. A good read for a live session fills its buffer and makes its block step READY; one whose session has ended is
discarded, and its buffer falls FREE or is granted to the head of the waiting list, which starts its own read. A read error
raises STORE_READ_ERROR and marks the entry whose extent holds the block DAMAGED, and a mark write waits. For a live session it
then ends every session of that entry: a node reported INTACT enters CONFIG with its count kept, any other FAILED; the other
sessions stay. For a session that has ended no session is ended and the buffer falls FREE or is granted: that R170's steps 1
to 3, and not R161, decide this is the model's choice (log entry 35). A check-read that the switch met and that is paused under
this read stops with the answer MODE, and the read does its own work (R148, R149, R161, R163, R165, R169, R170, R177). -/
def Obligations.StoreReadEndFillsOrMarksDamaged : Prop :=
  ∀ (s : State) (q : ReadRequest),
    s.store.access = some (.read q) → q.block < s.blockCount →
    let b := readBlock s.store.blocks q.block
    let bad := fun (fails : Bool) => fails = true ∨ b.check ≠ check16 b.data
    let marks := fun (t : State) =>
      t.flagSet .storeReadError = true ∧ t.store.blocks = s.store.blocks ∧ t.tables = s.tables
        ∧ (∃ o ∈ t.store.operations, o.kind = .markWrite)
        ∧ ∀ p e, s.place p = some e → e.image.first ≤ q.block → q.block < e.image.first + e.image.length →
            (∀ p' e', p' < p → s.place p' = some e' →
              q.block < e'.image.first ∨ e'.image.first + e'.image.length ≤ q.block) →
            ∃ e', t.place p = some e' ∧ e'.image = { e.image with damaged := true }
    let filled := fun (a : Nat) (r : Runtime) (x : Session) =>
      { s.restore with
        buffers := s.restore.buffers.setIfInBounds q.buffer (.filled a b.data)
        nodes := putNode s.restore.nodes a
          (some { r with step := .ready .imageBlock, session := some { x with request := .filled } }) }
    (∀ y i c o ref more a r x, s.store.cut = true → s.store.progress = some (.checking y i c) →
        s.store.operations = { kind := o, request := some ref } :: more →
        s.restore.buffers[q.buffer]? = some (.reading a) → s.runtime a = some r → r.session = some x →
        r.step = .waiting → b.check = check16 b.data →
        exec (.storeReadEnd false) s =
          .next (endCommand
            ({ s with
                store := ImageStore.chosen { s.store with operations := more, progress := none, cut := false }
                restore := filled a r x }.fills
              ref.reservation { kind := 0x42, tag := ref.tag, outcome := 0x30, body := [ref.code] })))
      ∧ ((s.store.cut = false ∨ ∀ y i c, s.store.progress ≠ some (.checking y i c)) →
        (∀ a r x, s.restore.buffers[q.buffer]? = some (.reading a) → s.runtime a = some r → r.session = some x →
            (r.step = .waiting → b.check = check16 b.data →
                exec (.storeReadEnd false) s =
                  .next (endCommand
                    { s with store := s.store.chosen, restore := filled a r x }))
              ∧ (∀ fails, bad fails →
                  ∃ t, exec (.storeReadEnd fails) s = .next t ∧ marks t
                    ∧ (∀ n v y, s.runtime n = some v → v.session = some y → y.entry = x.entry →
                        ∃ z, t.runtime n = some z ∧ z.session = none ∧ z.attempts = v.attempts
                          ∧ (y.reported = some .intact → z.state = .config ∧ z.bootCount = v.bootCount)
                          ∧ (y.reported ≠ some .intact → z.state = .failed ∧ z.bootCount = none ∧ t.queue n = []))
                    ∧ (∀ n v, s.runtime n = some v → (∀ y, v.session = some y → y.entry ≠ x.entry) →
                        ∃ z, t.runtime n = some z ∧ z.state = v.state ∧ z.session.isSome = v.session.isSome
                          ∧ t.queue n = s.queue n)))
          ∧ (s.restore.buffers[q.buffer]? = some .draining →
              (b.check = check16 b.data → s.restore.waiting = [] →
                  exec (.storeReadEnd false) s =
                    .next (endCommand
                      { s with
                        store := s.store.chosen
                        restore :=
                          { s.restore with buffers := s.restore.buffers.setIfInBounds q.buffer .free } }))
                ∧ (∀ fails, ∃ t, exec (.storeReadEnd fails) s = .next t ∧ (bad fails → marks t) ∧ t.hold = s.hold
                      ∧ (∀ n v, s.runtime n = some v →
                          ∃ z, t.runtime n = some z ∧ z.state = v.state ∧ z.session.isSome = v.session.isSome)
                      ∧ (s.restore.waiting = [] → t.restore.buffers[q.buffer]? = some .free)
                      ∧ (∀ m rest y, s.restore.waiting = m :: rest → s.session m = some y →
                          t.restore.waiting = rest ∧ t.restore.buffers[q.buffer]? = some (.reading m)
                            ∧ (∃ z, t.session m = some z ∧ z.next = y.next ∧ z.buffer = some q.buffer ∧ z.request = .reading)
                            ∧ ∀ e, s.place y.entry = some e →
                                t.store.access = some (.read { block := e.image.first + y.next, buffer := q.buffer })
                                  ∨ { block := e.image.first + y.next, buffer := q.buffer } ∈ t.store.reads))))

/-! ### Nodes and the engine -/

/-- ISOLATE NODE and RESTORE NODE with no engine restart pending. An unconfigured address is INVALID. ISOLATE NODE changes
nothing of an ISOLATED node; any other node enters ISOLATED with its step cancelled, its session ended, its count unknown, its
held and queued frames gone, its shadow and phase kept. RESTORE NODE moves the node, its count unknown and its expected version
absent, to PROBE, or to SUSPECT with phase PROBE and into the gap set when it is FED during a gap, with its attempt and no-reply
counts and its hold queue kept. That the boot window and the next probe time become absent on these moves, where R54, R55 and
R58 are silent, is the model's choice (log entry 22) (R54, R55, R58, R73). -/
def Obligations.NodeIsolatedAndRestored : Prop :=
  ∀ (s : State) (tag : Word16) (rest : List TrunkFrame) (i : Nat) (b : Byte), s.segment.restartPending = false →
    let a := b.toNat
    let suspect := s.gapInProgress && s.isFed a
    let orphan := fun (r : Runtime) (k : StepCondition) =>
      match r.step with | .inFlight _ | .orphaned => StepCondition.orphaned | _ => k
    let answers := fun (c : Instr) (k : RequestCode) (o : AnswerCode) =>
      exec c s = .next (endCommand (s.replies k tag rest i o []))
    let kept := fun (t : State) => t.tables = s.tables ∧ t.stored = s.stored ∧ t.store.blocks = s.store.blocks
      ∧ t.counters = s.counters ∧ t.segment.line = s.segment.line ∧ t.trunk.ingress = rest
      ∧ t.gap = { s.gap with gapSet := t.gap.gapSet } ∧ ∀ n, n ≠ a → t.nodeState n = s.nodeState n ∧ t.queue n = s.queue n
    (s.Asks .isolateNode tag [b] rest i →
        (s.runtime a = none → answers .isolateNode .isolateNode .invalid)
          ∧ (∀ r, s.runtime a = some r → r.state = .isolated → answers .isolateNode .isolateNode .done)
          ∧ (∀ r, s.runtime a = some r → r.state ≠ .isolated → r.state ≠ .unconfigured →
              ∃ t, exec .isolateNode s = .next t ∧ kept t ∧ t.shadow = s.shadow ∧ t.gap.gapSet = s.gap.gapSet
                ∧ t.queue a = []
                ∧ t.runtime a =
                    some
                      { r with
                        state := .isolated, bootCount := none, expected := none, window := none, nextProbe := none
                        session := none, step := orphan r .none }
                ∧ (∀ e ∈ t.segment.urgent ++ t.segment.normal,
                    (e.kind ≠ .broadcast → e.destination ≠ a) ∧ (e.kind = .broadcast → a ∉ e.live))
                ∧ t.Shows i { kind := 0x42, tag := tag, outcome := 0x01, body := [0x50] }))
      ∧ (s.Asks .restoreNode tag [b] rest i →
          (s.runtime a = none → answers .restoreNode .restoreNode .invalid)
            ∧ (∀ r, s.runtime a = some r → r.state ≠ .unconfigured →
                ((r.state = .failed ∨ r.state = .isolated) → r.bootCount = none ∧ r.expected = none) →
                ∃ t, exec .restoreNode s = .next t ∧ kept t
                  ∧ t.runtime a =
                      some
                        { r with
                          state := if suspect then .suspect else .probe
                          phase := if suspect then some .probe else none
                          bootCount := none, expected := none, window := none, nextProbe := none, misses := 0
                          session := none, step := orphan r (if suspect then .none else .ready .probe) }
                  ∧ (∃ l, t.queue a = s.queue a ++ l) ∧ (suspect = true → a ∈ t.gap.gapSet)
                  ∧ t.Shows i { kind := 0x42, tag := tag, outcome := 0x01, body := [0x51] }))

/-- RESTART ENGINE is answered DONE and makes the restart pending. At its effect, with no transaction in flight, every queued pass
entry is answered RESTARTED, the pass queue is empty, the run count and both pointers are 0, every hold queue is discarded, an
ISOLATED node stays, and every other configured node enters PROBE, or SUSPECT with phase PROBE when it is FED during a gap, its
session ended and its count unknown only from IMAGE or CONFIG; the waiting list is empty; a FILLED buffer is FREE and a READING
one DRAINING; of the Image Store only the readers counts change, to 0; the clock, the gap record, the reserves, the shadow, the
tables and the identity stay (R35, R61, R83, R125, R140, R163, R179, R195). -/
def Obligations.EngineRestartTakesEffect : Prop :=
  ∀ s : State,
    (∀ tag rest i, s.Asks .restartEngine tag [] rest i →
        exec .restartEngine s =
          .next (endCommand
            ({ s with segment := { s.segment with restartPending := true } }.replies .restartEngine tag rest i .done [])))
      ∧ (s.segment.restartPending = true → s.transaction = none →
          ∃ t, exec .engineRestartEffect s = .next t
            ∧ t.segment =
                { s.segment with
                  urgent := [], normal := [], runCount := 0, lastEntrance := 0, lastInfo := 0, restartPending := false }
            ∧ t.tables = s.tables ∧ t.stored = s.stored ∧ t.shadow = s.shadow ∧ t.counters = s.counters
            ∧ t.gap = { s.gap with gapSet := t.gap.gapSet } ∧ t.responder.identity = s.responder.identity
            ∧ t.responder.mode = s.responder.mode ∧ t.responder.edit = s.responder.edit
            ∧ t.responder.mask = s.responder.mask ∧ t.store = { s.store with catalogue := t.store.catalogue }
            ∧ (∀ i : Nat, (t.place i).map (·.image) = (s.place i).map (·.image)) ∧ t.restore.waiting = []
            ∧ (s.TransfersSound → (∀ i e, t.place i = some e → e.readers = 0)
                ∧ ∀ b : Nat, t.restore.buffers[b]? =
                    (s.restore.buffers[b]?).map
                      (fun x => match x with | .reading _ | .draining => .draining | .free | .filled _ _ => .free))
            ∧ t.trunk.ingress = s.trunk.ingress ∧ (∀ a, t.queue a = [])
            ∧ (∀ a r, s.runtime a = some r → r.state = .isolated → t.nodeState a = .isolated)
            ∧ (∀ a r, s.runtime a = some r → r.state ≠ .isolated → r.state ≠ .unconfigured →
                let suspect := s.gapInProgress && s.isFed a
                ∃ r', t.runtime a = some r' ∧ r'.state = (if suspect then .suspect else .probe)
                  ∧ r'.phase = (if suspect then some .probe else none)
                  ∧ r'.bootCount = (if r.state = .image ∨ r.state = .config then none else r.bootCount)
                  ∧ r'.expected = r.expected ∧ r'.attempts = r.attempts ∧ r'.noReply = r.noReply ∧ r'.misses = 0
                  ∧ r'.window = none ∧ r'.nextProbe = none ∧ r'.session = none ∧ r'.restores = r.restores
                  ∧ r'.survived = r.survived ∧ r'.lost = r.lost ∧ r'.refusals = r.refusals
                  ∧ r'.passNoReplies = r.passNoReplies ∧ (suspect = true → a ∈ t.gap.gapSet))
            ∧ (((s.segment.urgent ++ s.segment.normal).map (·.reservation)).Nodup →
                ∀ e ∈ s.segment.urgent ++ s.segment.normal, e.reservation < 24 →
                  (∀ a h, h ∈ s.queue a → h.reservation ≠ some e.reservation) →
                  t.Shows e.reservation { kind := 0x41, tag := e.tag, outcome := 0x0B, body := [] }))

/-! ### The Gap Monitor -/

/-- Edges and timers of GAP: an edge in SUPPLIED or IN_GAP opens a pending change whose expiry is fixed by the active debounce,
and with debounce 0 confirms the start or the end at once; an edge back before the expiry is a glitch that raises GLITCH and
leaves the gap record, the reserves and the nodes as they were; the gap aged mark and an origin aged mark are set 65535 ms after
the start time and the origin. That with debounce 0 the confirmation is part of the same command is the model's choice (log entry
23) (R18 to R22, R24). -/
def Obligations.GapEdgesGlitchesAndAgedMarks : Prop :=
  ∀ s : State,
    let absent := s.gap.gapHigh = s.straps.gapPol
    let g := { s.gap with gapHigh := !s.gap.gapHigh }
    let expiry := s.gap.clock + BitVec.ofNat 32 s.tables.params.debounce
    let glitch := fun (c : Instr) (x : GapCondition) =>
      ∃ t, exec c s = .next t ∧ t.gap = { g with condition := x } ∧ t.flagSet .glitch = true ∧ t.restore = s.restore
        ∧ t.segment = s.segment ∧ t.hold = s.hold ∧ t.shadow = s.shadow ∧ t.tables = s.tables ∧ t.store = s.store
    (¬ absent → s.gap.condition = .supplied → s.tables.params.debounce ≠ 0 →
        exec .gapEdgeAbsent s =
          .next (endCommand { s with gap := { g with condition := .startPending s.gap.clock expiry } }))
      ∧ (∀ start, absent → s.gap.condition = .inGap start → s.tables.params.debounce ≠ 0 →
          exec .gapEdgePresent s =
            .next (endCommand { s with gap := { g with condition := .endPending start s.gap.clock expiry } }))
      ∧ (¬ absent → s.gap.condition = .supplied → s.tables.params.debounce = 0 →
          ∃ t, exec .gapEdgeAbsent s = .next t ∧ t.gap.condition = .inGap s.gap.clock ∧ t.gap.aged = false
            ∧ t.gap.gapHigh = g.gapHigh ∧ t.tables = s.tables)
      ∧ (∀ start, absent → s.gap.condition = .inGap start → s.tables.params.debounce = 0 →
          ∃ t, exec .gapEdgePresent s = .next t ∧ t.gap.condition = .supplied ∧ t.gap.gapSet = []
            ∧ t.gap.gapHigh = g.gapHigh ∧ t.tables = s.tables)
      ∧ (∀ start e x, ¬ absent → s.gap.condition = .endPending start e x → glitch .gapEdgeAbsent (.inGap start))
      ∧ (∀ e x, absent → s.gap.condition = .startPending e x → glitch .gapEdgePresent .supplied)
      ∧ (∀ start, (s.gap.condition = .inGap start ∨ ∃ e x, s.gap.condition = .endPending start e x) →
          s.gap.clock = start + 65535 → s.gap.aged = false →
          exec .gapAgedExpiry s = .next (endCommand { s with gap := { s.gap with aged := true } }))
      ∧ (∀ a x, s.reserve a = some x → s.gap.clock = x.origin + 65535 → x.aged = false →
          exec (.originAgedExpiry a) s =
            .next (endCommand
              { s with
                gap := { s.gap with reserves := putNode s.gap.reserves a (some { x with aged := true }) } }))

/-- GAP_START at the pending expiry: the gap set is the FED configured nodes; each member's E becomes the smaller of H and
E + floor(s × H / C), over the supply interval s, and its origin the start time; each member in service or in a restore enters
SUSPECT with its state as the phase before gap, its step cancelled and its session ended, and none of its queued unicast frames
stays queued; FAILED, ISOLATED and BATTERY nodes keep their states. That an origin which is not aged and lies between the pending
edge and now, modulo 2^32, is taken as one set during the START_PENDING that ends, with s = 0, is the model's choice, its test for
R25's first case (log entry 26) (R19, R23 to R26, R40, R56, R72). -/
def Obligations.GapStartRechargesAndSuspends : Prop :=
  ∀ (s : State) (edge : Time), s.gap.condition = .startPending edge s.gap.clock →
    ∃ t, exec .gapStart s = .next t ∧ t.gap.condition = .inGap edge ∧ t.gap.aged = false ∧ t.gap.lastD = s.gap.lastD
      ∧ t.gap.clock = s.gap.clock ∧ t.tables = s.tables ∧ t.segment.line = s.segment.line
      ∧ t.store.blocks = s.store.blocks ∧ t.trunk.ingress = s.trunk.ingress
      ∧ (∀ a, a ∈ t.gap.gapSet ↔ ∃ e, s.entry a = some e ∧ e.supply = .fed)
      ∧ (∀ a e x n, s.entry a = some e → s.reserve a = some x →
          ((x.aged = false ∧ (x.origin - edge).toNat ≤ (s.gap.clock - edge).toNat ∧ n = 0)
            ∨ (x.aged = true ∧ n = 65535)
            ∨ (x.aged = false ∧ (s.gap.clock - edge).toNat < (x.origin - edge).toNat
                ∧ n = min (edge - x.origin).toNat 65535)) →
          (e.supply = .battery → t.reserve a = some x)
            ∧ (e.supply = .fed →
                t.reserve a =
                  some
                    { estimate := min e.holdup (x.estimate + n * e.holdup / e.recharge), origin := edge, aged := false }))
      ∧ (∀ a e r, s.entry a = some e → s.runtime a = some r →
          (e.supply = .battery → t.nodeState a = r.state)
            ∧ ((r.state = .failed ∨ r.state = .isolated) → t.nodeState a = r.state)
            ∧ (e.supply = .fed → r.state ∉ [NodeState.suspect, .failed, .isolated, .unconfigured] →
                t.runtime a =
                  some
                    { r with
                      state := .suspect, phase := some r.state, window := none, nextProbe := none, misses := 0
                      session := none
                      bootCount := if r.state = .image ∨ r.state = .config then none else r.bootCount
                      step := match r.step with | .inFlight _ | .orphaned => .orphaned | _ => .none }
                  ∧ ∀ p ∈ t.segment.urgent ++ t.segment.normal, p.destination = a → p.kind = .broadcast))

/-- A queued pass entry returned to the Classifier is disposed of by its own copied absent policy against the node as it stands,
and answered through its reservation: under QUEUE it joins the tail of the hold queue with HELD, or HOLD_FULL; under LATEST it
is captured with the pending mark with STORED, a replay of that slot on the wire getting its replaced mark, or counted as a
shadow miss with HOLD_FULL; under REFUSE the answer is NO_REPLY_GAP while a gap is in progress, else NO_REPLY. At GAP_START
every queued unicast entry of a node that enters SUSPECT is answered so, and no queued broadcast keeps that node as a live
member (R72, R75, R100, R105, R112, R115, R116, R128). -/
def Obligations.ReturnedPassEntriesAreAnswered : Prop :=
  (∀ (s : State) (e : PassEntry) (n : NodeEntry), s.entry e.destination = some n →
      let a := e.destination
      let answers := fun (v : State) (code : Byte) =>
        disposeReturned e s = v.fills e.reservation { kind := 0x41, tag := e.tag, outcome := code, body := [] }
      let held : HoldEntry :=
        { tag := some e.tag, node := a, kind := e.kind, function := e.function, payload := e.payload, rule := e.rule
          slot := e.action.slot, policy := e.action.replay, arrival := s.gap.clock
          expiry := if n.holdLifetime = 0 then none else some (s.gap.clock + BitVec.ofNat 32 (n.holdLifetime * 100))
          reservation := none, inFlight := false }
      (e.action.absent = .queue → (s.queue a).length < n.holdCap → 0 < s.holdFree →
          answers { s with hold := { queues := putNode s.hold.queues a (s.queue a ++ [held]) } } 0x02)
        ∧ (e.action.absent = .queue → (n.holdCap ≤ (s.queue a).length ∨ s.holdFree = 0) → answers s 0x04)
        ∧ (∀ k, e.action.absent = .latest → e.action.slot = some k → k < n.shadowCount → n.shadowBase + k < 96 →
            ∃ v, answers v 0x03
              ∧ v.slot (n.shadowBase + k) =
                  some
                    { node := a, relative := k, rule := e.rule, policy := e.action.replay, kind := e.kind
                      function := e.function, payload := e.payload, marked := true }
              ∧ v.replayList a = (s.replayList a).filter (fun j => decide (j ≠ n.shadowBase + k)) ++ [n.shadowBase + k]
              ∧ v.replayInFlight a =
                  (s.replayInFlight a).map
                    (fun g => if g.slot = n.shadowBase + k then { g with replaced := true } else g)
              ∧ (∀ b, b ≠ a → v.replayInFlight b = s.replayInFlight b)
              ∧ (∀ j, j ≠ n.shadowBase + k → v.slot j = s.slot j) ∧ v.hold = s.hold ∧ v.restore = s.restore)
        ∧ (∀ k, e.action.absent = .latest → e.action.slot = some k → n.shadowCount ≤ k →
            ∃ v, answers v 0x04 ∧ v.flagSet .shadowMiss = true ∧ v.hold = s.hold
              ∧ v.shadow = { s.shadow with missCount := s.shadow.missCount + 1 })
        ∧ (e.action.absent = .refuse → s.gapInProgress = true → answers s 0x08)
        ∧ (e.action.absent = .refuse → s.gapInProgress = false → answers s 0x07))
    ∧ ∀ (s : State) (edge : Time), s.gap.condition = .startPending edge s.gap.clock →
        let entries := s.segment.urgent ++ s.segment.normal
        let suspended := fun (a : Nat) (n : NodeEntry) => s.entry a = some n ∧ n.supply = .fed
          ∧ s.nodeState a ∉ [NodeState.suspect, .failed, .isolated, .unconfigured]
        (entries.map (·.reservation)).Nodup →
        ∃ t, exec .gapStart s = .next t
          ∧ (∀ e n, e ∈ entries → e.kind ≠ .broadcast → e.reservation < 24 → suspended e.destination n →
              let shows := fun (code : Byte) =>
                t.Shows e.reservation { kind := 0x41, tag := e.tag, outcome := code, body := [] }
              (e.action.absent = .refuse → shows 0x08)
                ∧ (e.action.absent = .queue → shows 0x02 ∨ shows 0x04)
                ∧ (∀ k, e.action.absent = .latest → e.action.slot = some k →
                    shows (if k < n.shadowCount then 0x03 else 0x04)))
          ∧ ∀ e ∈ t.segment.urgent ++ t.segment.normal, e.kind = .broadcast → ∀ a n, suspended a n → a ∉ e.live

/-- GAP_END at the pending expiry: d is 65535 ms for an aged gap, else the end time less the start time, saturated; with x = E − d
and margin m each member is SURVIVED when x ≥ m, else LOST when x ≤ −m, else UNCERTAIN; E becomes the larger of 0 and x, or 0 for
LOST; every configured node's origin becomes the end time; the gap set is emptied; and each member moves by its state, its
class and its phase before gap, with its counter (R20, R24, R27 to R30, R57). -/
def Obligations.GapEndClassifiesMembers : Prop :=
  ∀ (s : State) (start edge : Time), s.gap.condition = .endPending start edge s.gap.clock → s.GapSetSound →
    let d := if s.gap.aged then 65535 else min (edge - start).toNat 65535
    let m : Int := s.tables.params.gapMargin
    ∃ t, exec .gapEnd s = .next t ∧ t.gap.condition = .supplied ∧ t.gap.lastD = d ∧ t.gap.gapSet = []
      ∧ t.gap.clock = s.gap.clock ∧ t.tables = s.tables ∧ t.shadow = s.shadow ∧ t.hold = s.hold
      ∧ (∀ a v, a ∉ s.gap.gapSet → s.reserve a = some v →
          t.reserve a = some { v with origin := edge, aged := false } ∧ t.runtime a = s.runtime a)
      ∧ (∀ a v r, a ∈ s.gap.gapSet → s.reserve a = some v → s.runtime a = some r →
          let x : Int := (v.estimate : Int) - (d : Int)
          let survived := m ≤ x
          let lost := x < m ∧ x ≤ -m
          ∃ r', t.runtime a = some r'
            ∧ t.reserve a = some { estimate := if lost then 0 else (max 0 x).toNat, origin := edge, aged := false }
            ∧ r'.survived = (if survived then r.survived + 1 else r.survived)
            ∧ r'.lost = (if lost then r.lost + 1 else r.lost) ∧ r'.bootCount = r.bootCount ∧ r'.expected = r.expected
            ∧ (r.state = .suspect → survived → r.phase = some .online →
                r'.state = (if s.hasPending a then .replay else if s.queue a = [] then .online else .release))
            ∧ (r.state = .suspect → survived → r.phase ≠ some .online → r'.state = .probe)
            ∧ (r.state = .suspect → ¬ survived → ¬ lost → r'.state = .probe)
            ∧ (∀ e, s.entry a = some e → (r.state = .suspect ∨ r.state = .failed) → lost →
                let opens := edge + BitVec.ofNat 32 (e.bootMin * 10)
                let closes := edge + BitVec.ofNat 32 (e.bootMax * 10)
                (reached s.gap.clock closes = false → r'.state = .awaitBoot ∧ r'.window = some (opens, closes))
                  ∧ (reached s.gap.clock closes = true → r'.state = .missing ∧ r'.window = none)
                  ∧ (r.state = .failed → r'.attempts = 0))
            ∧ (r.state = .failed → ¬ lost → r'.state = .failed)
            ∧ (r.state = .isolated → r'.state = .isolated))

/-! ### The Segment Master -/

/-- TRANSACTION_START with the line FREE and no engine restart pending takes the first that exists of the urgent head, the normal
head at the run limit, a READY ENTRANCE step by round robin, the normal head, a READY INFO step by round robin; it puts that
frame on the wire, moves that class's pointer, keeps the run count, and starts nothing where there is no candidate. The start of a
replay step writes the first pending slot of the list into the replay-in-flight record, replaced no; of a release step makes the
head in flight, and for a tagged head without a reservation reserves the FREE entry; of an IMAGE BLOCK or IMAGE END sets the frame
last sent and the busy poll count 0 (R64, R76 to R80, R119, R134, R135, R149, R152, R154). -/
def Obligations.TransactionStartTakesFirstCandidate : Prop :=
  ∀ s : State, s.segment.line = .free → s.segment.restartPending = false →
    let g := s.segment
    let limit := s.tables.params.restoreRunLimit
    let line := fun (c : Carrier) (f : SegmentFrame) (kept : Bool) =>
      Line.sending { carries := c, destination := f.destination, kind := f.kind, timeout := none, destinationKept := kept }
        f.wire
    let pass := fun (e : PassEntry) (h : SegmentMaster) =>
      exec .transactionStart s =
        .next (endCommand
          { s with
            segment :=
              { h with
                line :=
                  line (.pass e)
                    { destination := e.destination, kind := e.kind.segment, function := e.function, marker := 0
                      payload := e.payload }
                    (s.runtime e.destination).isSome } })
    let ready := fun (c : NodeClass) (a : Nat) => ∃ e r k f, s.entry a = some e ∧ e.cls = c ∧ s.runtime a = some r
      ∧ r.step = .ready k ∧ s.stepFrame a k = some f
      ∧ (k = .release → s.needsReservation a = true → s.freeEntry ≠ none)
    let turn := fun (last a : Nat) => (a + 29 - last) % 30
    let chosen := fun (c : NodeClass) (last a : Nat) => last ≤ 30 ∧ ready c a ∧ ∀ b, ready c b → turn last a ≤ turn last b
    let starts := fun (c : NodeClass) (a : Nat) =>
      ∀ r k f, s.runtime a = some r → r.step = .ready k → s.stepFrame a k = some f →
        let sent := fun (x : Session) =>
          match k with
          | .imageBlock => { x with lastSent := .block, busyCount := 0 }
          | .imageEnd => { x with lastSent := .imageEnd, busyCount := 0 }
          | _ => x
        ∃ t, exec .transactionStart s = .next t
          ∧ t.segment =
              { g with
                line := line (.step a) f true
                runCount := if g.normal = [] then g.runCount else min 16 (g.runCount + 1)
                lastEntrance := if c = .entrance then a else g.lastEntrance
                lastInfo := if c = .info then a else g.lastInfo }
          ∧ t.runtime a = some { r with step := .inFlight k, session := r.session.map sent }
          ∧ (∀ b, b ≠ a → t.runtime b = s.runtime b ∧ t.queue b = s.queue b ∧ t.replayInFlight b = s.replayInFlight b)
          ∧ t.gap = s.gap ∧ t.tables = s.tables ∧ t.store = s.store ∧ t.responder = s.responder
          ∧ t.trunk.ingress = s.trunk.ingress ∧ t.shadow = { s.shadow with inFlight := t.shadow.inFlight }
          ∧ (k ≠ .replay → t.shadow = s.shadow)
          ∧ (∀ l i l' q, k = .replay → s.replayList a = l ++ i :: l' → (∀ j ∈ l, s.slotPending j = false) →
              s.slot i = some q → q.marked = true → t.replayInFlight a = some { slot := i, replaced := false })
          ∧ (k ≠ .release → t.hold = s.hold ∧ t.trunk = (endCommand s).trunk)
          ∧ (∀ h l, k = .release → s.queue a = h :: l →
              ((h.tag = none ∨ h.reservation ≠ none) →
                  t.queue a = { h with inFlight := true } :: l ∧ t.trunk = (endCommand s).trunk)
                ∧ ∀ i, h.tag ≠ none → h.reservation = none → s.freeEntry = some i →
                    t.queue a = { h with inFlight := true, reservation := some i } :: l
                      ∧ t.trunk.egress[i]? = some .reserved
                      ∧ t.trunk =
                          (endCommand
                            { s with
                              trunk := { s.trunk with egress := s.trunk.egress.setIfInBounds i .reserved } }).trunk)
    (∀ e rest, g.urgent = e :: rest → pass e { g with urgent := rest })
      ∧ (∀ e rest, g.urgent = [] → g.normal = e :: rest → limit ≤ g.runCount →
          pass e { g with normal := rest, runCount := 0 })
      ∧ (∀ a, g.urgent = [] → (g.normal = [] ∨ g.runCount < limit) → chosen .entrance g.lastEntrance a →
          starts .entrance a)
      ∧ (∀ e rest, g.urgent = [] → g.normal = e :: rest → g.runCount < limit → (∀ b, ¬ ready .entrance b) →
          pass e { g with normal := rest, runCount := 0 })
      ∧ (∀ a, g.urgent = [] → g.normal = [] → (∀ b, ¬ ready .entrance b) → chosen .info g.lastInfo a → starts .info a)
      ∧ (g.urgent = [] → g.normal = [] → (∀ b, ¬ ready .entrance b) → (∀ b, ¬ ready .info b) →
          exec .transactionStart s = .next s)

/-- The frame of each restore step, as characters: start, header with source 0, payload, check B then A (R1 to R4, R15, R119,
R134, R149, R154). -/
def Obligations.RestoreStepFramesOnTheWire : Prop :=
  ∀ (s : State) (a : Nat),
    let wire := fun (kind function marker : Byte) (payload : List Byte) =>
      let c := [u8 a, 0, kind, function, marker, u8 payload.length] ++ payload
      0xA5 :: (c ++ [u8 (fletcher16 c).2, u8 (fletcher16 c).1])
    let sends := fun (k : StepKind) (w : List Byte) => (s.stepFrame a k).map SegmentFrame.wire = some w
    sends .probe (wire 0x20 0 0 [])
      ∧ sends .busyPoll (wire 0x24 0 0 [])
      ∧ (∀ e x, s.entry a = some e → s.responder.identity = some x →
          sends .config
            (wire 0x21 0 0
              (le16n x.car ++ [u8 x.position, match x.orientation with | .a => 0 | .b => 1] ++ e.config)))
      ∧ (∀ e, s.entry a = some e → s.responder.identity = none →
          sends .config (wire 0x21 0 0 ([0xFF, 0xFF, 0, 0xFF] ++ e.config)))
      ∧ (∀ x b data, s.session a = some x → x.buffer = some b → s.restore.buffers[b]? = some (.filled a data) →
          sends .imageBlock (wire 0x22 0 0 (le16n x.next ++ data)))
      ∧ (∀ x c, s.session a = some x → s.place x.entry = some c →
          sends .imageEnd (wire 0x23 0 0 (le16 c.image.version ++ le16n c.image.length ++ le32 c.image.check)))
      ∧ (∀ i l l' r, s.replayList a = l ++ i :: l' →
          (∀ j ∈ l, ∀ q, s.slot j = some q → q.marked = false) → s.slot i = some r → r.marked = true →
          sends .replay (wire 0x10 r.function 1 r.payload))
      ∧ (∀ e rest, s.queue a = e :: rest → e.kind = .query → sends .release (wire 0x11 e.function 2 e.payload))
      ∧ (∀ e rest, s.queue a = e :: rest → e.kind ≠ .query → sends .release (wire 0x10 e.function 2 e.payload))
      ∧ ∀ f : SegmentFrame, f.wire.length = f.payload.length + 9

/-- The line conditions: the end of transmission begins the wait with the timeout of the active record, or ends a broadcast with
DONE, captured at transmission for each ONLINE live member, and held or captured with the pending mark, by its absent policy,
for each live member in an absent state; an A5h begins collecting; a reply cut short, by a character gap or a length above 64,
is a bad check that leaves the line SETTLING for the same timeout; SETTLING ends in FREE; and a complete reply that fails R6, or
a timeout, leaves it FREE (R5, R6, R64 to R67, R71, R104, R114, R115). -/
def Obligations.LineConditionsFollowTheFrame : Prop :=
  ∀ (s : State) (t : Transaction),
    let g := s.segment
    let onLine := fun (l : Line) => { s with segment := { g with line := l } }
    let copy := fun (e : PassEntry) (a : Nat) (n : NodeEntry) =>
      ({ tag := none, node := a, kind := e.kind, function := e.function, payload := e.payload, rule := e.rule
         slot := e.action.slot, policy := e.action.replay, arrival := s.gap.clock
         expiry := if n.holdLifetime = 0 then none else some (s.gap.clock + BitVec.ofNat 32 (n.holdLifetime * 100))
         reservation := none, inFlight := false } : HoldEntry)
    (∀ w, g.line = .sending t w → ((∃ n, t.carries = .step n) ∨ t.kind ≠ .broadcast) →
        exec .segmentFrameSent s =
          .next (endCommand (onLine (.awaiting { t with timeout := some s.tables.params.replyTimeout }))))
      ∧ (∀ w e, g.line = .sending t w → t.carries = .pass e → t.kind = .broadcast → e.reservation < 24 →
          ∃ u, exec .segmentFrameSent s = .next u ∧ u.segment = { g with line := .free }
            ∧ u.Shows e.reservation { kind := 0x41, tag := e.tag, outcome := 0x01, body := [] }
            ∧ u.restore = s.restore ∧ u.gap = s.gap ∧ (e.action.absent ≠ .queue → u.hold = s.hold)
            ∧ (e.action.slot = none → u.shadow = s.shadow)
            ∧ (∀ a n, s.entry a = some n → (a ∉ e.live ∨ (s.nodeState a).isAbsent = false) → u.queue a = s.queue a)
            ∧ (e.live = [] → u.shadow = s.shadow ∧ u.hold = s.hold)
            ∧ (∀ a n, s.entry a = some n → a ∈ e.live → (s.nodeState a).isAbsent = true → e.action.absent = .queue →
                (s.queue a).length < n.holdCap → (addresses.filter (fun b => decide (b ∈ e.live))).length ≤ s.holdFree →
                u.queue a = s.queue a ++ [copy e a n])
            ∧ (∀ a n k, s.entry a = some n → a ∈ e.live → e.action.slot = some k → k < n.shadowCount →
                n.shadowBase + k < 96 → (∀ b d, b ≠ a → s.entry b = some d → d.shadowBase ≠ n.shadowBase) →
                let shown := fun (mark : Bool) =>
                  u.slot (n.shadowBase + k) =
                    some
                      { node := a, relative := k, rule := e.rule, policy := e.action.replay, kind := e.kind
                        function := e.function, payload := e.payload, marked := mark }
                (s.nodeState a = .online → shown (s.slotPending (n.shadowBase + k)))
                  ∧ ((s.nodeState a).isAbsent = true → e.action.absent = .latest → shown true
                      ∧ u.replayInFlight a =
                          (s.replayInFlight a).map
                            (fun h => if h.slot = n.shadowBase + k then { h with replaced := true } else h))))
      ∧ (g.line = .awaiting t → exec .replyStart s = .next (endCommand (onLine (.collecting t))))
      ∧ (∀ n, g.line = .settling n → exec .settlingEnd s = .next (endCommand (onLine .free)))
      ∧ (∀ n, g.line = .collecting t → t.timeout = some n →
          (∃ u, exec .replyCharacterGap s = .next u ∧ u.segment.line = .settling n ∧ u.flagSet .segmentCheck = true)
            ∧ ∀ length : Byte, 64 < length.toNat →
                ∃ u, exec (.replyLengthAbove64 length) s = .next u ∧ u.segment.line = .settling n
                  ∧ u.flagSet .segmentCheck = true)
      ∧ (g.line = .awaiting t → ∃ u, exec .replyTimeout s = .next u ∧ u.segment.line = .free)
      ∧ (∀ chars r, g.line = .collecting t → collectReply chars = some r → r.Fails t.kind t.destination →
          ∃ u, exec (.replyReceived chars) s = .next u ∧ u.segment.line = .free ∧ u.flagSet .segmentCheck = true)

/-- A pass transaction to a node ends. A valid reply is answered DONE with the reply's kind, function and payload; ACCEPT and
ANSWER capture the frame without the mark into the slot it names, unless that slot is pending or the destination lost its record
in flight; an ONLINE node's no-reply count becomes 0, and a changed marker moves the node to PROBE. A miss (a timeout, a
complete reply that fails R6, or a reply cut short, with SEGMENT_CHECK raised for the last two) sends the entry to the head of
its sub-queue while the retries last and the node is ONLINE or unconfigured; else the answer is NO_REPLY, or NO_REPLY_GAP for a
SUSPECT node, the pass no-replies counter goes up, and the no-reply count of an ONLINE node, which reaches PROBE at the lost
threshold. That a node enters PROBE here also while a gap is in progress and its supply is FED, and that an entry is sent again
also to a node that left ONLINE and came back while it was in flight, and that SEGMENT_CHECK and its notice come before the
answer, are the model's choices (log entries 38, 39, 36) (R5, R6, R12, R48, R49, R66, R67, R69, R70, R109, R112, R113, R116). -/
def Obligations.PassTransactionEndsInAnswer : Prop :=
  ∀ (s : State) (t : Transaction) (e : PassEntry), t.carries = .pass e → t.destination = e.destination →
    t.kind = e.kind.segment → e.kind ≠ .broadcast → 1 ≤ e.destination → e.destination ≤ 30 → e.reservation < 24 →
    let a := e.destination
    let p := s.tables.params
    let f := s.lineFree
    let answer : Byte → List Byte → TrunkFrame := fun code body =>
      { kind := 0x41, tag := e.tag, outcome := code, body := body }
    (∀ v : Reply, s.segment.line = .collecting t →
        ((v.kind = .accept ∧ v.payload = [] ∧ e.kind = .command) ∨ (v.kind = .refuse ∧ v.payload.length = 1)
          ∨ (v.kind = .answer ∧ v.payload.length ≤ 64)) →
        let done := answer 0x01 (v.kind.code :: v.function :: v.payload)
        let ends := fun (u : State) =>
          exec (.replyReceived (replyChars a v)) s = .next (endCommand (u.fills e.reservation done))
        (s.runtime a = none → ends f)
          ∧ ∀ r, s.runtime a = some r →
              ((e.action.slot = none ∨ v.kind = .refuse ∨ t.destinationKept = false) →
                  (r.state = .online → (r.bootCount = none ∨ r.bootCount = some v.marker) →
                      ends (f.setRuntime a (some { r with noReply := 0 })))
                    ∧ (r.state ∉ [NodeState.online, .config, .replay, .release] → ends f))
                ∧ (∀ b, r.state ∈ [NodeState.online, .config, .replay, .release] → r.bootCount = some b →
                    b ≠ v.marker →
                    (∀ q ∈ s.segment.urgent ++ s.segment.normal, q.reservation ≠ e.reservation) →
                    ∃ u, exec (.replyReceived (replyChars a v)) s = .next u ∧ u.nodeState a = .probe
                      ∧ u.Shows e.reservation done)
                ∧ (∀ k n, e.action.slot = some k → v.kind ≠ .refuse → t.destinationKept = true → s.entry a = some n →
                    (r.state ∈ [NodeState.online, .config, .replay, .release] →
                      r.bootCount = none ∨ r.bootCount = some v.marker) →
                    let i := n.shadowBase + k
                    ∃ u, exec (.replyReceived (replyChars a v)) s = .next u ∧ u.Shows e.reservation done
                      ∧ u.runtime a = some (if r.state = .online then { r with noReply := 0 } else r) ∧ u.hold = s.hold
                      ∧ (k < n.shadowCount → i < 96 → s.slotPending i = true → u.shadow = s.shadow)
                      ∧ (k < n.shadowCount → i < 96 → s.slotPending i = false →
                          u.slot i =
                              some
                                { node := a, relative := k, rule := e.rule, policy := e.action.replay, kind := e.kind
                                  function := e.function, payload := e.payload, marked := false }
                            ∧ u.replayList a = (s.replayList a).filter (fun j => decide (j ≠ i)) ++ [i]
                            ∧ ∀ j, j ≠ i → u.slot j = s.slot j)
                      ∧ (n.shadowCount ≤ k → u.flagSet .shadowMiss = true
                          ∧ u.shadow = { s.shadow with missCount := s.shadow.missCount + 1 })))
      ∧ (∀ c m, s.Misses t c m →
          let again := { e with misses := e.misses + 1 }
          let ends := fun (u : State) => exec c s = .next (endCommand u)
          let isRetry := e.misses + 1 ≤ p.passRetries
          let lost := fun (r : Runtime) => { r with passNoReplies := r.passNoReplies + 1 }
          ((s.runtime a = none ∨ s.nodeState a = .online) → isRetry → e.action.urgency = .urgent →
              ends { m with segment := { m.segment with urgent := again :: m.segment.urgent } })
            ∧ ((s.runtime a = none ∨ s.nodeState a = .online) → isRetry → e.action.urgency = .normal →
                ends { m with segment := { m.segment with normal := again :: m.segment.normal } })
            ∧ (s.runtime a = none → ¬ isRetry → ends (m.fills e.reservation (answer 0x07 [])))
            ∧ ∀ r, s.runtime a = some r →
                (r.state = .suspect → ends ((m.setRuntime a (some (lost r))).fills e.reservation (answer 0x08 [])))
                  ∧ (r.state ∉ [NodeState.suspect, .online, .unconfigured] →
                      ends ((m.setRuntime a (some (lost r))).fills e.reservation (answer 0x07 [])))
                  ∧ (r.state = .online → ¬ isRetry → r.noReply + 1 < p.lostThreshold →
                      ends
                        ((m.setRuntime a (some { lost r with noReply := r.noReply + 1 })).fills e.reservation
                          (answer 0x07 [])))
                  ∧ (r.state = .online → ¬ isRetry → p.lostThreshold ≤ r.noReply + 1 →
                      ∃ u r', exec c s = .next u ∧ u.runtime a = some r' ∧ r'.state = .probe
                        ∧ r'.bootCount = r.bootCount ∧ r'.noReply = r.noReply + 1
                        ∧ r'.passNoReplies = r.passNoReplies + 1
                        ∧ ((∀ q ∈ s.segment.urgent ++ s.segment.normal, q.reservation ≠ e.reservation) →
                            u.Shows e.reservation (answer 0x07 []))))

/-! ### Timers -/

/-- What falls due when the clock reaches it: a next probe time makes the probe READY; a boot window close moves the node to
MISSING with its probe in flight kept, else with the next probe one missing interval on; a busy poll time makes the BUSY POLL
READY; a hold expiry removes the entry, reports EXPIRED for a tag, and leaves a RELEASE that it emptied by the onward choice; in
a RELEASE that keeps entries the step stays, with the step miss count 0 when the head has gone. That the count is kept when
another entry has gone is the model's choice (log entry 10). That the next probe time is kept once it was reached, and that the
phase before gap and the next probe time go at the window close with a probe in flight, is the model's choice (log entry 22)
(R43, R44, R47, R130 to R133, R152). -/
def Obligations.TimersActWhenReached : Prop :=
  ∀ (s : State) (a : Nat) (r : Runtime), s.runtime a = some r →
    let now := s.gap.clock
    let without := fun (k : Nat) => { s with hold := { queues := putNode s.hold.queues a ((s.queue a).eraseIdx k) } }
    ((r.state = .awaitBoot ∨ r.state = .missing) → r.step = .waiting → r.nextProbe = some now →
        exec (.nextProbeTime a) s = .next (endCommand (s.setRuntime a (some { r with step := .ready .probe }))))
      ∧ (∀ opens, r.state = .awaitBoot → r.window = some (opens, now) →
          ∃ t, exec (.bootWindowClose a) s = .next t ∧ t.queue a = s.queue a ∧ t.shadow = s.shadow
            ∧ t.runtime a =
                some
                  (match r.step with
                    | .inFlight k =>
                      { r with state := .missing, window := none, phase := none, nextProbe := none, step := .inFlight k }
                    | c =>
                      { r with
                        state := .missing, window := none, phase := none
                        nextProbe := some (now + BitVec.ofNat 32 (s.tables.params.missingInterval * 1000))
                        step := if c = .orphaned then .orphaned else .waiting }))
      ∧ (∀ x, r.session = some x → x.pollTime = some now → r.step = .waiting →
          exec (.busyPollTime a) s =
            .next (endCommand
              (s.setRuntime a (some { r with step := .ready .busyPoll, session := some { x with pollTime := none } }))))
      ∧ (∀ k e, (s.queue a)[k]? = some e → e.expiry = some now → e.inFlight = false → r.state ≠ .release →
          (e.tag = none → exec (.holdExpiry a k) s = .next (endCommand (without k)))
            ∧ ∀ tag i, e.tag = some tag → (e.reservation = some i ∨ (e.reservation = none ∧ s.freeEntry = some i)) →
                exec (.holdExpiry a k) s =
                  .next (endCommand
                    ((without k).fills i { kind := 0x43, tag := tag, outcome := 0x21, body := [u8 e.node] })))
      ∧ (∀ k e, (s.queue a)[k]? = some e → e.expiry = some now → e.inFlight = false → r.state = .release →
          1 < (s.queue a).length →
          let left := fun (u : State) => if k = 0 then u.setRuntime a (some { r with misses := 0 }) else u
          (e.tag = none → exec (.holdExpiry a k) s = .next (endCommand (left (without k))))
            ∧ ∀ tag i, e.tag = some tag → (e.reservation = some i ∨ (e.reservation = none ∧ s.freeEntry = some i)) →
                exec (.holdExpiry a k) s =
                  .next (endCommand
                    (left ((without k).fills i { kind := 0x43, tag := tag, outcome := 0x21, body := [u8 e.node] }))))
      ∧ (∀ e, s.queue a = [e] → e.expiry = some now → e.inFlight = false → r.state = .release →
          (∀ k, r.step ≠ .inFlight k) →
          ∃ t, exec (.holdExpiry a 0) s = .next t ∧ t.queue a = []
            ∧ t.nodeState a = (if s.hasPending a then .replay else .online))

/-! ### Restore -/

/-- A probe that ends with a miss, by a timeout, a complete reply that fails R6 or a reply cut short. In PROBE it is sent again
up to step retries; above them the node enters AWAIT_BOOT with its window measured from now: a probe READY where open has been
reached, else due at open; and MISSING at once where close has been reached. In AWAIT_BOOT the next probe is due one call interval
from now, and none at or after close; in MISSING one missing interval from now. A bad check raises SEGMENT_CHECK. That the phase
before gap and the next probe time become absent with a move is the model's choice (log entry 22) (R5, R6, R42 to R44, R65 to
R67). -/
def Obligations.MissedProbesFollowTheState : Prop :=
  ∀ (s : State) (a : Nat) (e : NodeEntry) (r : Runtime) (t : Transaction) (c : Instr) (m : State),
    s.entry a = some e → s.runtime a = some r → r.step = .inFlight .probe → t.carries = .step a →
    s.Misses t c m →
    let p := s.tables.params
    let now := s.gap.clock
    let ends := fun (x : Runtime) =>
      ∃ u, exec c s = .next u ∧ u.runtime a = some x ∧ (∀ b, b ≠ a → u.runtime b = s.runtime b)
        ∧ u.segment = m.segment ∧ (c ≠ .replyTimeout → u.flagSet .segmentCheck = true)
        ∧ u.shadow = s.shadow ∧ u.hold = s.hold ∧ u.gap = s.gap ∧ u.store = s.store ∧ u.tables = s.tables
    let opens := now + BitVec.ofNat 32 (e.bootMin * 10)
    let closes := now + BitVec.ofNat 32 (e.bootMax * 10)
    let pause := now + BitVec.ofNat 32 (p.missingInterval * 1000)
    let next := now + BitVec.ofNat 32 p.callInterval
    (r.state = .probe → r.misses + 1 ≤ p.stepRetries → ends { r with misses := r.misses + 1, step := .ready .probe })
      ∧ (r.state = .probe → p.stepRetries < r.misses + 1 → reached now closes = false →
          let y := { r with state := .awaitBoot, window := some (opens, closes), phase := none, misses := 0 }
          ends
            (if reached now opens then { y with nextProbe := none, step := .ready .probe }
              else { y with nextProbe := some opens, step := .waiting }))
      ∧ (r.state = .probe → p.stepRetries < r.misses + 1 → reached now closes = true →
          ends
            { r with
              state := .missing, window := none, phase := none, misses := 0, nextProbe := some pause, step := .waiting })
      ∧ (∀ o w, r.state = .awaitBoot → r.window = some (o, w) →
          ends { r with nextProbe := some next, step := if reached next w then .none else .waiting })
      ∧ (r.state = .missing → ends { r with nextProbe := some pause, step := .waiting })

/-- The end of an ORPHANED step's transaction, or of one whose node has lost its record, by a timeout, by any complete reply, or
by a reply cut short: nothing of the result is used and no report is made. The replay-in-flight record becomes absent and every
slot keeps its mark; the entry that was in flight stays queued, in flight no longer, or expires now with its report when its
time has passed. The node's state then offers its first step: the probe in PROBE, in MISSING and within the window of
AWAIT_BOOT, there not before the next probe time; the config step; a replay step while a slot is pending; a release step while a
frame is held (R39, R43, R44, R67, R121, R130, R132, R138). -/
def Obligations.OrphanedStepsEndWithoutEffect : Prop :=
  ∀ (s : State) (a : Nat) (t : Transaction) (c : Instr) (m : State), t.carries = .step a →
    (s.Misses t c m ∨ ∃ chars v, c = .replyReceived chars ∧ s.segment.line = .collecting t ∧ collectReply chars = some v
      ∧ m = s.lineFree) →
    (∀ r, s.runtime a = some r → r.step = .orphaned) →
    let now := s.gap.clock
    let due := fun (h : HoldEntry) => ∃ x, h.expiry = some x ∧ reached now x = true
    let calm := fun (l : List HoldEntry) => l.map (fun h => { h with inFlight := false })
    let first := fun (r : Runtime) =>
      let probe := match r.nextProbe with
        | some x => if reached now x then StepCondition.ready .probe else .waiting
        | none => .ready .probe
      match r.state with
      | .probe => StepCondition.ready .probe
      | .awaitBoot =>
        match r.window with
        | some (_, closes) => if reached now closes then .none else probe
        | none => .none
      | .missing => probe
      | .config => .ready .config
      | .replay => if s.hasPending a then .ready .replay else .none
      | .release => if s.queue a = [] then .none else .ready .release
      | _ => .none
    let ends := fun (P : State → Prop) =>
      ∃ u, exec c s = .next u ∧ u.segment = m.segment
        ∧ u.replayInFlight a = none ∧ (∀ b, b ≠ a → u.replayInFlight b = s.replayInFlight b)
        ∧ u.shadow = { s.shadow with inFlight := u.shadow.inFlight }
        ∧ (∀ b, b ≠ a → u.runtime b = s.runtime b ∧ u.queue b = s.queue b)
        ∧ u.store = s.store ∧ u.gap = s.gap ∧ u.tables = s.tables
        ∧ (s.runtime a = none → u.runtime a = none)
        ∧ (∀ r, s.runtime a = some r → r.state ≠ .image → u.runtime a = some { r with step := first r }) ∧ P u
    ((∀ h ∈ s.queue a, h.inFlight = true → ¬ due h) →
        ends (fun u => u.queue a = calm (s.queue a) ∧ (s.responder.mask = 0 → u.trunk = (endCommand s).trunk)))
      ∧ ∀ i h, (s.queue a)[i]? = some h → h.inFlight = true → due h →
          (∀ j g, j < i → (s.queue a)[j]? = some g → g.inFlight = false) → s.nodeState a ≠ .release →
          ends (fun u => u.queue a = calm ((s.queue a).eraseIdx i)
            ∧ (h.tag = none → s.responder.mask = 0 → u.trunk = (endCommand s).trunk)
            ∧ ∀ tag k, h.tag = some tag → h.reservation = some k → k < 24 →
                u.Shows k { kind := 0x43, tag := tag, outcome := 0x21, body := [u8 h.node] })

/-- A STATUS REPORT that ends a probe in PROBE, AWAIT_BOOT or MISSING is reconciled. An equal count with no expected version
leaves by the onward choice; with one, AWAIT_BOOT goes on with its next probe one call interval from now, PROBE opens a window
measured from now, and MISSING is an attempt failure. An unknown or changed count records the marker, clears the FORGET slots
and marks the REPLAY slots, and goes by the node kind, the expected version (an image that is not intact and of that version is
an attempt failure), and the table of the image decision: reported image, catalogue entry (a DAMAGED one is none) and image
policy. An attempt failure here counts, drops the expected version, and at the limit or without an undamaged entry of the node's
kind enters FAILED, else IMAGE from block 0 with that entry (R43, R45 to R47, R118, R145 to R147, R157). -/
def Obligations.StatusReportIsReconciled : Prop :=
  ∀ (s : State) (a : Nat) (e : NodeEntry) (r : Runtime) (image : ImageState) (running target : Word16) (resume : Nat)
    (kind function marker : Byte),
    s.CollectsStep a .statusQuery → s.entry a = some e → s.runtime a = some r → r.step = .inFlight .probe →
    r.state ∈ [NodeState.probe, .awaitBoot, .missing] → resume ≤ 4095 →
    let code := match image with | .intact => (0 : Byte) | .incomplete => 1 | .absent => 2 | .corrupt => 3
    let report : Reply :=
      { kind := .statusReport, function := function, marker := marker
        payload := [code] ++ le16 running ++ le16 target ++ le16n resume ++ [kind] }
    let ends := fun (P : State → Runtime → Prop) =>
      ∃ u x, exec (.replyReceived (replyChars a report)) s = .next u ∧ u.runtime a = some x ∧ u.segment.line = .free
        ∧ P u x
    let kept := r.bootCount = some marker
    let stands := fun (k : Byte) (n : Nat) (c : CatalogueEntry) =>
      s.placeOfKind k = some n ∧ s.place n = some c ∧ c.image.damaged = false
    let entry := stands kind
    let renewed := fun (u : State) => ∀ i ∈ s.replayList a, ∀ q, s.slot i = some q →
      u.slot i = (match q.policy with | .forget => none | .replay => some { q with marked := true })
    let decided := fun (n : Nat) (c : CatalogueEntry) (k : Nat) (u : State) (x : Runtime) =>
      x.state = .image ∧ x.bootCount = some marker ∧ x.attempts = 0 ∧ renewed u
        ∧ ∃ y, x.session = some y ∧ y.entry = n ∧ y.next = k ∧ y.remaining = c.image.length - k ∧ y.retries = 0
            ∧ y.reported = some image ∧ y.lastSent = .none
    let configured := fun (u : State) (x : Runtime) =>
      x.state = .config ∧ x.step = .ready .config ∧ x.bootCount = some marker ∧ x.expected = none ∧ x.noReply = 0
        ∧ renewed u
    let failed := fun (u : State) (x : Runtime) =>
      x.state = .failed ∧ x.step = .none ∧ x.bootCount = none ∧ u.queue a = [] ∧ renewed u
    let now := s.gap.clock
    let next := now + BitVec.ofNat 32 s.tables.params.callInterval
    let opens := now + BitVec.ofNat 32 (e.bootMin * 10)
    let closes := now + BitVec.ofNat 32 (e.bootMax * 10)
    let limit := s.tables.params.imageAttempts
    let retried := fun (reported : Option ImageState) (u : State) (x : Runtime) =>
      x.attempts = r.attempts + 1 ∧ x.expected = none
        ∧ ((limit ≤ r.attempts + 1 ∨ ∀ n c, ¬ stands e.kind n c) →
            x.state = .failed ∧ x.step = .none ∧ x.bootCount = none ∧ u.queue a = [])
        ∧ ∀ n c, r.attempts + 1 < limit → stands e.kind n c →
            x.state = .image ∧ x.bootCount = some marker ∧ u.place n = some { c with readers := c.readers + 1 }
              ∧ ∃ y, x.session = some y ∧ y.entry = n ∧ y.next = 0 ∧ y.remaining = c.image.length ∧ y.retries = 0
                  ∧ y.reported = reported ∧ y.lastSent = .none
    let fresh := ¬ kept ∧ kind = e.kind ∧ r.expected = none
    let resumes := fun (c : CatalogueEntry) =>
      image = .incomplete ∧ target = c.image.version ∧ resume < c.image.length
    (kept → r.expected = none →
        ends (fun u x => x.bootCount = some marker
          ∧ x.state = (if s.hasPending a then .replay else if s.queue a = [] then .online else .release)
          ∧ (x.state = .online → x.attempts = 0 ∧ x.noReply = 0 ∧ x.restores = r.restores + 1)
          ∧ u.shadow = s.shadow ∧ u.hold = s.hold))
      ∧ (∀ v, kept → r.expected = some v → r.state = .awaitBoot →
          ends (fun _ x => x.state = .awaitBoot ∧ x.window = r.window ∧ x.expected = some v ∧ x.bootCount = some marker
            ∧ ∀ o w, r.window = some (o, w) →
                x.nextProbe = some next ∧ x.step = (if reached next w then .none else .waiting)))
      ∧ (∀ v, kept → r.expected = some v → r.state = .probe →
          ends (fun u x => x.expected = some v ∧ x.bootCount = some marker ∧ x.misses = 0 ∧ u.shadow = s.shadow
            ∧ (reached now closes = false →
                x.state = .awaitBoot ∧ x.window = some (opens, closes)
                  ∧ x.step = (if reached now opens then .ready .probe else .waiting)
                  ∧ (reached now opens = false → x.nextProbe = some opens))
            ∧ (reached now closes = true →
                x.state = .missing ∧ x.window = none ∧ x.step = .waiting
                  ∧ x.nextProbe = some (now + BitVec.ofNat 32 (s.tables.params.missingInterval * 1000)))))
      ∧ (∀ v, kept → r.expected = some v → r.state = .missing →
          ends (fun u x => retried none u x ∧ u.shadow = s.shadow))
      ∧ (¬ kept → kind ≠ e.kind → ends failed)
      ∧ (∀ v, ¬ kept → kind = e.kind → r.expected = some v → (image ≠ .intact ∨ running ≠ v) →
          ends (fun u x => retried (some image) u x ∧ renewed u))
      ∧ (¬ kept → kind = e.kind → r.expected = some running → image = .intact →
          ends (fun u x => configured u x ∧ x.attempts = r.attempts))
      ∧ (fresh → (∀ n c, ¬ entry n c) → image = .intact → ends configured)
      ∧ (fresh → (∀ n c, ¬ entry n c) → image ≠ .intact → ends failed)
      ∧ (∀ n c, fresh → entry n c →
          (image = .intact → (running = c.image.version ∨ e.policy ≠ .follow) → ends configured)
            ∧ (image = .intact → running ≠ c.image.version → e.policy = .follow → ends (decided n c 0))
            ∧ (image ≠ .intact → e.policy = .none → ends failed)
            ∧ (resumes c → e.policy ≠ .none → ends (decided n c resume))
            ∧ (image ≠ .intact → ¬ resumes c → e.policy ≠ .none → ends (decided n c 0)))

/-- Config, replay and release steps and captures. ACCEPT to CONFIG with the count unchanged leaves by the onward choice, REFUSE
enters FAILED, and a miss (a timeout, a complete reply that fails R6, or a reply cut short) asks again up to step retries. A
reply to a replay step clears the pending mark of its slot unless the slot was replaced, counts a REFUSE, and the node goes on
with what is pending. A reply to a release step removes the head of the queue and reports it DELIVERED with the reply. A capture
replaces the slot's record whole, moves the slot to the tail of the list, and beyond the node's shadow count is a miss; with the
pending mark it sets the replaced mark of a replay of that slot on the wire, and without it, or for another slot, it leaves the
record. That a node enters PROBE here also while a gap is in progress and its supply is FED is the model's choice (log entry 38)
(R5, R6, R47, R50, R66, R67, R109 to R112, R115, R116, R120, R132, R136). -/
def Obligations.ConfigReplayReleaseAndCapture : Prop :=
  ∀ (s : State) (a : Nat) (r : Runtime) (marker function : Byte), s.runtime a = some r →
    let reply := fun (k : ReplyKind) (payload : List Byte) =>
      replyChars a { kind := k, function := function, marker := marker, payload := payload }
    let ends := fun (chars : List Byte) (P : State → Runtime → Prop) =>
      ∃ u x, exec (.replyReceived chars) s = .next u ∧ u.runtime a = some x ∧ u.segment.line = .free ∧ P u x
    let same := r.bootCount = some marker
    let onward := fun (pending : Bool) => if pending then NodeState.replay else if s.queue a = [] then .online else .release
    (s.CollectsStep a .config → r.step = .inFlight .config → r.state = .config → same →
        ends (reply .accept []) (fun u x => x.state = onward (s.hasPending a) ∧ u.shadow = s.shadow)
          ∧ ∀ reason, ends (reply .refuse [reason]) (fun u x => x.state = .failed ∧ x.bootCount = none ∧ u.queue a = []))
      ∧ (∀ t c m, s.Misses t c m → t.carries = .step a → r.step = .inFlight .config → r.state = .config →
          (r.misses + 1 ≤ s.tables.params.stepRetries →
              exec c s =
                .next (endCommand (m.setRuntime a (some { r with misses := r.misses + 1, step := .ready .config }))))
            ∧ (s.tables.params.stepRetries < r.misses + 1 →
                ∃ u x, exec c s = .next u ∧ u.runtime a = some x ∧ x.state = .probe ∧ x.bootCount = none
                  ∧ x.misses = 0 ∧ x.step = .ready .probe))
      ∧ (∀ f q, s.CollectsStep a .command → r.step = .inFlight .replay → r.state = .replay → same →
          s.replayInFlight a = some f → s.slot f.slot = some q → f.slot ∈ s.replayList a →
          let after := if f.replaced then q else { q with marked := false }
          let more := after.marked || (s.pendingSlots a).any (fun i => decide (i ≠ f.slot))
          let done := fun (n : Word32) (u : State) (x : Runtime) =>
            u.slot f.slot = some after ∧ u.replayInFlight a = none ∧ x.state = onward more ∧ x.misses = 0
              ∧ x.refusals = n ∧ ∀ i, i ≠ f.slot → u.slot i = s.slot i
          ends (reply .accept []) (done r.refusals)
            ∧ ∀ reason, ends (reply .refuse [reason]) (done (r.refusals + 1)))
      ∧ (∀ h l tag i, s.CollectsStep a (if h.kind = .query then .query else .command) → r.step = .inFlight .release →
          r.state = .release → same → s.queue a = h :: l → h.tag = some tag → h.reservation = some i → h.node = a →
          i < 24 → h.slot = none → ∀ bytes : List Byte, bytes.length ≤ 64 →
          ends (reply .answer bytes) (fun u x => u.queue a = l ∧ x.misses = 0 ∧ x.noReply = (if x.state = .online then 0 else r.noReply)
            ∧ x.state = (if l ≠ [] then .release else if s.hasPending a then .replay else .online)
            ∧ u.Shows i { kind := 0x43, tag := tag, outcome := 0x20, body := u8 a :: 0x82 :: function :: bytes }))
      ∧ (∀ n e c mark, s.entry a = some e →
          (n < e.shadowCount → e.shadowBase + n < 96 →
              let i := e.shadowBase + n
              (capture a n c mark s).2 = true
                ∧ (capture a n c mark s).1.slot i =
                    some
                      { node := a, relative := n, rule := c.rule, policy := c.policy, kind := c.kind
                        function := c.function, payload := c.payload, marked := mark || s.slotPending i }
                ∧ (capture a n c mark s).1.replayList a = (s.replayList a).filter (fun j => decide (j ≠ i)) ++ [i]
                ∧ (capture a n c mark s).1.replayInFlight a =
                    (s.replayInFlight a).map
                      (fun g => if mark = true ∧ g.slot = i then { g with replaced := true } else g)
                ∧ (∀ b, b ≠ a → (capture a n c mark s).1.replayInFlight b = s.replayInFlight b)
                ∧ ∀ j, j ≠ i → (capture a n c mark s).1.slot j = s.slot j)
            ∧ (e.shadowCount ≤ n →
                (capture a n c mark s).2 = false ∧ (capture a n c mark s).1.flagSet .shadowMiss = true
                  ∧ (capture a n c mark s).1.shadow = { s.shadow with missCount := s.shadow.missCount + 1 }))

/-- Tokens in IMAGE with the count unchanged: GOOD or VERIFIED to a block goes on to the next block, or to IMAGE END after the
last; CHECK_FAIL and a miss (a timeout, a complete reply that fails R6, or a reply cut short) resend up to block retries; BUSY
polls after the busy poll interval; WRITE_FAIL at the attempts limit enters FAILED; VERIFIED to IMAGE END sets the expected
version, ends the session and enters AWAIT_BOOT with its window measured from now (R5, R6, R66, R67, R150 to R152, R154 to R156,
R159). -/
def Obligations.ImageTokensDriveTransfer : Prop :=
  ∀ (s : State) (a : Nat) (e : NodeEntry) (r : Runtime) (x : Session) (b : Nat) (marker function : Byte),
    s.entry a = some e → s.runtime a = some r → r.state = .image → r.session = some x → r.bootCount = some marker →
    let ends := fun (token : Byte) (P : State → Runtime → Prop) =>
      ∃ u y, exec (.replyReceived (replyChars a
          { kind := .blockToken, function := function, marker := marker, payload := [token] })) s = .next u
        ∧ u.runtime a = some y ∧ u.segment.line = .free ∧ P u y
    let now := s.gap.clock
    let again := fun (k : StepKind) (y : Runtime) =>
      y = { r with step := .ready k, session := some { x with retries := x.retries + 1 } }
    (s.CollectsStep a .imageBlock → r.step = .inFlight .imageBlock → x.buffer = some b →
        (∀ token, (token = 0 ∨ token = 4) → 1 < x.remaining →
            ends token (fun _ y => y.state = .image ∧ y.step = .waiting
              ∧ ∃ z, y.session = some z ∧ z.next = x.next + 1 ∧ z.remaining = x.remaining - 1 ∧ z.retries = 0
                  ∧ z.busyCount = 0))
          ∧ (∀ token, (token = 0 ∨ token = 4) → x.remaining = 1 → s.readPending b = false → s.restore.waiting = [] →
              ends token (fun u y => y.state = .image ∧ y.step = .ready .imageEnd
                ∧ u.restore.buffers = s.restore.buffers.setIfInBounds b .free
                ∧ ∃ z, y.session = some z ∧ z.next = x.next + 1 ∧ z.remaining = 0 ∧ z.buffer = none))
          ∧ (x.retries + 1 ≤ s.tables.params.blockRetries → ends 1 (fun _ y => again .imageBlock y))
          ∧ ends 3 (fun _ y => y =
              { r with
                step := .waiting
                session :=
                  some { x with pollTime := some (now + BitVec.ofNat 32 s.tables.params.busyPollInterval) } })
          ∧ (s.tables.params.imageAttempts ≤ r.attempts + 1 →
              ends 2 (fun u y => y.state = .failed ∧ y.attempts = r.attempts + 1 ∧ y.session = none
                ∧ y.bootCount = none ∧ u.queue a = [])))
      ∧ (∀ t c m, s.Misses t c m → t.carries = .step a → r.step = .inFlight .imageBlock →
          x.retries + 1 ≤ s.tables.params.blockRetries →
          ∃ u y, exec c s = .next u ∧ u.segment = m.segment ∧ u.runtime a = some y ∧ again .imageBlock y)
      ∧ (∀ c, s.CollectsStep a .imageEnd → r.step = .inFlight .imageEnd → s.place x.entry = some c → x.buffer = none →
          reached now (now + BitVec.ofNat 32 (e.bootMax * 10)) = false →
          ends 4 (fun u y => y.state = .awaitBoot ∧ y.expected = some c.image.version ∧ y.session = none
            ∧ y.bootCount = some marker ∧ y.attempts = r.attempts
            ∧ y.window = some (now + BitVec.ofNat 32 (e.bootMin * 10), now + BitVec.ofNat 32 (e.bootMax * 10))
            ∧ u.place x.entry = some { c with readers := c.readers - 1 }))

/-- What ends an attempt, a poll or a transfer in IMAGE. A token that answers a BUSY POLL is the verdict on the frame last sent;
BUSY again is polled up to the busy limit; a miss of a poll or of an IMAGE END (a timeout, a complete reply that fails R6, or a
reply cut short) is counted against block retries. An attempt failure (WRITE_FAIL; a count above block retries; the busy limit;
GOOD, CHECK_FAIL or WRITE_FAIL on an IMAGE END) below the attempts limit restarts the transfer from block 0 with the same entry
and readers count, and at the limit enters FAILED. A changed marker uses no token: the session ends and the node enters PROBE
with its count unknown. That it enters PROBE also while a gap is in progress and its supply is FED is the model's choice (log
entry 38) (R5, R6, R66, R67, R148, R150, R151, R152 to R156, R158, R159). -/
def Obligations.PollsFailuresAndChangedMarkersInImage : Prop :=
  ∀ (s : State) (a : Nat) (n : NodeEntry) (r : Runtime) (x : Session) (c : CatalogueEntry) (count function : Byte),
    s.entry a = some n → s.runtime a = some r → r.state = .image → r.session = some x → r.bootCount = some count →
    s.place x.entry = some c →
    let p := s.tables.params
    let due := s.gap.clock + BitVec.ofNat 32 p.busyPollInterval
    let after := fun (o : Host.Outcome State Fault Refusal) (l : Line) (P : State → Runtime → Prop) =>
      ∃ u y, o = .next u ∧ u.runtime a = some y ∧ u.segment.line = l ∧ P u y
    let ends := fun (marker token : Byte) (P : State → Runtime → Prop) =>
      after (exec (.replyReceived (replyChars a
        { kind := .blockToken, function := function, marker := marker, payload := [token] })) s) .free P
    let misses := fun (P : State → Runtime → Prop) =>
      ∀ t k m, s.Misses t k m → t.carries = .step a → after (exec k s) m.segment.line P
    let released := some { c with readers := c.readers - 1 }
    let failure : State → Runtime → Prop := fun u y =>
      y.attempts = r.attempts + 1
        ∧ (p.imageAttempts ≤ r.attempts + 1 →
            y.state = .failed ∧ y.session = none ∧ y.bootCount = none ∧ u.queue a = [] ∧ u.place x.entry = released)
        ∧ (r.attempts + 1 < p.imageAttempts →
            y.state = .image ∧ y.step = .waiting ∧ y.bootCount = some count ∧ u.place x.entry = some c
              ∧ ∃ z, y.session = some z ∧ z.entry = x.entry ∧ z.reported = x.reported ∧ z.next = 0
                  ∧ z.remaining = c.image.length ∧ z.lastSent = .none ∧ z.retries = 0 ∧ z.busyCount = 0
                  ∧ z.pollTime = none ∧ z.request ∈ [BufferRequest.waitingList, .reading])
    let stored : State → Runtime → Prop := fun _ y =>
      y.state = .image ∧ y.step = (if x.remaining = 1 then .ready .imageEnd else .waiting)
        ∧ ∃ z, y.session = some z ∧ z.next = x.next + 1 ∧ z.remaining = x.remaining - 1 ∧ z.retries = 0
            ∧ z.busyCount = 0 ∧ z.lastSent = .none
    let polled : Nat → Nat → State → Runtime → Prop := fun busy retries _ y =>
      y = { r with
            step := .waiting, session := some { x with busyCount := busy, retries := retries, pollTime := some due } }
    let again : StepKind → State → Runtime → Prop := fun k _ y =>
      y = { r with step := .ready k, session := some { x with retries := x.retries + 1 } }
    let spent := p.blockRetries < x.retries + 1
    let runs := fun (k : StepKind) (w : SegmentKind) => s.CollectsStep a w ∧ r.step = .inFlight k
    (runs .busyPoll .busyPoll →
        (x.lastSent = .block → 0 < x.remaining → ends count 0 stored ∧ ends count 4 stored)
          ∧ (x.lastSent = .block → (spent → ends count 1 failure) ∧ (¬ spent → ends count 1 (again .imageBlock)))
          ∧ (x.lastSent = .imageEnd → ends count 0 failure ∧ ends count 1 failure)
          ∧ (x.lastSent = .imageEnd →
              ends count 4 (fun u y => y.state ∈ [NodeState.awaitBoot, .missing] ∧ y.session = none
                ∧ y.expected = some c.image.version ∧ y.attempts = r.attempts ∧ u.place x.entry = released))
          ∧ ends count 2 failure
          ∧ (x.busyCount + 1 < p.busyLimit → ends count 3 (polled (x.busyCount + 1) x.retries))
          ∧ (p.busyLimit ≤ x.busyCount + 1 → ends count 3 failure))
      ∧ (runs .imageBlock .imageBlock → (spent → ends count 1 failure) ∧ ends count 2 failure)
      ∧ (runs .imageEnd .imageEnd →
          ends count 0 failure ∧ ends count 1 failure ∧ ends count 2 failure
            ∧ ends count 3 (polled x.busyCount x.retries))
      ∧ (r.step = .inFlight .busyPoll →
          (spent → misses failure) ∧ (¬ spent → misses (polled x.busyCount (x.retries + 1))))
      ∧ (r.step = .inFlight .imageBlock → spent → misses failure)
      ∧ (r.step = .inFlight .imageEnd → (spent → misses failure) ∧ (¬ spent → misses (again .imageEnd)))
      ∧ (∀ k w marker token, (k, w) ∈ [(StepKind.imageBlock, SegmentKind.imageBlock), (.imageEnd, .imageEnd),
            (.busyPoll, .busyPoll)] →
          runs k w → marker ≠ count → token.toNat ≤ 4 →
          ends marker token (fun u y => y.state = .probe ∧ y.step = .ready .probe ∧ y.session = none
            ∧ y.bootCount = none ∧ y.attempts = r.attempts ∧ y.expected = r.expected ∧ y.misses = 0
            ∧ u.place x.entry = released))

/-- Replay and release steps that miss (by a timeout, a complete reply that fails R6, or a reply cut short), replies with a
changed marker, and the replies to a release step. A missed replay step is asked again up to step retries while a slot is
pending, and a missed release step up to pass retries; beyond them the node enters PROBE with its count kept, the replay's slots
kept and the release's entry removed with the report NO_REPLY for a tag. A changed marker moves the node to PROBE after the
reply was applied, its count unknown only from CONFIG. Any valid reply to a release step removes the head and reports it
DELIVERED with the reply, for a tag only; ACCEPT and ANSWER capture its frame without the mark into the slot it names, unless
that slot is pending. That a node enters PROBE here also while a gap is in progress and its supply is FED, and that
SEGMENT_CHECK and its notice come before the report, are the model's choices (log entries 38, 36) (R5, R6, R40, R49, R51, R52,
R66, R67, R113, R120, R121, R132, R136, R137). -/
def Obligations.StepMissesMarkersAndReleaseReplies : Prop :=
  ∀ (s : State) (a : Nat) (r : Runtime), s.runtime a = some r →
    let p := s.tables.params
    let f := s.lineFree
    let missed := fun (k : StepKind) (c : Instr) (m : State) =>
      ∃ t, s.Misses t c m ∧ t.carries = .step a ∧ r.step = .inFlight k
    let counted := fun (k : StepKind) => some { r with misses := r.misses + 1, step := .ready k }
    let probed : Option Byte → Runtime := fun count =>
      { r with
        state := .probe, window := none, nextProbe := none, phase := none, misses := 0, bootCount := count
        step := .ready .probe }
    let receives := fun (v : Reply) (P : State → Prop) =>
      ∃ u, exec (.replyReceived (replyChars a v)) s = .next u ∧ P u
    let changed := fun (v : Reply) => ∃ b, r.bootCount = some b ∧ b ≠ v.marker
    let fits := fun (k : RequestKind) (v : Reply) =>
      (v.kind = .accept ∧ v.payload = [] ∧ k ≠ .query) ∨ (v.kind = .refuse ∧ v.payload.length = 1)
        ∨ (v.kind = .answer ∧ v.payload.length ≤ 64)
    (∀ c m, missed .replay c m → r.state = .replay →
        (s.hasPending a = true → r.misses + 1 ≤ p.stepRetries →
            exec c s = .next (endCommand ((m.setReplayInFlight a none).setRuntime a (counted .replay))))
          ∧ (s.hasPending a = false → r.misses + 1 ≤ p.stepRetries →
              ∃ u, exec c s = .next u ∧ u.shadow.slots = s.shadow.slots
                ∧ u.nodeState a = (if s.queue a = [] then .online else .release))
          ∧ (p.stepRetries < r.misses + 1 →
              exec c s =
                .next (endCommand ((m.setReplayInFlight a none).setRuntime a (some (probed r.bootCount))))))
      ∧ (∀ c m h l, missed .release c m → r.state = .release → s.queue a = h :: l →
          let left := (m.setQueue a l).setRuntime a (some (probed r.bootCount))
          (r.misses + 1 ≤ p.passRetries →
              exec c s =
                .next (endCommand ((m.setQueue a ({ h with inFlight := false } :: l)).setRuntime a (counted .release))))
            ∧ (p.passRetries < r.misses + 1 → h.tag = none → exec c s = .next (endCommand left))
            ∧ (∀ tag i, p.passRetries < r.misses + 1 → h.tag = some tag → h.reservation = some i →
                exec c s =
                  .next (endCommand
                    (left.fills i { kind := 0x43, tag := tag, outcome := 0x07, body := [u8 h.node] }))))
      ∧ (∀ v, s.CollectsStep a .config → r.step = .inFlight .config → r.state = .config → changed v →
          (v.kind = .accept ∧ v.payload = []) ∨ (v.kind = .refuse ∧ v.payload.length = 1) →
          exec (.replyReceived (replyChars a v)) s = .next (endCommand (f.setRuntime a (some (probed none)))))
      ∧ (∀ v g q, s.CollectsStep a .command → r.step = .inFlight .replay → r.state = .replay → changed v →
          fits .command v → s.replayInFlight a = some g → s.slot g.slot = some q →
          receives v (fun u => u.replayInFlight a = none ∧ u.queue a = s.queue a
            ∧ u.slot g.slot = some (if g.replaced then q else { q with marked := false })
            ∧ u.runtime a =
                some { probed r.bootCount with refusals := if v.kind = .refuse then r.refusals + 1 else r.refusals }))
      ∧ (∀ v h l, s.CollectsStep a (if h.kind = .query then .query else .command) → r.step = .inFlight .release →
          r.state = .release → s.queue a = h :: l → fits h.kind v →
          let next := if r.bootCount = none ∨ r.bootCount = some v.marker
            then { r with misses := 0, step := .ready .release } else probed r.bootCount
          let left := (f.setQueue a l).setRuntime a (some next)
          let report := fun (tag : Word16) =>
            ({ kind := 0x43, tag := tag, outcome := 0x20, body := u8 h.node :: v.kind.code :: v.function :: v.payload } :
              TrunkFrame)
          (h.slot = none → (l ≠ [] ∨ changed v) →
              (h.tag = none → exec (.replyReceived (replyChars a v)) s = .next (endCommand left))
                ∧ ∀ tag i, h.tag = some tag → h.reservation = some i →
                    exec (.replyReceived (replyChars a v)) s = .next (endCommand (left.fills i (report tag))))
            ∧ (l = [] → ¬ changed v → h.slot = none →
                receives v (fun u => u.queue a = [] ∧ u.shadow = s.shadow
                  ∧ u.nodeState a = (if s.hasPending a then .replay else .online)
                  ∧ ∀ tag i, h.tag = some tag → h.reservation = some i → i < 24 → u.Shows i (report tag)))
            ∧ (∀ n k, s.entry a = some n → h.slot = some k → k < n.shadowCount → n.shadowBase + k < 96 →
                let i := n.shadowBase + k
                receives v (fun u => u.queue a = l ∧ (∀ j, j ≠ i → u.slot j = s.slot j)
                  ∧ u.slot i =
                      if v.kind = .refuse ∨ s.slotPending i = true then s.slot i
                      else
                        some
                          { node := a, relative := k, rule := h.rule, policy := h.policy, kind := h.kind
                            function := h.function, payload := h.payload, marked := false })))
end

