-- ==== Sys2Proof/Laws/Blocks.lean ====
section
/-! SUPPORT. The block array: what a write leaves to be read, and its canonical form. -/

namespace Sys2Proof.Machine

theorem blocksCanonical_cons (i : Nat) (b : StoreBlock) (m : List (Nat × StoreBlock)) :
    blocksCanonical ((i, b) :: m) = true ↔
      b ≠ unprogrammedBlock ∧ (∀ x, m.head? = some x → i < x.1) ∧ blocksCanonical m = true := by
  cases m with
  | nil => simp [blocksCanonical]
  | cons y rest => obtain ⟨j, c⟩ := y; simp [blocksCanonical, and_assoc]

/-- A write keeps the canonical form of the block array, and puts no number at its head below both `i` and the old head. -/
theorem writeBlock_canonical (m : List (Nat × StoreBlock)) (i : Nat) (b : StoreBlock) (h : blocksCanonical m = true) :
    blocksCanonical (writeBlock m i b) = true
      ∧ ∀ n, n < i → (∀ x, m.head? = some x → n < x.1) → ∀ x, (writeBlock m i b).head? = some x → n < x.1 := by
  induction m with
  | nil =>
    unfold writeBlock
    split
    · exact ⟨rfl, nofun⟩
    · next hb => exact ⟨by simp [blocksCanonical, hb], fun n hn _ x hx => by simp at hx; rw [← hx]; exact hn⟩
  | cons y rest ih =>
    obtain ⟨j, c⟩ := y
    have hc := (blocksCanonical_cons j c rest).mp h
    unfold writeBlock
    split
    · next hij =>
      split
      · exact ⟨h, fun n _ hm x hx => hm x hx⟩
      · next hb =>
        refine ⟨(blocksCanonical_cons i b _).mpr ⟨hb, fun x hx => ?_, h⟩, fun n hn _ x hx => ?_⟩
        · simp at hx; rw [← hx]; exact hij
        · simp at hx; rw [← hx]; exact hn
    · split
      · next hij =>
        subst hij
        split
        · refine ⟨hc.2.2, fun n hn _ x hx => Nat.lt_trans hn (hc.2.1 x hx)⟩
        · next hb =>
          refine ⟨(blocksCanonical_cons i b _).mpr ⟨hb, hc.2.1, hc.2.2⟩, fun n hn _ x hx => ?_⟩
          simp at hx; rw [← hx]; exact hn
      · next h1 h2 =>
        have hji : j < i := by omega
        have := ih hc.2.2
        refine ⟨(blocksCanonical_cons j c _).mpr ⟨hc.1, this.2 j hji hc.2.1, this.1⟩, fun n _ hm x hx => ?_⟩
        simp at hx
        rw [← hx]
        exact hm (j, c) rfl

/-- A written block reads as written, when what is written is not what an unlisted block reads as. -/
theorem readBlock_writeBlock_same (m : List (Nat × StoreBlock)) (i : Nat) (b : StoreBlock) (hb : b ≠ unprogrammedBlock) :
    readBlock (writeBlock m i b) i = b := by
  induction m with
  | nil => simp [writeBlock, readBlock, hb]
  | cons y rest ih =>
    obtain ⟨j, c⟩ := y
    unfold writeBlock
    split
    · simp [readBlock]
    · split
      · simp [readBlock]
      · next h => simp [readBlock, h, ih]

/-- A write leaves every other block as it was. -/
theorem readBlock_writeBlock_other (m : List (Nat × StoreBlock)) (i j : Nat) (b : StoreBlock) (hij : j ≠ i) :
    readBlock (writeBlock m i b) j = readBlock m j := by
  induction m with
  | nil => unfold writeBlock; split <;> simp [readBlock, hij]
  | cons y rest ih =>
    obtain ⟨k, c⟩ := y
    unfold writeBlock
    split
    · split <;> simp [readBlock, hij]
    · split
      · next h => subst h; split <;> simp [readBlock, hij]
      · simp [readBlock, ih]

theorem writeStoreBlock_wf (s : State) (i : Nat) (b : StoreBlock) (h : s.store.wf = true) :
    (s.writeStoreBlock i b).store.wf = true := (writeBlock_canonical _ i b h).1

theorem reset_store_wf : State.reset.store.wf = true := by decide +kernel

end Sys2Proof.Machine
end

