-- ==== Sys2Proof/Laws/State.lean ====
section
/-! SUPPORT. One lemma per field of State per block update, so that no proof unfolds a record update. -/

namespace Sys2Proof.Machine

variable (s : State)

/-! ### withTrunk -/

@[simp] theorem State.withTrunk_pending (x : TrunkPort) : (s.withTrunk x).pending = s.pending := rfl
@[simp] theorem State.withTrunk_moment (x : TrunkPort) : (s.withTrunk x).moment = s.moment := rfl
@[simp] theorem State.withTrunk_straps (x : TrunkPort) : (s.withTrunk x).straps = s.straps := rfl
@[simp] theorem State.withTrunk_tables (x : TrunkPort) : (s.withTrunk x).tables = s.tables := rfl
@[simp] theorem State.withTrunk_trunk (x : TrunkPort) : (s.withTrunk x).trunk = x := rfl
@[simp] theorem State.withTrunk_responder (x : TrunkPort) : (s.withTrunk x).responder = s.responder := rfl
@[simp] theorem State.withTrunk_counters (x : TrunkPort) : (s.withTrunk x).counters = s.counters := rfl
@[simp] theorem State.withTrunk_shadow (x : TrunkPort) : (s.withTrunk x).shadow = s.shadow := rfl
@[simp] theorem State.withTrunk_hold (x : TrunkPort) : (s.withTrunk x).hold = s.hold := rfl
@[simp] theorem State.withTrunk_gap (x : TrunkPort) : (s.withTrunk x).gap = s.gap := rfl
@[simp] theorem State.withTrunk_restore (x : TrunkPort) : (s.withTrunk x).restore = s.restore := rfl
@[simp] theorem State.withTrunk_segment (x : TrunkPort) : (s.withTrunk x).segment = s.segment := rfl
@[simp] theorem State.withTrunk_store (x : TrunkPort) : (s.withTrunk x).store = s.store := rfl
@[simp] theorem State.withTrunk_stored (x : TrunkPort) : (s.withTrunk x).stored = s.stored := rfl

/-! ### withResponder -/

@[simp] theorem State.withResponder_pending (x : Responder) : (s.withResponder x).pending = s.pending := rfl
@[simp] theorem State.withResponder_moment (x : Responder) : (s.withResponder x).moment = s.moment := rfl
@[simp] theorem State.withResponder_straps (x : Responder) : (s.withResponder x).straps = s.straps := rfl
@[simp] theorem State.withResponder_tables (x : Responder) : (s.withResponder x).tables = s.tables := rfl
@[simp] theorem State.withResponder_trunk (x : Responder) : (s.withResponder x).trunk = s.trunk := rfl
@[simp] theorem State.withResponder_responder (x : Responder) : (s.withResponder x).responder = x := rfl
@[simp] theorem State.withResponder_counters (x : Responder) : (s.withResponder x).counters = s.counters := rfl
@[simp] theorem State.withResponder_shadow (x : Responder) : (s.withResponder x).shadow = s.shadow := rfl
@[simp] theorem State.withResponder_hold (x : Responder) : (s.withResponder x).hold = s.hold := rfl
@[simp] theorem State.withResponder_gap (x : Responder) : (s.withResponder x).gap = s.gap := rfl
@[simp] theorem State.withResponder_restore (x : Responder) : (s.withResponder x).restore = s.restore := rfl
@[simp] theorem State.withResponder_segment (x : Responder) : (s.withResponder x).segment = s.segment := rfl
@[simp] theorem State.withResponder_store (x : Responder) : (s.withResponder x).store = s.store := rfl
@[simp] theorem State.withResponder_stored (x : Responder) : (s.withResponder x).stored = s.stored := rfl

/-! ### withCounters -/

@[simp] theorem State.withCounters_pending (x : ClassifierCounters) : (s.withCounters x).pending = s.pending := rfl
@[simp] theorem State.withCounters_moment (x : ClassifierCounters) : (s.withCounters x).moment = s.moment := rfl
@[simp] theorem State.withCounters_straps (x : ClassifierCounters) : (s.withCounters x).straps = s.straps := rfl
@[simp] theorem State.withCounters_tables (x : ClassifierCounters) : (s.withCounters x).tables = s.tables := rfl
@[simp] theorem State.withCounters_trunk (x : ClassifierCounters) : (s.withCounters x).trunk = s.trunk := rfl
@[simp] theorem State.withCounters_responder (x : ClassifierCounters) : (s.withCounters x).responder = s.responder := rfl
@[simp] theorem State.withCounters_counters (x : ClassifierCounters) : (s.withCounters x).counters = x := rfl
@[simp] theorem State.withCounters_shadow (x : ClassifierCounters) : (s.withCounters x).shadow = s.shadow := rfl
@[simp] theorem State.withCounters_hold (x : ClassifierCounters) : (s.withCounters x).hold = s.hold := rfl
@[simp] theorem State.withCounters_gap (x : ClassifierCounters) : (s.withCounters x).gap = s.gap := rfl
@[simp] theorem State.withCounters_restore (x : ClassifierCounters) : (s.withCounters x).restore = s.restore := rfl
@[simp] theorem State.withCounters_segment (x : ClassifierCounters) : (s.withCounters x).segment = s.segment := rfl
@[simp] theorem State.withCounters_store (x : ClassifierCounters) : (s.withCounters x).store = s.store := rfl
@[simp] theorem State.withCounters_stored (x : ClassifierCounters) : (s.withCounters x).stored = s.stored := rfl

/-! ### withShadow -/

@[simp] theorem State.withShadow_pending (x : ShadowStore) : (s.withShadow x).pending = s.pending := rfl
@[simp] theorem State.withShadow_moment (x : ShadowStore) : (s.withShadow x).moment = s.moment := rfl
@[simp] theorem State.withShadow_straps (x : ShadowStore) : (s.withShadow x).straps = s.straps := rfl
@[simp] theorem State.withShadow_tables (x : ShadowStore) : (s.withShadow x).tables = s.tables := rfl
@[simp] theorem State.withShadow_trunk (x : ShadowStore) : (s.withShadow x).trunk = s.trunk := rfl
@[simp] theorem State.withShadow_responder (x : ShadowStore) : (s.withShadow x).responder = s.responder := rfl
@[simp] theorem State.withShadow_counters (x : ShadowStore) : (s.withShadow x).counters = s.counters := rfl
@[simp] theorem State.withShadow_shadow (x : ShadowStore) : (s.withShadow x).shadow = x := rfl
@[simp] theorem State.withShadow_hold (x : ShadowStore) : (s.withShadow x).hold = s.hold := rfl
@[simp] theorem State.withShadow_gap (x : ShadowStore) : (s.withShadow x).gap = s.gap := rfl
@[simp] theorem State.withShadow_restore (x : ShadowStore) : (s.withShadow x).restore = s.restore := rfl
@[simp] theorem State.withShadow_segment (x : ShadowStore) : (s.withShadow x).segment = s.segment := rfl
@[simp] theorem State.withShadow_store (x : ShadowStore) : (s.withShadow x).store = s.store := rfl
@[simp] theorem State.withShadow_stored (x : ShadowStore) : (s.withShadow x).stored = s.stored := rfl

/-! ### withHold -/

@[simp] theorem State.withHold_pending (x : HoldPool) : (s.withHold x).pending = s.pending := rfl
@[simp] theorem State.withHold_moment (x : HoldPool) : (s.withHold x).moment = s.moment := rfl
@[simp] theorem State.withHold_straps (x : HoldPool) : (s.withHold x).straps = s.straps := rfl
@[simp] theorem State.withHold_tables (x : HoldPool) : (s.withHold x).tables = s.tables := rfl
@[simp] theorem State.withHold_trunk (x : HoldPool) : (s.withHold x).trunk = s.trunk := rfl
@[simp] theorem State.withHold_responder (x : HoldPool) : (s.withHold x).responder = s.responder := rfl
@[simp] theorem State.withHold_counters (x : HoldPool) : (s.withHold x).counters = s.counters := rfl
@[simp] theorem State.withHold_shadow (x : HoldPool) : (s.withHold x).shadow = s.shadow := rfl
@[simp] theorem State.withHold_hold (x : HoldPool) : (s.withHold x).hold = x := rfl
@[simp] theorem State.withHold_gap (x : HoldPool) : (s.withHold x).gap = s.gap := rfl
@[simp] theorem State.withHold_restore (x : HoldPool) : (s.withHold x).restore = s.restore := rfl
@[simp] theorem State.withHold_segment (x : HoldPool) : (s.withHold x).segment = s.segment := rfl
@[simp] theorem State.withHold_store (x : HoldPool) : (s.withHold x).store = s.store := rfl
@[simp] theorem State.withHold_stored (x : HoldPool) : (s.withHold x).stored = s.stored := rfl

/-! ### withGap -/

@[simp] theorem State.withGap_pending (x : GapMonitor) : (s.withGap x).pending = s.pending := rfl
@[simp] theorem State.withGap_moment (x : GapMonitor) : (s.withGap x).moment = s.moment := rfl
@[simp] theorem State.withGap_straps (x : GapMonitor) : (s.withGap x).straps = s.straps := rfl
@[simp] theorem State.withGap_tables (x : GapMonitor) : (s.withGap x).tables = s.tables := rfl
@[simp] theorem State.withGap_trunk (x : GapMonitor) : (s.withGap x).trunk = s.trunk := rfl
@[simp] theorem State.withGap_responder (x : GapMonitor) : (s.withGap x).responder = s.responder := rfl
@[simp] theorem State.withGap_counters (x : GapMonitor) : (s.withGap x).counters = s.counters := rfl
@[simp] theorem State.withGap_shadow (x : GapMonitor) : (s.withGap x).shadow = s.shadow := rfl
@[simp] theorem State.withGap_hold (x : GapMonitor) : (s.withGap x).hold = s.hold := rfl
@[simp] theorem State.withGap_gap (x : GapMonitor) : (s.withGap x).gap = x := rfl
@[simp] theorem State.withGap_restore (x : GapMonitor) : (s.withGap x).restore = s.restore := rfl
@[simp] theorem State.withGap_segment (x : GapMonitor) : (s.withGap x).segment = s.segment := rfl
@[simp] theorem State.withGap_store (x : GapMonitor) : (s.withGap x).store = s.store := rfl
@[simp] theorem State.withGap_stored (x : GapMonitor) : (s.withGap x).stored = s.stored := rfl

/-! ### withRestore -/

@[simp] theorem State.withRestore_pending (x : RestoreEngine) : (s.withRestore x).pending = s.pending := rfl
@[simp] theorem State.withRestore_moment (x : RestoreEngine) : (s.withRestore x).moment = s.moment := rfl
@[simp] theorem State.withRestore_straps (x : RestoreEngine) : (s.withRestore x).straps = s.straps := rfl
@[simp] theorem State.withRestore_tables (x : RestoreEngine) : (s.withRestore x).tables = s.tables := rfl
@[simp] theorem State.withRestore_trunk (x : RestoreEngine) : (s.withRestore x).trunk = s.trunk := rfl
@[simp] theorem State.withRestore_responder (x : RestoreEngine) : (s.withRestore x).responder = s.responder := rfl
@[simp] theorem State.withRestore_counters (x : RestoreEngine) : (s.withRestore x).counters = s.counters := rfl
@[simp] theorem State.withRestore_shadow (x : RestoreEngine) : (s.withRestore x).shadow = s.shadow := rfl
@[simp] theorem State.withRestore_hold (x : RestoreEngine) : (s.withRestore x).hold = s.hold := rfl
@[simp] theorem State.withRestore_gap (x : RestoreEngine) : (s.withRestore x).gap = s.gap := rfl
@[simp] theorem State.withRestore_restore (x : RestoreEngine) : (s.withRestore x).restore = x := rfl
@[simp] theorem State.withRestore_segment (x : RestoreEngine) : (s.withRestore x).segment = s.segment := rfl
@[simp] theorem State.withRestore_store (x : RestoreEngine) : (s.withRestore x).store = s.store := rfl
@[simp] theorem State.withRestore_stored (x : RestoreEngine) : (s.withRestore x).stored = s.stored := rfl

/-! ### withSegment -/

@[simp] theorem State.withSegment_pending (x : SegmentMaster) : (s.withSegment x).pending = s.pending := rfl
@[simp] theorem State.withSegment_moment (x : SegmentMaster) : (s.withSegment x).moment = s.moment := rfl
@[simp] theorem State.withSegment_straps (x : SegmentMaster) : (s.withSegment x).straps = s.straps := rfl
@[simp] theorem State.withSegment_tables (x : SegmentMaster) : (s.withSegment x).tables = s.tables := rfl
@[simp] theorem State.withSegment_trunk (x : SegmentMaster) : (s.withSegment x).trunk = s.trunk := rfl
@[simp] theorem State.withSegment_responder (x : SegmentMaster) : (s.withSegment x).responder = s.responder := rfl
@[simp] theorem State.withSegment_counters (x : SegmentMaster) : (s.withSegment x).counters = s.counters := rfl
@[simp] theorem State.withSegment_shadow (x : SegmentMaster) : (s.withSegment x).shadow = s.shadow := rfl
@[simp] theorem State.withSegment_hold (x : SegmentMaster) : (s.withSegment x).hold = s.hold := rfl
@[simp] theorem State.withSegment_gap (x : SegmentMaster) : (s.withSegment x).gap = s.gap := rfl
@[simp] theorem State.withSegment_restore (x : SegmentMaster) : (s.withSegment x).restore = s.restore := rfl
@[simp] theorem State.withSegment_segment (x : SegmentMaster) : (s.withSegment x).segment = x := rfl
@[simp] theorem State.withSegment_store (x : SegmentMaster) : (s.withSegment x).store = s.store := rfl
@[simp] theorem State.withSegment_stored (x : SegmentMaster) : (s.withSegment x).stored = s.stored := rfl

/-! ### withStore -/

@[simp] theorem State.withStore_pending (x : ImageStore) : (s.withStore x).pending = s.pending := rfl
@[simp] theorem State.withStore_moment (x : ImageStore) : (s.withStore x).moment = s.moment := rfl
@[simp] theorem State.withStore_straps (x : ImageStore) : (s.withStore x).straps = s.straps := rfl
@[simp] theorem State.withStore_tables (x : ImageStore) : (s.withStore x).tables = s.tables := rfl
@[simp] theorem State.withStore_trunk (x : ImageStore) : (s.withStore x).trunk = s.trunk := rfl
@[simp] theorem State.withStore_responder (x : ImageStore) : (s.withStore x).responder = s.responder := rfl
@[simp] theorem State.withStore_counters (x : ImageStore) : (s.withStore x).counters = s.counters := rfl
@[simp] theorem State.withStore_shadow (x : ImageStore) : (s.withStore x).shadow = s.shadow := rfl
@[simp] theorem State.withStore_hold (x : ImageStore) : (s.withStore x).hold = s.hold := rfl
@[simp] theorem State.withStore_gap (x : ImageStore) : (s.withStore x).gap = s.gap := rfl
@[simp] theorem State.withStore_restore (x : ImageStore) : (s.withStore x).restore = s.restore := rfl
@[simp] theorem State.withStore_segment (x : ImageStore) : (s.withStore x).segment = s.segment := rfl
@[simp] theorem State.withStore_store (x : ImageStore) : (s.withStore x).store = x := rfl
@[simp] theorem State.withStore_stored (x : ImageStore) : (s.withStore x).stored = s.stored := rfl

/-! ### withTables -/

@[simp] theorem State.withTables_pending (x : Tables) : (s.withTables x).pending = s.pending := rfl
@[simp] theorem State.withTables_moment (x : Tables) : (s.withTables x).moment = s.moment := rfl
@[simp] theorem State.withTables_straps (x : Tables) : (s.withTables x).straps = s.straps := rfl
@[simp] theorem State.withTables_tables (x : Tables) : (s.withTables x).tables = x := rfl
@[simp] theorem State.withTables_trunk (x : Tables) : (s.withTables x).trunk = s.trunk := rfl
@[simp] theorem State.withTables_responder (x : Tables) : (s.withTables x).responder = s.responder := rfl
@[simp] theorem State.withTables_counters (x : Tables) : (s.withTables x).counters = s.counters := rfl
@[simp] theorem State.withTables_shadow (x : Tables) : (s.withTables x).shadow = s.shadow := rfl
@[simp] theorem State.withTables_hold (x : Tables) : (s.withTables x).hold = s.hold := rfl
@[simp] theorem State.withTables_gap (x : Tables) : (s.withTables x).gap = s.gap := rfl
@[simp] theorem State.withTables_restore (x : Tables) : (s.withTables x).restore = s.restore := rfl
@[simp] theorem State.withTables_segment (x : Tables) : (s.withTables x).segment = s.segment := rfl
@[simp] theorem State.withTables_store (x : Tables) : (s.withTables x).store = s.store := rfl
@[simp] theorem State.withTables_stored (x : Tables) : (s.withTables x).stored = s.stored := rfl

/-! ### withStored -/

@[simp] theorem State.withStored_pending (x : Option StoredTables) : (s.withStored x).pending = s.pending := rfl
@[simp] theorem State.withStored_moment (x : Option StoredTables) : (s.withStored x).moment = s.moment := rfl
@[simp] theorem State.withStored_straps (x : Option StoredTables) : (s.withStored x).straps = s.straps := rfl
@[simp] theorem State.withStored_tables (x : Option StoredTables) : (s.withStored x).tables = s.tables := rfl
@[simp] theorem State.withStored_trunk (x : Option StoredTables) : (s.withStored x).trunk = s.trunk := rfl
@[simp] theorem State.withStored_responder (x : Option StoredTables) : (s.withStored x).responder = s.responder := rfl
@[simp] theorem State.withStored_counters (x : Option StoredTables) : (s.withStored x).counters = s.counters := rfl
@[simp] theorem State.withStored_shadow (x : Option StoredTables) : (s.withStored x).shadow = s.shadow := rfl
@[simp] theorem State.withStored_hold (x : Option StoredTables) : (s.withStored x).hold = s.hold := rfl
@[simp] theorem State.withStored_gap (x : Option StoredTables) : (s.withStored x).gap = s.gap := rfl
@[simp] theorem State.withStored_restore (x : Option StoredTables) : (s.withStored x).restore = s.restore := rfl
@[simp] theorem State.withStored_segment (x : Option StoredTables) : (s.withStored x).segment = s.segment := rfl
@[simp] theorem State.withStored_store (x : Option StoredTables) : (s.withStored x).store = s.store := rfl
@[simp] theorem State.withStored_stored (x : Option StoredTables) : (s.withStored x).stored = x := rfl

/-! ### withPending -/

@[simp] theorem State.withPending_pending (x : List Instr) : (s.withPending x).pending = x := rfl
@[simp] theorem State.withPending_moment (x : List Instr) : (s.withPending x).moment = s.moment := rfl
@[simp] theorem State.withPending_straps (x : List Instr) : (s.withPending x).straps = s.straps := rfl
@[simp] theorem State.withPending_tables (x : List Instr) : (s.withPending x).tables = s.tables := rfl
@[simp] theorem State.withPending_trunk (x : List Instr) : (s.withPending x).trunk = s.trunk := rfl
@[simp] theorem State.withPending_responder (x : List Instr) : (s.withPending x).responder = s.responder := rfl
@[simp] theorem State.withPending_counters (x : List Instr) : (s.withPending x).counters = s.counters := rfl
@[simp] theorem State.withPending_shadow (x : List Instr) : (s.withPending x).shadow = s.shadow := rfl
@[simp] theorem State.withPending_hold (x : List Instr) : (s.withPending x).hold = s.hold := rfl
@[simp] theorem State.withPending_gap (x : List Instr) : (s.withPending x).gap = s.gap := rfl
@[simp] theorem State.withPending_restore (x : List Instr) : (s.withPending x).restore = s.restore := rfl
@[simp] theorem State.withPending_segment (x : List Instr) : (s.withPending x).segment = s.segment := rfl
@[simp] theorem State.withPending_store (x : List Instr) : (s.withPending x).store = s.store := rfl
@[simp] theorem State.withPending_stored (x : List Instr) : (s.withPending x).stored = s.stored := rfl

end Sys2Proof.Machine
end

