-- ==== Sys2Proof/Laws/Quiet.lean ====
section
/-! SUPPORT. What the shared operations of the blocks leave alone, said once for each: `quiet` gathers the state that none of
them writes, and `Within` what they can only grow or shrink (a set flag stays set, the pass queue gets no longer, a
runtime record never reads UNCONFIGURED, the gap set stays a set). -/

namespace Sys2Proof.Machine

/-- The state that frames, reports, captures, holds, sessions and node moves leave alone. -/
structure Quiet where
  pending : List Instr
  moment : Nat
  straps : Straps
  tables : Tables
  stored : Option StoredTables
  mode : Mode
  mask : BitVec 3
  edit : Tables
  identity : Option Identity
  rx : RxCondition
  ingress : List TrunkFrame
  ingressDrop : Word32
  counters : ClassifierCounters
  clock : Time
  gapHigh : Bool
  condition : GapCondition
  aged : Bool
  lastD : Nat
  reserves : PerNode (Option Reserve)
  configured : Nat → Bool
  line : Line
  restartPending : Bool
  blocks : List (Nat × StoreBlock)
  copy0 : Option DirectoryCopy
  copy1 : Option DirectoryCopy
  latest : Option CopyPlace
  saved : Bool
  retained : Option Extent
  staged : Option StagedImage

/-- The quiet part of a state. -/
def State.quiet (s : State) : Quiet :=
  { pending := s.pending, moment := s.moment, straps := s.straps, tables := s.tables, stored := s.stored
    mode := s.responder.mode, mask := s.responder.mask, edit := s.responder.edit, identity := s.responder.identity
    rx := s.trunk.rx, ingress := s.trunk.ingress, ingressDrop := s.trunk.ingressDrop, counters := s.counters
    clock := s.gap.clock, gapHigh := s.gap.gapHigh, condition := s.gap.condition, aged := s.gap.aged
    lastD := s.gap.lastD, reserves := s.gap.reserves, configured := fun a => (s.runtime a).isSome
    line := s.segment.line, restartPending := s.segment.restartPending
    blocks := s.store.blocks, copy0 := s.store.copy0, copy1 := s.store.copy1, latest := s.store.latest
    saved := s.store.saved, retained := s.store.retained, staged := s.store.staged }

/-- The entries in both sub-queues. -/
def State.queued (s : State) : Nat := s.segment.urgent.length + s.segment.normal.length

/-- No runtime record reads UNCONFIGURED. -/
def State.named (s : State) : Prop := ∀ a r, s.runtime a = some r → r.state ≠ .unconfigured

/-- The flags of `F` are set, at most `n` entries are queued, and, where `p` asks for it, no runtime record reads UNCONFIGURED,
and, where `q` asks for it, no node stands twice in the gap set. -/
structure State.Within (F : BitVec 10) (n : Nat) (p q : Bool) (s : State) : Prop where
  flags : s.responder.flags &&& F = F
  queued : s.queued ≤ n
  named : p = true → s.named
  members : q = true → s.gap.gapSet.Nodup

/-! ### Block updates -/

@[simp] theorem quiet_withShadow (s : State) (x : ShadowStore) : (s.withShadow x).quiet = s.quiet := rfl
@[simp] theorem quiet_withHold (s : State) (x : HoldPool) : (s.withHold x).quiet = s.quiet := rfl
@[simp] theorem withinShadow {F : BitVec 10} {n : Nat} {p q : Bool} {s : State} (x : ShadowStore) (h : s.Within F n p q) :
    (s.withShadow x).Within F n p q := ⟨h.flags, h.queued, h.named, h.members⟩
@[simp] theorem withinHold {F : BitVec 10} {n : Nat} {p q : Bool} {s : State} (x : HoldPool) (h : s.Within F n p q) :
    (s.withHold x).Within F n p q := ⟨h.flags, h.queued, h.named, h.members⟩
@[simp] theorem withinTrunk {F : BitVec 10} {n : Nat} {p q : Bool} {s : State} (x : TrunkPort) (h : s.Within F n p q) :
    (s.withTrunk x).Within F n p q := ⟨h.flags, h.queued, h.named, h.members⟩
@[simp] theorem withinGap {F : BitVec 10} {n : Nat} {p q : Bool} {s : State} (x : GapMonitor) (hx : q = true → x.gapSet.Nodup) (h : s.Within F n p q) :
    (s.withGap x).Within F n p q := ⟨h.flags, h.queued, h.named, hx⟩
@[simp] theorem withinStoreBlock {F : BitVec 10} {n : Nat} {p q : Bool} {s : State} (x : ImageStore) (h : s.Within F n p q) :
    (s.withStore x).Within F n p q := ⟨h.flags, h.queued, h.named, h.members⟩

@[simp] theorem quiet_withStore (s : State) (x : ImageStore) (h0 : x.blocks = s.store.blocks)
    (h1 : x.copy0 = s.store.copy0) (h2 : x.copy1 = s.store.copy1) (h3 : x.latest = s.store.latest)
    (h4 : x.saved = s.store.saved) (h5 : x.retained = s.store.retained) (h6 : x.staged = s.store.staged) :
    (s.withStore x).quiet = s.quiet := by
  simp [State.quiet, State.runtime, h0, h1, h2, h3, h4, h5, h6]
@[simp] theorem quiet_withRestore (s : State) (x : RestoreEngine) (h : x.nodes = s.restore.nodes) :
    (s.withRestore x).quiet = s.quiet := by
  simp [State.quiet, State.runtime, h]
@[simp] theorem withinRestore {F : BitVec 10} {n : Nat} {p q : Bool} {s : State} (x : RestoreEngine)
    (hx : x.nodes = s.restore.nodes) (h : s.Within F n p q) : (s.withRestore x).Within F n p q :=
  ⟨h.flags, h.queued, fun hp a r e => h.named hp a r (by unfold State.runtime at e ⊢; simpa [hx] using e), h.members⟩
@[simp] theorem quiet_withTrunk (s : State) (x : TrunkPort) (h0 : x.rx = s.trunk.rx) (h1 : x.ingress = s.trunk.ingress)
    (h2 : x.ingressDrop = s.trunk.ingressDrop) : (s.withTrunk x).quiet = s.quiet := by
  simp [State.quiet, State.runtime, h0, h1, h2]

theorem addresses_nodup : addresses.Nodup := by decide

theorem addressSet_nodup (l : List Nat) : (addressSet l).Nodup := addresses_nodup.filter _

/-! ### Per-node vectors -/

theorem atNode_putNode {α : Type} (v : PerNode α) (a b : Nat) (x : α) :
    atNode (putNode v a x) b = if a = b ∧ isAddress a = true then some x else atNode v b := by
  unfold atNode putNode isAddress
  by_cases ha : a = 0
  · subst ha
    by_cases hb : b = 0 <;> simp [hb]
  · by_cases hb : b = 0
    · subst hb; simp [ha]
    · by_cases hab : a = b
      · subst hab
        by_cases hl : a ≤ 30
        · have : a - 1 < 30 := by omega
          simp [ha, hl, this]
        · have : ¬ a - 1 < 30 := by omega
          simp [ha, hl, this]
      · have : a - 1 ≠ b - 1 := by omega
        simp [ha, hb, hab, this]

theorem runtime_setRuntime (s : State) (a b : Nat) (r : Option Runtime) :
    (s.setRuntime a r).runtime b = if a = b ∧ isAddress a = true then r else s.runtime b := by
  unfold State.runtime State.setRuntime
  simp only [State.withRestore_restore, atNode_putNode]
  split <;> simp

/-- A node without an address 1..30 has no runtime record. -/
theorem isAddress_of_runtime {s : State} {a : Nat} {r : Runtime} (h : s.runtime a = some r) : isAddress a = true := by
  unfold State.runtime atNode at h
  unfold isAddress
  split at h
  · simp at h
  · have : a - 1 < 30 := by
      by_contra hc
      rw [Vector.getElem?_eq_none (by omega)] at h
      simp at h
    simp; omega

theorem runtime_mapRuntime (s : State) (a b : Nat) (f : Runtime → Runtime) :
    (s.mapRuntime a f).runtime b = if a = b then (s.runtime b).map f else s.runtime b := by
  unfold State.mapRuntime
  cases h : s.runtime a with
  | none => by_cases hab : a = b <;> simp_all
  | some r =>
    by_cases hab : a = b
    · subst hab; simp [runtime_setRuntime, h, isAddress_of_runtime h]
    · simp [runtime_setRuntime, hab]

@[simp] theorem mapRuntime_quiet (s : State) (a : Nat) (f : Runtime → Runtime) : (s.mapRuntime a f).quiet = s.quiet := by
  have h : (fun b => ((s.mapRuntime a f).runtime b).isSome) = fun b => (s.runtime b).isSome := by
    funext b
    rw [runtime_mapRuntime]
    split <;> simp
  have e : (s.mapRuntime a f).quiet =
      { s.quiet with configured := fun b => ((s.mapRuntime a f).runtime b).isSome } := by
    unfold State.mapRuntime
    split <;> rfl
  rw [e, h]; rfl

theorem mapRuntime_within {F : BitVec 10} {n : Nat} {p q : Bool} {s : State} (a : Nat) (f : Runtime → Runtime)
    (hf : ∀ r, p = true → s.runtime a = some r → (f r).state ≠ .unconfigured) (h : s.Within F n p q) :
    (s.mapRuntime a f).Within F n p q := by
  have hs : (s.mapRuntime a f).responder = s.responder ∧ (s.mapRuntime a f).segment = s.segment
      ∧ (s.mapRuntime a f).gap = s.gap := by
    unfold State.mapRuntime; split <;> exact ⟨rfl, rfl, rfl⟩
  refine ⟨by rw [hs.1]; exact h.flags, by unfold State.queued; rw [hs.2.1]; exact h.queued, ?_,
    by rw [hs.2.2]; exact h.members⟩
  intro hp b r hr
  rw [runtime_mapRuntime] at hr
  split at hr
  · next hab =>
    subst hab
    cases hb : s.runtime a with
    | none => rw [hb] at hr; cases hr
    | some r0 => rw [hb] at hr; cases hr; exact hf r0 hp hb
  · exact h.named hp b r hr

/-- A change of a runtime record that keeps its state keeps everything of `Within`. -/
@[simp] theorem mapRuntime_within_same {F : BitVec 10} {n : Nat} {p q : Bool} {s : State} (a : Nat) (f : Runtime → Runtime)
    (hf : ∀ r, (f r).state = r.state) (h : s.Within F n p q) : (s.mapRuntime a f).Within F n p q :=
  mapRuntime_within a f (fun r hp hr => by rw [hf r]; exact h.named hp a r hr) h

/-- A move to a state other than UNCONFIGURED keeps everything of `Within`. -/
@[simp] theorem mapRuntime_within_move {F : BitVec 10} {n : Nat} {p q : Bool} {s : State} (a : Nat) (f : Runtime → Runtime)
    (hf : ∀ r, (f r).state ≠ .unconfigured) (h : s.Within F n p q) : (s.mapRuntime a f).Within F n p q :=
  mapRuntime_within a f (fun r _ _ => hf r) h

/-! ### Node by node -/

theorem forNodes_quiet (l : List Nat) (f : Nat → State → State) (hf : ∀ a s, (f a s).quiet = s.quiet) (s : State) :
    (forNodes l f s).quiet = s.quiet := by
  unfold forNodes
  induction l generalizing s with
  | nil => rfl
  | cons a l ih => simp [List.foldl_cons, ih, hf]

theorem forNodes_within {F : BitVec 10} {n : Nat} {p q : Bool} (l : List Nat) (f : Nat → State → State)
    (hf : ∀ a s, State.Within F n p q s → State.Within F n p q (f a s)) {s : State} (h : s.Within F n p q) :
    (forNodes l f s).Within F n p q := by
  unfold forNodes
  induction l generalizing s with
  | nil => exact h
  | cons a l ih => exact ih (hf a s h)

/-! ### Egress, flags, shadow, hold, returned passes -/

@[simp] theorem setQueue_quiet (s : State) (a : Nat) (x : List HoldEntry) : (s.setQueue a x).quiet = s.quiet := rfl
@[simp] theorem setQueue_within {F : BitVec 10} {n : Nat} {p q : Bool} {s : State} (a : Nat) (x : List HoldEntry) (hs : s.Within F n p q) :
    (s.setQueue a x).Within F n p q := by
  unfold State.setQueue
  repeat' (first | exact hs | split | dsimp only | simp (maxDischargeDepth := 20) [hs])

@[simp] theorem setReplayInFlight_quiet (s : State) (a : Nat) (x : Option ReplayInFlight) : (s.setReplayInFlight a x).quiet = s.quiet := rfl
@[simp] theorem setReplayInFlight_within {F : BitVec 10} {n : Nat} {p q : Bool} {s : State} (a : Nat) (x : Option ReplayInFlight) (hs : s.Within F n p q) :
    (s.setReplayInFlight a x).Within F n p q := by
  unfold State.setReplayInFlight
  repeat' (first | exact hs | split | dsimp only | simp (maxDischargeDepth := 20) [hs])

@[simp] theorem setPlace_quiet (s : State) (i : Nat) (x : Option CatalogueEntry) : (s.setPlace i x).quiet = s.quiet := rfl
@[simp] theorem setPlace_within {F : BitVec 10} {n : Nat} {p q : Bool} {s : State} (i : Nat) (x : Option CatalogueEntry) (hs : s.Within F n p q) :
    (s.setPlace i x).Within F n p q := by
  unfold State.setPlace
  repeat' (first | exact hs | split | dsimp only | simp (maxDischargeDepth := 20) [hs])

@[simp] theorem setEgress_quiet (s : State) (i : Nat) (e : EgressEntry) : (s.setEgress i e).quiet = s.quiet := rfl
@[simp] theorem setEgress_within {F : BitVec 10} {n : Nat} {p q : Bool} {s : State} (i : Nat) (e : EgressEntry) (hs : s.Within F n p q) :
    (s.setEgress i e).Within F n p q := by
  unfold State.setEgress
  repeat' (first | exact hs | split | dsimp only | simp (maxDischargeDepth := 20) [hs])

@[simp] theorem enqueue_quiet (s : State) (i : Nat) (f : TrunkFrame) : (s.enqueue i f).quiet = s.quiet := rfl
@[simp] theorem enqueue_within {F : BitVec 10} {n : Nat} {p q : Bool} {s : State} (i : Nat) (f : TrunkFrame) (hs : s.Within F n p q) :
    (s.enqueue i f).Within F n p q := by
  unfold State.enqueue
  repeat' (first | exact hs | split | dsimp only | simp (maxDischargeDepth := 20) [hs])

@[simp] theorem answerPass_quiet (s : State) (e : PassEntry) (c : AnswerCode) (b : List Byte) : (answerPass e c b s).quiet = s.quiet := rfl
@[simp] theorem answerPass_within {F : BitVec 10} {n : Nat} {p q : Bool} {s : State} (e : PassEntry) (c : AnswerCode) (b : List Byte) (hs : s.Within F n p q) :
    (answerPass e c b s).Within F n p q := by
  unfold answerPass
  repeat' (first | exact hs | split | dsimp only | simp (maxDischargeDepth := 20) [hs])

@[simp] theorem answerRequest_quiet (s : State) (r : RequestRef) (c : AnswerCode) (b : List Byte) : (answerRequest r c b s).quiet = s.quiet := rfl
@[simp] theorem answerRequest_within {F : BitVec 10} {n : Nat} {p q : Bool} {s : State} (r : RequestRef) (c : AnswerCode) (b : List Byte) (hs : s.Within F n p q) :
    (answerRequest r c b s).Within F n p q := by
  unfold answerRequest
  repeat' (first | exact hs | split | dsimp only | simp (maxDischargeDepth := 20) [hs])

@[simp] theorem setFlag_quiet (s : State) (f : Flag) : (s.setFlag f).quiet = s.quiet := rfl
theorem or_keeps {F x y : BitVec 10} (h : x &&& F = F) : (x ||| y) &&& F = F := by
  apply BitVec.eq_of_getLsbD_eq
  intro i hi
  have hb := congrArg (fun v => BitVec.getLsbD v i) h
  simp only [BitVec.getLsbD_and, BitVec.getLsbD_or] at hb ⊢
  cases hx : x.getLsbD i <;> cases hf : F.getLsbD i <;> simp_all
@[simp] theorem setFlag_within {F : BitVec 10} {n : Nat} {p q : Bool} {s : State} (f : Flag) (h : s.Within F n p q) :
    (s.setFlag f).Within F n p q := ⟨or_keeps h.flags, h.queued, h.named, h.members⟩

@[simp] theorem countLost_quiet (s : State) : (countLost s).quiet = s.quiet := rfl
@[simp] theorem countLost_within {F : BitVec 10} {n : Nat} {p q : Bool} {s : State} (hs : s.Within F n p q) :
    (countLost s).Within F n p q := by
  unfold countLost
  repeat' (first | exact hs | split | dsimp only | simp (maxDischargeDepth := 20) [hs])

@[simp] theorem loseFrame_quiet (s : State) : (loseFrame s).quiet = s.quiet := by
  unfold loseFrame
  repeat' (first | split | dsimp only | simp)
@[simp] theorem loseFrame_within {F : BitVec 10} {n : Nat} {p q : Bool} {s : State} (hs : s.Within F n p q) :
    (loseFrame s).Within F n p q := by
  unfold loseFrame
  repeat' (first | exact hs | split | dsimp only | simp (maxDischargeDepth := 20) [hs])

@[simp] theorem offerFrame_quiet (s : State) (f : TrunkFrame) : (offerFrame f s).quiet = s.quiet := by
  unfold offerFrame
  repeat' (first | split | dsimp only | simp)
@[simp] theorem offerFrame_within {F : BitVec 10} {n : Nat} {p q : Bool} {s : State} (f : TrunkFrame) (hs : s.Within F n p q) :
    (offerFrame f s).Within F n p q := by
  unfold offerFrame
  repeat' (first | exact hs | split | dsimp only | simp (maxDischargeDepth := 20) [hs])

@[simp] theorem raiseFlag_quiet (s : State) (f : Flag) : (raiseFlag f s).quiet = s.quiet := by
  unfold raiseFlag
  repeat' (first | split | dsimp only | simp)
@[simp] theorem raiseFlag_within {F : BitVec 10} {n : Nat} {p q : Bool} {s : State} (f : Flag) (hs : s.Within F n p q) :
    (raiseFlag f s).Within F n p q := by
  unfold raiseFlag
  repeat' (first | exact hs | split | dsimp only | simp (maxDischargeDepth := 20) [hs])

@[simp] theorem offerNodeState_quiet (s : State) (a : Nat) (st : NodeState) : (offerNodeState a st s).quiet = s.quiet := by
  unfold offerNodeState
  repeat' (first | split | dsimp only | simp)
@[simp] theorem offerNodeState_within {F : BitVec 10} {n : Nat} {p q : Bool} {s : State} (a : Nat) (st : NodeState) (hs : s.Within F n p q) :
    (offerNodeState a st s).Within F n p q := by
  unfold offerNodeState
  repeat' (first | exact hs | split | dsimp only | simp (maxDischargeDepth := 20) [hs])

@[simp] theorem offerGap_quiet (s : State) (ph : Byte) (e : Time) (d x y z : Nat) : (offerGap ph e d x y z s).quiet = s.quiet := by
  unfold offerGap
  repeat' (first | split | dsimp only | simp)
@[simp] theorem offerGap_within {F : BitVec 10} {n : Nat} {p q : Bool} {s : State} (ph : Byte) (e : Time) (d x y z : Nat) (hs : s.Within F n p q) :
    (offerGap ph e d x y z s).Within F n p q := by
  unfold offerGap
  repeat' (first | exact hs | split | dsimp only | simp (maxDischargeDepth := 20) [hs])

@[simp] theorem setSlot_quiet (s : State) (i : Nat) (r : Option ShadowRecord) : (s.setSlot i r).quiet = s.quiet := rfl
@[simp] theorem setSlot_within {F : BitVec 10} {n : Nat} {p q : Bool} {s : State} (i : Nat) (r : Option ShadowRecord) (hs : s.Within F n p q) :
    (s.setSlot i r).Within F n p q := by
  unfold State.setSlot
  repeat' (first | exact hs | split | dsimp only | simp (maxDischargeDepth := 20) [hs])

@[simp] theorem setReplayList_quiet (s : State) (a : Nat) (l : List Nat) : (s.setReplayList a l).quiet = s.quiet := rfl
@[simp] theorem setReplayList_within {F : BitVec 10} {n : Nat} {p q : Bool} {s : State} (a : Nat) (l : List Nat) (hs : s.Within F n p q) :
    (s.setReplayList a l).Within F n p q := by
  unfold State.setReplayList
  repeat' (first | exact hs | split | dsimp only | simp (maxDischargeDepth := 20) [hs])

@[simp] theorem shadowMiss_quiet (s : State) : (shadowMiss s).quiet = s.quiet := by
  unfold shadowMiss
  repeat' (first | split | dsimp only | simp)
@[simp] theorem shadowMiss_within {F : BitVec 10} {n : Nat} {p q : Bool} {s : State} (hs : s.Within F n p q) :
    (shadowMiss s).Within F n p q := by
  unfold shadowMiss
  repeat' (first | exact hs | split | dsimp only | simp (maxDischargeDepth := 20) [hs])

@[simp] theorem markReplaced_quiet (s : State) (a i : Nat) : (markReplaced a i s).quiet = s.quiet := by
  unfold markReplaced
  repeat' (first | split | dsimp only | simp)
@[simp] theorem markReplaced_within {F : BitVec 10} {n : Nat} {p q : Bool} {s : State} (a i : Nat) (hs : s.Within F n p q) :
    (markReplaced a i s).Within F n p q := by
  unfold markReplaced
  repeat' (first | exact hs | split | dsimp only | simp (maxDischargeDepth := 20) [hs])

@[simp] theorem capture_quiet (s : State) (a r : Nat) (c : CapturedFrame) (m : Bool) : ((capture a r c m s).1).quiet = s.quiet := by
  unfold capture
  repeat' (first | split | dsimp only | simp)
@[simp] theorem capture_within {F : BitVec 10} {n : Nat} {p q : Bool} {s : State} (a r : Nat) (c : CapturedFrame) (m : Bool) (hs : s.Within F n p q) :
    ((capture a r c m s).1).Within F n p q := by
  unfold capture
  repeat' (first | exact hs | split | dsimp only | simp (maxDischargeDepth := 20) [hs])

@[simp] theorem captureDelivered_quiet (s : State) (a r : Nat) (c : CapturedFrame) : (captureDelivered a r c s).quiet = s.quiet := by
  unfold captureDelivered
  repeat' (first | split | dsimp only | simp)
@[simp] theorem captureDelivered_within {F : BitVec 10} {n : Nat} {p q : Bool} {s : State} (a r : Nat) (c : CapturedFrame) (hs : s.Within F n p q) :
    (captureDelivered a r c s).Within F n p q := by
  unfold captureDelivered
  repeat' (first | exact hs | split | dsimp only | simp (maxDischargeDepth := 20) [hs])

@[simp] theorem renewSlot_quiet (s : State) (i : Nat) : (renewSlot i s).quiet = s.quiet := by
  unfold renewSlot
  repeat' (first | split | dsimp only | simp)
@[simp] theorem renewSlot_within {F : BitVec 10} {n : Nat} {p q : Bool} {s : State} (i : Nat) (hs : s.Within F n p q) :
    (renewSlot i s).Within F n p q := by
  unfold renewSlot
  repeat' (first | exact hs | split | dsimp only | simp (maxDischargeDepth := 20) [hs])

@[simp] theorem renewShadow_quiet (s : State) (a : Nat) : (renewShadow a s).quiet = s.quiet := by
  simp [renewShadow, forNodes_quiet]
@[simp] theorem renewShadow_within {F : BitVec 10} {n : Nat} {p q : Bool} {s : State} (a : Nat) (h : s.Within F n p q) :
    (renewShadow a s).Within F n p q :=
  setReplayList_within _ _ (forNodes_within _ _ (fun i _ h => renewSlot_within i h) h)

@[simp] theorem clearSlot_quiet (s : State) (i : Nat) : (clearSlot i s).quiet = s.quiet := by
  unfold clearSlot
  repeat' (first | split | dsimp only | simp)
@[simp] theorem clearSlot_within {F : BitVec 10} {n : Nat} {p q : Bool} {s : State} (i : Nat) (hs : s.Within F n p q) :
    (clearSlot i s).Within F n p q := by
  unfold clearSlot
  repeat' (first | exact hs | split | dsimp only | simp (maxDischargeDepth := 20) [hs])

@[simp] theorem clearShadow_quiet (s : State) (a : Nat) (e : NodeEntry) : (clearShadow a e s).quiet = s.quiet := by
  unfold clearShadow
  dsimp only
  split <;> simp [forNodes_quiet]
@[simp] theorem clearShadow_within {F : BitVec 10} {n : Nat} {p q : Bool} {s : State} (a : Nat) (e : NodeEntry) (h : s.Within F n p q) :
    (clearShadow a e s).Within F n p q := by
  have h1 := setReplayList_within a [] (forNodes_within (List.range' e.shadowBase e.shadowCount)
    clearSlot (fun i _ h => clearSlot_within i h) h)
  unfold clearShadow
  dsimp only
  split <;> simp [h1]

@[simp] theorem appendHold_quiet (s : State) (a : Nat) (h : HeldFrame) : ((appendHold a h s).1).quiet = s.quiet := by
  unfold appendHold
  repeat' (first | split | dsimp only | simp)
@[simp] theorem appendHold_within {F : BitVec 10} {n : Nat} {p q : Bool} {s : State} (a : Nat) (h : HeldFrame) (hs : s.Within F n p q) :
    ((appendHold a h s).1).Within F n p q := by
  unfold appendHold
  repeat' (first | exact hs | split | dsimp only | simp (maxDischargeDepth := 20) [hs])

@[simp] theorem makeReport_quiet (s : State) (e : HoldEntry) (c : AnswerCode) (b : List Byte) : (makeReport e c b s).quiet = s.quiet := by
  unfold makeReport
  repeat' (first | split | dsimp only | simp)
@[simp] theorem makeReport_within {F : BitVec 10} {n : Nat} {p q : Bool} {s : State} (e : HoldEntry) (c : AnswerCode) (b : List Byte) (hs : s.Within F n p q) :
    (makeReport e c b s).Within F n p q := by
  unfold makeReport
  repeat' (first | exact hs | split | dsimp only | simp (maxDischargeDepth := 20) [hs])

@[simp] theorem reportDiscarded_quiet (s : State) (l : List HoldEntry) : (reportDiscarded l s).quiet = s.quiet := by
  unfold reportDiscarded
  induction l generalizing s with
  | nil => rfl
  | cons e l ih => simp [ih]
@[simp] theorem reportDiscarded_within {F : BitVec 10} {n : Nat} {p q : Bool} {s : State} (l : List HoldEntry) (h : s.Within F n p q) :
    (reportDiscarded l s).Within F n p q := by
  unfold reportDiscarded
  induction l generalizing s with
  | nil => exact h
  | cons e l ih => exact ih (makeReport_within e _ _ h)

@[simp] theorem discardQueue_quiet (s : State) (a : Nat) : (discardQueue a s).quiet = s.quiet := by
  unfold discardQueue
  repeat' (first | split | dsimp only | simp)
@[simp] theorem discardQueue_within {F : BitVec 10} {n : Nat} {p q : Bool} {s : State} (a : Nat) (hs : s.Within F n p q) :
    (discardQueue a s).Within F n p q := by
  unfold discardQueue
  repeat' (first | exact hs | split | dsimp only | simp (maxDischargeDepth := 20) [hs])

@[simp] theorem trimQueue_quiet (s : State) (a c : Nat) : (trimQueue a c s).quiet = s.quiet := by
  unfold trimQueue
  repeat' (first | split | dsimp only | simp)
@[simp] theorem trimQueue_within {F : BitVec 10} {n : Nat} {p q : Bool} {s : State} (a c : Nat) (hs : s.Within F n p q) :
    (trimQueue a c s).Within F n p q := by
  unfold trimQueue
  repeat' (first | exact hs | split | dsimp only | simp (maxDischargeDepth := 20) [hs])

@[simp] theorem captureLatest_quiet (s : State) (a : Nat) (r : Option Nat) (c : CapturedFrame) : ((captureLatest a r c s).1).quiet = s.quiet := by
  unfold captureLatest
  repeat' (first | split | dsimp only | simp)
@[simp] theorem captureLatest_within {F : BitVec 10} {n : Nat} {p q : Bool} {s : State} (a : Nat) (r : Option Nat) (c : CapturedFrame) (hs : s.Within F n p q) :
    ((captureLatest a r c s).1).Within F n p q := by
  unfold captureLatest
  repeat' (first | exact hs | split | dsimp only | simp (maxDischargeDepth := 20) [hs])

@[simp] theorem disposeReturned_quiet (s : State) (e : PassEntry) : (disposeReturned e s).quiet = s.quiet := by
  unfold disposeReturned
  repeat' (first | split | dsimp only | simp)
@[simp] theorem disposeReturned_within {F : BitVec 10} {n : Nat} {p q : Bool} {s : State} (e : PassEntry) (hs : s.Within F n p q) :
    (disposeReturned e s).Within F n p q := by
  unfold disposeReturned
  repeat' (first | exact hs | split | dsimp only | simp (maxDischargeDepth := 20) [hs])

@[simp] theorem absentTreatment_quiet (s : State) (e : PassEntry) (a : Nat) : (absentTreatment e a s).quiet = s.quiet := by
  unfold absentTreatment
  repeat' (first | split | dsimp only | simp)
@[simp] theorem absentTreatment_within {F : BitVec 10} {n : Nat} {p q : Bool} {s : State} (e : PassEntry) (a : Nat) (hs : s.Within F n p q) :
    (absentTreatment e a s).Within F n p q := by
  unfold absentTreatment
  repeat' (first | exact hs | split | dsimp only | simp (maxDischargeDepth := 20) [hs])

end Sys2Proof.Machine
end

