-- ==== Sys2Proof/Laws/Engine.lean ====
section
/-! SUPPORT. The operations of the Segment Master, the store arbiter and the Restore Engine leave the quiet part of the state
alone and keep `Within`: one pair of lemmas for each. -/

namespace Sys2Proof.Machine

theorem setPassQueues_quiet (s : State) (u v : List PassEntry) : (setPassQueues u v s).quiet = s.quiet := rfl
theorem setPassQueues_within {F : BitVec 10} {n m : Nat} {p q : Bool} {s : State} {u v : List PassEntry} (hs : s.Within F m p q)
    (h : u.length + v.length ≤ n) : (setPassQueues u v s).Within F n p q := ⟨hs.flags, h, hs.named, hs.members⟩

theorem walkReturned_quiet (l : List Nat) (es : List PassEntry) (s : State) : (walkReturned l es s).2.quiet = s.quiet := by
  induction es generalizing s with
  | nil => rfl
  | cons e es ih =>
    unfold walkReturned
    split
    · simp [ih, forNodes_quiet]
    · split <;> simp [ih]
theorem walkReturned_within {F : BitVec 10} {n : Nat} {p q : Bool} (l : List Nat) (es : List PassEntry) {s : State}
    (hs : s.Within F n p q) : (walkReturned l es s).2.Within F n p q ∧ (walkReturned l es s).1.length ≤ es.length := by
  induction es generalizing s with
  | nil => exact ⟨hs, Nat.le_refl 0⟩
  | cons e es ih =>
    unfold walkReturned
    split
    · have := ih (forNodes_within (List.filter (fun x => l.contains x) e.live) (absentTreatment e)
        (fun a _ h => absentTreatment_within e a h) hs)
      exact ⟨this.1, Nat.succ_le_succ this.2⟩
    · split
      · have := ih (disposeReturned_within e hs)
        exact ⟨this.1, Nat.le_succ_of_le this.2⟩
      · have := ih hs
        exact ⟨this.1, Nat.succ_le_succ this.2⟩

@[simp] theorem returnPasses_quiet (s : State) (l : List Nat) : (returnPasses l s).quiet = s.quiet := by
  simp [returnPasses, setPassQueues_quiet, walkReturned_quiet]
@[simp] theorem returnPasses_within {F : BitVec 10} {n : Nat} {p q : Bool} {s : State} (l : List Nat) (hs : s.Within F n p q) :
    (returnPasses l s).Within F n p q := by
  have h1 := walkReturned_within l s.segment.urgent hs
  have h2 := walkReturned_within l s.segment.normal h1.1
  have := hs.queued
  unfold State.queued at this
  exact setPassQueues_within h2.1 (by omega)

theorem walkRefused_quiet (a : Nat) (c : AnswerCode) (es : List PassEntry) (s : State) :
    (walkRefused a c es s).2.quiet = s.quiet := by
  induction es generalizing s with
  | nil => rfl
  | cons e es ih =>
    unfold walkRefused
    split
    · simp [ih]
    · split <;> simp [ih]
theorem walkRefused_within {F : BitVec 10} {n : Nat} {p q : Bool} (a : Nat) (c : AnswerCode) (es : List PassEntry) {s : State}
    (hs : s.Within F n p q) : (walkRefused a c es s).2.Within F n p q ∧ (walkRefused a c es s).1.length ≤ es.length := by
  induction es generalizing s with
  | nil => exact ⟨hs, Nat.le_refl 0⟩
  | cons e es ih =>
    unfold walkRefused
    split
    · have := ih hs
      exact ⟨this.1, Nat.succ_le_succ this.2⟩
    · split
      · have := ih (answerPass_within e c [] hs)
        exact ⟨this.1, Nat.le_succ_of_le this.2⟩
      · have := ih hs
        exact ⟨this.1, Nat.succ_le_succ this.2⟩

@[simp] theorem refusePasses_quiet (s : State) (a : Nat) (c : AnswerCode) : (refusePasses a c s).quiet = s.quiet := by
  simp [refusePasses, setPassQueues_quiet, walkRefused_quiet]
@[simp] theorem refusePasses_within {F : BitVec 10} {n : Nat} {p q : Bool} {s : State} (a : Nat) (c : AnswerCode)
    (hs : s.Within F n p q) : (refusePasses a c s).Within F n p q := by
  have h1 := walkRefused_within a c s.segment.urgent hs
  have h2 := walkRefused_within a c s.segment.normal h1.1
  have := hs.queued
  unfold State.queued at this
  exact setPassQueues_within h2.1 (by omega)

@[simp] theorem dropLive_quiet (s : State) (a : Nat) : (dropLive a s).quiet = s.quiet := rfl
@[simp] theorem dropLive_within {F : BitVec 10} {n : Nat} {p q : Bool} {s : State} (a : Nat) (hs : s.Within F n p q) :
    (dropLive a s).Within F n p q :=
  ⟨hs.flags, by have := hs.queued; simpa [dropLive, State.queued] using this, hs.named, hs.members⟩

/-- A runtime record keeps its state's name under each of these changes. -/
@[simp] theorem Runtime.move_state (r : Runtime) (st : NodeState) : (r.move st).state = st := rfl

/-! ### The store arbiter -/

@[simp] theorem chooseAccess_quiet (s : State) : (chooseAccess s).quiet = s.quiet := by
  unfold chooseAccess
  repeat' (first | split | dsimp only | simp)
@[simp] theorem chooseAccess_within {F : BitVec 10} {n : Nat} {p q : Bool} {s : State} (hs : s.Within F n p q) :
    (chooseAccess s).Within F n p q := by
  unfold chooseAccess
  repeat' (first | exact hs | split | dsimp only | simp (maxDischargeDepth := 20) [hs])

@[simp] theorem requestRead_quiet (s : State) (r : ReadRequest) : (requestRead r s).quiet = s.quiet := by
  unfold requestRead
  repeat' (first | split | dsimp only | simp)
@[simp] theorem requestRead_within {F : BitVec 10} {n : Nat} {p q : Bool} {s : State} (r : ReadRequest) (hs : s.Within F n p q) :
    (requestRead r s).Within F n p q := by
  unfold requestRead
  repeat' (first | exact hs | split | dsimp only | simp (maxDischargeDepth := 20) [hs])

@[simp] theorem endAccess_quiet (s : State) : (endAccess s).quiet = s.quiet := rfl
@[simp] theorem endAccess_within {F : BitVec 10} {n : Nat} {p q : Bool} {s : State} (hs : s.Within F n p q) :
    (endAccess s).Within F n p q := by
  unfold endAccess
  repeat' (first | exact hs | split | dsimp only | simp (maxDischargeDepth := 20) [hs])

@[simp] theorem setProgress_quiet (s : State) (x : Progress) : (setProgress x s).quiet = s.quiet := rfl
@[simp] theorem setProgress_within {F : BitVec 10} {n : Nat} {p q : Bool} {s : State} (x : Progress) (hs : s.Within F n p q) :
    (setProgress x s).Within F n p q := by
  unfold setProgress
  repeat' (first | exact hs | split | dsimp only | simp (maxDischargeDepth := 20) [hs])

@[simp] theorem finishOperation_quiet (s : State) (c : AnswerCode) (b : List Byte) : (finishOperation c b s).quiet = s.quiet := by
  unfold finishOperation
  repeat' (first | split | dsimp only | simp)
@[simp] theorem finishOperation_within {F : BitVec 10} {n : Nat} {p q : Bool} {s : State} (c : AnswerCode) (b : List Byte) (hs : s.Within F n p q) :
    (finishOperation c b s).Within F n p q := by
  unfold finishOperation
  repeat' (first | exact hs | split | dsimp only | simp (maxDischargeDepth := 20) [hs])

@[simp] theorem joinOperations_quiet (s : State) (o : Operation) : (joinOperations o s).quiet = s.quiet := rfl
@[simp] theorem joinOperations_within {F : BitVec 10} {n : Nat} {p q : Bool} {s : State} (o : Operation) (hs : s.Within F n p q) :
    (joinOperations o s).Within F n p q := by
  unfold joinOperations
  repeat' (first | exact hs | split | dsimp only | simp (maxDischargeDepth := 20) [hs])

@[simp] theorem requestMarkWrite_quiet (s : State) : (requestMarkWrite s).quiet = s.quiet := by
  unfold requestMarkWrite
  repeat' (first | split | dsimp only | simp)
@[simp] theorem requestMarkWrite_within {F : BitVec 10} {n : Nat} {p q : Bool} {s : State} (hs : s.Within F n p q) :
    (requestMarkWrite s).Within F n p q := by
  unfold requestMarkWrite
  repeat' (first | exact hs | split | dsimp only | simp (maxDischargeDepth := 20) [hs])

@[simp] theorem cancelStep_quiet (s : State) (a : Nat) : (cancelStep a s).quiet = s.quiet := by
  unfold cancelStep
  repeat' (first | split | dsimp only | simp)
@[simp] theorem cancelStep_within {F : BitVec 10} {n : Nat} {p q : Bool} {s : State} (a : Nat) (hs : s.Within F n p q) :
    (cancelStep a s).Within F n p q := by
  unfold cancelStep
  repeat' (first | exact hs | split | dsimp only | simp (maxDischargeDepth := 20) [hs])

@[simp] theorem offerKind_quiet (s : State) (a : Nat) (k : StepKind) : (offerKind a k s).quiet = s.quiet := by
  unfold offerKind
  repeat' (first | split | dsimp only | simp)
@[simp] theorem offerKind_within {F : BitVec 10} {n : Nat} {p q : Bool} {s : State} (a : Nat) (k : StepKind) (hs : s.Within F n p q) :
    (offerKind a k s).Within F n p q := by
  unfold offerKind
  repeat' (first | exact hs | split | dsimp only | simp (maxDischargeDepth := 20) [hs])

@[simp] theorem mapSession_quiet (s : State) (a : Nat) (f : Session → Session) : (s.mapSession a f).quiet = s.quiet := by
  unfold State.mapSession
  repeat' (first | split | dsimp only | simp)
@[simp] theorem mapSession_within {F : BitVec 10} {n : Nat} {p q : Bool} {s : State} (a : Nat) (f : Session → Session) (hs : s.Within F n p q) :
    (s.mapSession a f).Within F n p q := by
  unfold State.mapSession
  repeat' (first | exact hs | split | dsimp only | simp (maxDischargeDepth := 20) [hs])

@[simp] theorem setBuffer_quiet (s : State) (b : Nat) (x : Buffer) : (s.setBuffer b x).quiet = s.quiet := rfl
@[simp] theorem setBuffer_within {F : BitVec 10} {n : Nat} {p q : Bool} {s : State} (b : Nat) (x : Buffer) (hs : s.Within F n p q) :
    (s.setBuffer b x).Within F n p q := withinRestore _ rfl hs

@[simp] theorem startRead_quiet (s : State) (a b : Nat) : (startRead a b s).quiet = s.quiet := by
  unfold startRead
  repeat' (first | split | dsimp only | simp)
@[simp] theorem startRead_within {F : BitVec 10} {n : Nat} {p q : Bool} {s : State} (a b : Nat) (hs : s.Within F n p q) :
    (startRead a b s).Within F n p q := by
  unfold startRead
  repeat' (first | exact hs | split | dsimp only | simp (maxDischargeDepth := 20) [hs])

@[simp] theorem freeBuffer_quiet (s : State) (b : Nat) : (freeBuffer b s).quiet = s.quiet := by
  unfold freeBuffer
  repeat' (first | split | dsimp only | simp)
@[simp] theorem freeBuffer_within {F : BitVec 10} {n : Nat} {p q : Bool} {s : State} (b : Nat) (hs : s.Within F n p q) :
    (freeBuffer b s).Within F n p q := by
  unfold freeBuffer
  repeat' (first | exact hs | split | dsimp only | simp (maxDischargeDepth := 20) [hs])

@[simp] theorem askBuffer_quiet (s : State) (a : Nat) : (askBuffer a s).quiet = s.quiet := by
  unfold askBuffer
  repeat' (first | split | dsimp only | simp)
@[simp] theorem askBuffer_within {F : BitVec 10} {n : Nat} {p q : Bool} {s : State} (a : Nat) (hs : s.Within F n p q) :
    (askBuffer a s).Within F n p q := by
  unfold askBuffer
  repeat' (first | exact hs | split | dsimp only | simp (maxDischargeDepth := 20) [hs])

@[simp] theorem releaseBuffer_quiet (s : State) (a : Nat) : (releaseBuffer a s).quiet = s.quiet := by
  unfold releaseBuffer
  repeat' (first | split | dsimp only | simp)
@[simp] theorem releaseBuffer_within {F : BitVec 10} {n : Nat} {p q : Bool} {s : State} (a : Nat) (hs : s.Within F n p q) :
    (releaseBuffer a s).Within F n p q := by
  unfold releaseBuffer
  repeat' (first | exact hs | split | dsimp only | simp (maxDischargeDepth := 20) [hs])

@[simp] theorem addReader_quiet (s : State) (i : Nat) : (addReader i s).quiet = s.quiet := by
  unfold addReader
  repeat' (first | split | dsimp only | simp)
@[simp] theorem addReader_within {F : BitVec 10} {n : Nat} {p q : Bool} {s : State} (i : Nat) (hs : s.Within F n p q) :
    (addReader i s).Within F n p q := by
  unfold addReader
  repeat' (first | exact hs | split | dsimp only | simp (maxDischargeDepth := 20) [hs])

@[simp] theorem dropReader_quiet (s : State) (i : Nat) : (dropReader i s).quiet = s.quiet := by
  unfold dropReader
  repeat' (first | split | dsimp only | simp)
@[simp] theorem dropReader_within {F : BitVec 10} {n : Nat} {p q : Bool} {s : State} (i : Nat) (hs : s.Within F n p q) :
    (dropReader i s).Within F n p q := by
  unfold dropReader
  repeat' (first | exact hs | split | dsimp only | simp (maxDischargeDepth := 20) [hs])

@[simp] theorem leaveWaiting_quiet (s : State) (a : Nat) : (leaveWaiting a s).quiet = s.quiet := rfl
@[simp] theorem leaveWaiting_within {F : BitVec 10} {n : Nat} {p q : Bool} {s : State} (a : Nat) (hs : s.Within F n p q) :
    (leaveWaiting a s).Within F n p q := by
  unfold leaveWaiting
  exact withinRestore _ rfl hs

@[simp] theorem endSession_quiet (s : State) (a : Nat) : (endSession a s).quiet = s.quiet := by
  unfold endSession
  repeat' (first | split | dsimp only | simp)
@[simp] theorem endSession_within {F : BitVec 10} {n : Nat} {p q : Bool} {s : State} (a : Nat) (hs : s.Within F n p q) :
    (endSession a s).Within F n p q := by
  unfold endSession
  repeat' (first | exact hs | split | dsimp only | simp (maxDischargeDepth := 20) [hs])

@[simp] theorem enterProbe_quiet (s : State) (a : Nat) : (enterProbe a s).quiet = s.quiet := by
  unfold enterProbe
  repeat' (first | split | dsimp only | simp)
@[simp] theorem enterProbe_within {F : BitVec 10} {n : Nat} {p q : Bool} {s : State} (a : Nat) (hs : s.Within F n p q) :
    (enterProbe a s).Within F n p q := by
  unfold enterProbe
  repeat' (first | exact hs | split | dsimp only | simp (maxDischargeDepth := 20) [hs])

@[simp] theorem joinGapSet_quiet (s : State) (a : Nat) : (joinGapSet a s).quiet = s.quiet := rfl
@[simp] theorem joinGapSet_within {F : BitVec 10} {n : Nat} {p q : Bool} {s : State} (a : Nat) (hs : s.Within F n p q) :
    (joinGapSet a s).Within F n p q := by
  unfold joinGapSet
  exact withinGap _ (fun _ => addressSet_nodup _) hs

@[simp] theorem leaveGapSet_quiet (s : State) (a : Nat) : (leaveGapSet a s).quiet = s.quiet := rfl
@[simp] theorem leaveGapSet_within {F : BitVec 10} {n : Nat} {p q : Bool} {s : State} (a : Nat) (hs : s.Within F n p q) :
    (leaveGapSet a s).Within F n p q := by
  unfold leaveGapSet
  exact withinGap _ (fun hp => (hs.members hp).filter _) hs

@[simp] theorem enterSuspect_quiet (s : State) (a : Nat) (st : NodeState) : (enterSuspect a st s).quiet = s.quiet := by
  unfold enterSuspect
  repeat' (first | split | dsimp only | simp)
@[simp] theorem enterSuspect_within {F : BitVec 10} {n : Nat} {p q : Bool} {s : State} (a : Nat) (st : NodeState) (hs : s.Within F n p q) :
    (enterSuspect a st s).Within F n p q := by
  unfold enterSuspect
  repeat' (first | exact hs | split | dsimp only | simp (maxDischargeDepth := 20) [hs])

@[simp] theorem enterProbeOrSuspect_quiet (s : State) (a : Nat) : (enterProbeOrSuspect a s).quiet = s.quiet := by
  unfold enterProbeOrSuspect
  repeat' (first | split | dsimp only | simp)
@[simp] theorem enterProbeOrSuspect_within {F : BitVec 10} {n : Nat} {p q : Bool} {s : State} (a : Nat) (hs : s.Within F n p q) :
    (enterProbeOrSuspect a s).Within F n p q := by
  unfold enterProbeOrSuspect
  repeat' (first | exact hs | split | dsimp only | simp (maxDischargeDepth := 20) [hs])

@[simp] theorem enterOnline_quiet (s : State) (a : Nat) : (enterOnline a s).quiet = s.quiet := by
  unfold enterOnline
  repeat' (first | split | dsimp only | simp)
@[simp] theorem enterOnline_within {F : BitVec 10} {n : Nat} {p q : Bool} {s : State} (a : Nat) (hs : s.Within F n p q) :
    (enterOnline a s).Within F n p q := by
  unfold enterOnline
  repeat' (first | exact hs | split | dsimp only | simp (maxDischargeDepth := 20) [hs])

@[simp] theorem enterReplay_quiet (s : State) (a : Nat) : (enterReplay a s).quiet = s.quiet := by
  unfold enterReplay
  repeat' (first | split | dsimp only | simp)
@[simp] theorem enterReplay_within {F : BitVec 10} {n : Nat} {p q : Bool} {s : State} (a : Nat) (hs : s.Within F n p q) :
    (enterReplay a s).Within F n p q := by
  unfold enterReplay
  repeat' (first | exact hs | split | dsimp only | simp (maxDischargeDepth := 20) [hs])

@[simp] theorem enterRelease_quiet (s : State) (a : Nat) : (enterRelease a s).quiet = s.quiet := by
  unfold enterRelease
  repeat' (first | split | dsimp only | simp)
@[simp] theorem enterRelease_within {F : BitVec 10} {n : Nat} {p q : Bool} {s : State} (a : Nat) (hs : s.Within F n p q) :
    (enterRelease a s).Within F n p q := by
  unfold enterRelease
  repeat' (first | exact hs | split | dsimp only | simp (maxDischargeDepth := 20) [hs])

@[simp] theorem enterConfig_quiet (s : State) (a : Nat) : (enterConfig a s).quiet = s.quiet := by
  unfold enterConfig
  repeat' (first | split | dsimp only | simp)
@[simp] theorem enterConfig_within {F : BitVec 10} {n : Nat} {p q : Bool} {s : State} (a : Nat) (hs : s.Within F n p q) :
    (enterConfig a s).Within F n p q := by
  unfold enterConfig
  repeat' (first | exact hs | split | dsimp only | simp (maxDischargeDepth := 20) [hs])

@[simp] theorem onward_quiet (s : State) (a : Nat) : (onward a s).quiet = s.quiet := by
  unfold onward
  repeat' (first | split | dsimp only | simp)
@[simp] theorem onward_within {F : BitVec 10} {n : Nat} {p q : Bool} {s : State} (a : Nat) (hs : s.Within F n p q) :
    (onward a s).Within F n p q := by
  unfold onward
  repeat' (first | exact hs | split | dsimp only | simp (maxDischargeDepth := 20) [hs])

@[simp] theorem enterMissing_quiet (s : State) (a : Nat) : (enterMissing a s).quiet = s.quiet := by
  simp [enterMissing]
@[simp] theorem enterMissing_within {F : BitVec 10} {n : Nat} {p q : Bool} {s : State} (a : Nat) (hs : s.Within F n p q) :
    (enterMissing a s).Within F n p q :=
  offerNodeState_within _ _ (mapRuntime_within_move _ _ (fun r => by cases r.step <;> simp) hs)

@[simp] theorem enterAwaitBoot_quiet (s : State) (a : Nat) (t : Time) : (enterAwaitBoot a t s).quiet = s.quiet := by
  unfold enterAwaitBoot
  repeat' (first | split | dsimp only | simp)
@[simp] theorem enterAwaitBoot_within {F : BitVec 10} {n : Nat} {p q : Bool} {s : State} (a : Nat) (t : Time) (hs : s.Within F n p q) :
    (enterAwaitBoot a t s).Within F n p q := by
  unfold enterAwaitBoot
  repeat' (first | exact hs | split | dsimp only | simp (maxDischargeDepth := 20) [hs])

@[simp] theorem enterFailed_quiet (s : State) (a : Nat) : (enterFailed a s).quiet = s.quiet := by
  unfold enterFailed
  repeat' (first | split | dsimp only | simp)
@[simp] theorem enterFailed_within {F : BitVec 10} {n : Nat} {p q : Bool} {s : State} (a : Nat) (hs : s.Within F n p q) :
    (enterFailed a s).Within F n p q := by
  unfold enterFailed
  repeat' (first | exact hs | split | dsimp only | simp (maxDischargeDepth := 20) [hs])

@[simp] theorem enterIsolated_quiet (s : State) (a : Nat) : (enterIsolated a s).quiet = s.quiet := by
  unfold enterIsolated
  repeat' (first | split | dsimp only | simp)
@[simp] theorem enterIsolated_within {F : BitVec 10} {n : Nat} {p q : Bool} {s : State} (a : Nat) (hs : s.Within F n p q) :
    (enterIsolated a s).Within F n p q := by
  unfold enterIsolated
  repeat' (first | exact hs | split | dsimp only | simp (maxDischargeDepth := 20) [hs])

@[simp] theorem offerFirstStep_quiet (s : State) (a : Nat) : (offerFirstStep a s).quiet = s.quiet := by
  simp [offerFirstStep]
@[simp] theorem offerFirstStep_within {F : BitVec 10} {n : Nat} {p q : Bool} {s : State} (a : Nat) (hs : s.Within F n p q) :
    (offerFirstStep a s).Within F n p q := by
  refine mapRuntime_within_same _ _ (fun r => ?_) hs
  dsimp only
  repeat' split
  all_goals rfl

@[simp] theorem releaseAfterExpiry_quiet (s : State) (a : Nat) (b : Bool) : (releaseAfterExpiry a b s).quiet = s.quiet := by
  unfold releaseAfterExpiry
  repeat' (first | split | dsimp only | simp)
@[simp] theorem releaseAfterExpiry_within {F : BitVec 10} {n : Nat} {p q : Bool} {s : State} (a : Nat) (b : Bool) (hs : s.Within F n p q) :
    (releaseAfterExpiry a b s).Within F n p q := by
  unfold releaseAfterExpiry
  repeat' (first | exact hs | split | dsimp only | simp (maxDischargeDepth := 20) [hs])

@[simp] theorem expireEntry_quiet (s : State) (a i : Nat) (e : HoldEntry) : (expireEntry a i e s).quiet = s.quiet := by
  unfold expireEntry
  repeat' (first | split | dsimp only | simp)
@[simp] theorem expireEntry_within {F : BitVec 10} {n : Nat} {p q : Bool} {s : State} (a i : Nat) (e : HoldEntry) (hs : s.Within F n p q) :
    (expireEntry a i e s).Within F n p q := by
  unfold expireEntry
  repeat' (first | exact hs | split | dsimp only | simp (maxDischargeDepth := 20) [hs])

@[simp] theorem clearInFlight_quiet (s : State) (a : Nat) : (clearInFlight a s).quiet = s.quiet := by
  unfold clearInFlight
  repeat' (first | split | dsimp only | simp)
@[simp] theorem clearInFlight_within {F : BitVec 10} {n : Nat} {p q : Bool} {s : State} (a : Nat) (hs : s.Within F n p q) :
    (clearInFlight a s).Within F n p q := by
  unfold clearInFlight
  repeat' (first | exact hs | split | dsimp only | simp (maxDischargeDepth := 20) [hs])

@[simp] theorem enterImage_quiet (s : State) (a k i : Nat) (e : ImageEntry) (o : Option ImageState) : (enterImage a k i e o s).quiet = s.quiet := by
  unfold enterImage
  repeat' (first | split | dsimp only | simp)
@[simp] theorem enterImage_within {F : BitVec 10} {n : Nat} {p q : Bool} {s : State} (a k i : Nat) (e : ImageEntry) (o : Option ImageState) (hs : s.Within F n p q) :
    (enterImage a k i e o s).Within F n p q := by
  unfold enterImage
  repeat' (first | exact hs | split | dsimp only | simp (maxDischargeDepth := 20) [hs])

@[simp] theorem countAttempt_quiet (s : State) (a : Nat) : (countAttempt a s).quiet = s.quiet := by
  unfold countAttempt
  repeat' (first | split | dsimp only | simp)
@[simp] theorem countAttempt_within {F : BitVec 10} {n : Nat} {p q : Bool} {s : State} (a : Nat) (hs : s.Within F n p q) :
    (countAttempt a s).Within F n p q := by
  unfold countAttempt
  repeat' (first | exact hs | split | dsimp only | simp (maxDischargeDepth := 20) [hs])

@[simp] theorem attemptFailure_quiet (s : State) (a : Nat) : (attemptFailure a s).quiet = s.quiet := by
  unfold attemptFailure
  repeat' (first | split | dsimp only | simp)
@[simp] theorem attemptFailure_within {F : BitVec 10} {n : Nat} {p q : Bool} {s : State} (a : Nat) (hs : s.Within F n p q) :
    (attemptFailure a s).Within F n p q := by
  unfold attemptFailure
  repeat' (first | exact hs | split | dsimp only | simp (maxDischargeDepth := 20) [hs])

@[simp] theorem attemptFailureOutside_quiet (s : State) (a : Nat) (o : Option ImageState) : (attemptFailureOutside a o s).quiet = s.quiet := by
  unfold attemptFailureOutside
  repeat' (first | split | dsimp only | simp)
@[simp] theorem attemptFailureOutside_within {F : BitVec 10} {n : Nat} {p q : Bool} {s : State} (a : Nat) (o : Option ImageState) (hs : s.Within F n p q) :
    (attemptFailureOutside a o s).Within F n p q := by
  unfold attemptFailureOutside
  repeat' (first | exact hs | split | dsimp only | simp (maxDischargeDepth := 20) [hs])

@[simp] theorem blockStored_quiet (s : State) (a : Nat) : (blockStored a s).quiet = s.quiet := by
  unfold blockStored
  repeat' (first | split | dsimp only | simp)
@[simp] theorem blockStored_within {F : BitVec 10} {n : Nat} {p q : Bool} {s : State} (a : Nat) (hs : s.Within F n p q) :
    (blockStored a s).Within F n p q := by
  unfold blockStored
  repeat' (first | exact hs | split | dsimp only | simp (maxDischargeDepth := 20) [hs])

@[simp] theorem countRetry_quiet (s : State) (a : Nat) (f : State → State) (hf : ∀ s, (f s).quiet = s.quiet) : (countRetry a f s).quiet = s.quiet := by
  unfold countRetry
  repeat' (first | split | dsimp only | simp [hf])
@[simp] theorem countRetry_within {F : BitVec 10} {n : Nat} {p q : Bool} {s : State} (a : Nat) (f : State → State)
    (hf : ∀ s, State.Within F n p q s → State.Within F n p q (f s)) (hs : s.Within F n p q) : (countRetry a f s).Within F n p q := by
  unfold countRetry
  repeat' (first | exact hs | split | dsimp only | simp (maxDischargeDepth := 20) [hs, hf])

@[simp] theorem schedulePoll_quiet (s : State) (a : Nat) : (schedulePoll a s).quiet = s.quiet := by
  unfold schedulePoll
  repeat' (first | split | dsimp only | simp)
@[simp] theorem schedulePoll_within {F : BitVec 10} {n : Nat} {p q : Bool} {s : State} (a : Nat) (hs : s.Within F n p q) :
    (schedulePoll a s).Within F n p q := by
  unfold schedulePoll
  repeat' (first | exact hs | split | dsimp only | simp (maxDischargeDepth := 20) [hs])

@[simp] theorem busyAgain_quiet (s : State) (a : Nat) : (busyAgain a s).quiet = s.quiet := by
  unfold busyAgain
  repeat' (first | split | dsimp only | simp)
@[simp] theorem busyAgain_within {F : BitVec 10} {n : Nat} {p q : Bool} {s : State} (a : Nat) (hs : s.Within F n p q) :
    (busyAgain a s).Within F n p q := by
  unfold busyAgain
  repeat' (first | exact hs | split | dsimp only | simp (maxDischargeDepth := 20) [hs])

@[simp] theorem imageVerified_quiet (s : State) (a : Nat) : (imageVerified a s).quiet = s.quiet := by
  unfold imageVerified
  repeat' (first | split | dsimp only | simp)
@[simp] theorem imageVerified_within {F : BitVec 10} {n : Nat} {p q : Bool} {s : State} (a : Nat) (hs : s.Within F n p q) :
    (imageVerified a s).Within F n p q := by
  unfold imageVerified
  repeat' (first | exact hs | split | dsimp only | simp (maxDischargeDepth := 20) [hs])

@[simp] theorem blockToken_quiet (s : State) (a : Nat) (t : Token) : (blockToken a t s).quiet = s.quiet := by
  unfold blockToken
  repeat' (first | split | dsimp only | simp)
@[simp] theorem blockToken_within {F : BitVec 10} {n : Nat} {p q : Bool} {s : State} (a : Nat) (t : Token) (hs : s.Within F n p q) :
    (blockToken a t s).Within F n p q := by
  unfold blockToken
  repeat' (first | exact hs | split | dsimp only | exact countRetry_within _ _ (fun _ h => offerKind_within _ _ h) hs | simp (maxDischargeDepth := 20) [hs])

@[simp] theorem endToken_quiet (s : State) (a : Nat) (t : Token) : (endToken a t s).quiet = s.quiet := by
  unfold endToken
  repeat' (first | split | dsimp only | simp)
@[simp] theorem endToken_within {F : BitVec 10} {n : Nat} {p q : Bool} {s : State} (a : Nat) (t : Token) (hs : s.Within F n p q) :
    (endToken a t s).Within F n p q := by
  unfold endToken
  repeat' (first | exact hs | split | dsimp only | simp (maxDischargeDepth := 20) [hs])

@[simp] theorem pollToken_quiet (s : State) (a : Nat) (t : Token) : (pollToken a t s).quiet = s.quiet := by
  unfold pollToken
  repeat' (first | split | dsimp only | simp)
@[simp] theorem pollToken_within {F : BitVec 10} {n : Nat} {p q : Bool} {s : State} (a : Nat) (t : Token) (hs : s.Within F n p q) :
    (pollToken a t s).Within F n p q := by
  unfold pollToken
  repeat' (first | exact hs | split | dsimp only | simp (maxDischargeDepth := 20) [hs])

@[simp] theorem restartedInTransfer_quiet (s : State) (a : Nat) : (restartedInTransfer a s).quiet = s.quiet := by
  unfold restartedInTransfer
  repeat' (first | split | dsimp only | simp)
@[simp] theorem restartedInTransfer_within {F : BitVec 10} {n : Nat} {p q : Bool} {s : State} (a : Nat) (hs : s.Within F n p q) :
    (restartedInTransfer a s).Within F n p q := by
  unfold restartedInTransfer
  repeat' (first | exact hs | split | dsimp only | simp (maxDischargeDepth := 20) [hs])

@[simp] theorem imageResult_quiet (s : State) (a : Nat) (k : StepKind) (r : Result) : (imageResult a k r s).quiet = s.quiet := by
  unfold imageResult
  repeat' (first | split | dsimp only | simp)
@[simp] theorem imageResult_within {F : BitVec 10} {n : Nat} {p q : Bool} {s : State} (a : Nat) (k : StepKind) (r : Result) (hs : s.Within F n p q) :
    (imageResult a k r s).Within F n p q := by
  unfold imageResult
  repeat' (first | exact hs | split | dsimp only | exact countRetry_within _ _ (fun _ h => offerKind_within _ _ h) hs | exact countRetry_within _ _ (fun _ h => schedulePoll_within _ h) hs | simp (maxDischargeDepth := 20) [hs])

@[simp] theorem nextProbeInWindow_quiet (s : State) (a : Nat) : (nextProbeInWindow a s).quiet = s.quiet := by
  simp [nextProbeInWindow]
@[simp] theorem nextProbeInWindow_within {F : BitVec 10} {n : Nat} {p q : Bool} {s : State} (a : Nat) (hs : s.Within F n p q) :
    (nextProbeInWindow a s).Within F n p q := by
  refine mapRuntime_within_same _ _ (fun r => ?_) hs
  split <;> rfl

@[simp] theorem probeMiss_quiet (s : State) (a : Nat) : (probeMiss a s).quiet = s.quiet := by
  unfold probeMiss
  repeat' (first | split | dsimp only | simp)
@[simp] theorem probeMiss_within {F : BitVec 10} {n : Nat} {p q : Bool} {s : State} (a : Nat) (hs : s.Within F n p q) :
    (probeMiss a s).Within F n p q := by
  unfold probeMiss
  repeat' (first | exact hs | split | dsimp only | simp (maxDischargeDepth := 20) [hs])

@[simp] theorem reconcileKept_quiet (s : State) (a : Nat) (r : Runtime) : (reconcileKept a r s).quiet = s.quiet := by
  unfold reconcileKept
  repeat' (first | split | dsimp only | simp)
@[simp] theorem reconcileKept_within {F : BitVec 10} {n : Nat} {p q : Bool} {s : State} (a : Nat) (r : Runtime) (hs : s.Within F n p q) :
    (reconcileKept a r s).Within F n p q := by
  unfold reconcileKept
  repeat' (first | exact hs | split | dsimp only | simp (maxDischargeDepth := 20) [hs])

@[simp] theorem decideImage_quiet (s : State) (a : Nat) (e : NodeEntry) (v : StatusReport) : (decideImage a e v s).quiet = s.quiet := by
  unfold decideImage
  repeat' (first | split | dsimp only | simp)
@[simp] theorem decideImage_within {F : BitVec 10} {n : Nat} {p q : Bool} {s : State} (a : Nat) (e : NodeEntry) (v : StatusReport) (hs : s.Within F n p q) :
    (decideImage a e v s).Within F n p q := by
  unfold decideImage
  repeat' (first | exact hs | split | dsimp only | simp (maxDischargeDepth := 20) [hs])

@[simp] theorem reconcileChanged_quiet (s : State) (a : Nat) (r : Runtime) (m : Byte) (v : StatusReport) : (reconcileChanged a r m v s).quiet = s.quiet := by
  unfold reconcileChanged
  repeat' (first | split | dsimp only | simp)
@[simp] theorem reconcileChanged_within {F : BitVec 10} {n : Nat} {p q : Bool} {s : State} (a : Nat) (r : Runtime) (m : Byte) (v : StatusReport) (hs : s.Within F n p q) :
    (reconcileChanged a r m v s).Within F n p q := by
  unfold reconcileChanged
  repeat' (first | exact hs | split | dsimp only | simp (maxDischargeDepth := 20) [hs])

@[simp] theorem reconcile_quiet (s : State) (a : Nat) (m : Byte) (v : StatusReport) : (reconcile a m v s).quiet = s.quiet := by
  unfold reconcile
  repeat' (first | split | dsimp only | simp)
@[simp] theorem reconcile_within {F : BitVec 10} {n : Nat} {p q : Bool} {s : State} (a : Nat) (m : Byte) (v : StatusReport) (hs : s.Within F n p q) :
    (reconcile a m v s).Within F n p q := by
  unfold reconcile
  repeat' (first | exact hs | split | dsimp only | simp (maxDischargeDepth := 20) [hs])

@[simp] theorem probeResult_quiet (s : State) (a : Nat) (r : Result) : (probeResult a r s).quiet = s.quiet := by
  unfold probeResult
  repeat' (first | split | dsimp only | simp)
@[simp] theorem probeResult_within {F : BitVec 10} {n : Nat} {p q : Bool} {s : State} (a : Nat) (r : Result) (hs : s.Within F n p q) :
    (probeResult a r s).Within F n p q := by
  unfold probeResult
  repeat' (first | exact hs | split | dsimp only | simp (maxDischargeDepth := 20) [hs])

@[simp] theorem stepMiss_quiet (s : State) (a : Nat) (f : State → State) (hf : ∀ s, (f s).quiet = s.quiet) : (stepMiss a f s).quiet = s.quiet := by
  unfold stepMiss
  repeat' (first | split | dsimp only | simp [hf])
@[simp] theorem stepMiss_within {F : BitVec 10} {n : Nat} {p q : Bool} {s : State} (a : Nat) (f : State → State)
    (hf : ∀ s, State.Within F n p q s → State.Within F n p q (f s)) (hs : s.Within F n p q) : (stepMiss a f s).Within F n p q := by
  unfold stepMiss
  repeat' (first | exact hs | split | dsimp only | simp (maxDischargeDepth := 20) [hs, hf])

@[simp] theorem configResult_quiet (s : State) (a : Nat) (r : Result) : (configResult a r s).quiet = s.quiet := by
  unfold configResult
  repeat' (first | split | dsimp only | simp)
@[simp] theorem configResult_within {F : BitVec 10} {n : Nat} {p q : Bool} {s : State} (a : Nat) (r : Result) (hs : s.Within F n p q) :
    (configResult a r s).Within F n p q := by
  unfold configResult
  repeat' (first | exact hs | split | dsimp only | exact stepMiss_within _ _ (fun _ h => offerKind_within _ _ h) hs | simp (maxDischargeDepth := 20) [hs])

@[simp] theorem replayOn_quiet (s : State) (a : Nat) : (replayOn a s).quiet = s.quiet := by
  unfold replayOn
  repeat' (first | split | dsimp only | simp)
@[simp] theorem replayOn_within {F : BitVec 10} {n : Nat} {p q : Bool} {s : State} (a : Nat) (hs : s.Within F n p q) :
    (replayOn a s).Within F n p q := by
  unfold replayOn
  repeat' (first | exact hs | split | dsimp only | simp (maxDischargeDepth := 20) [hs])

@[simp] theorem clearReplayed_quiet (s : State) (a : Nat) : (clearReplayed a s).quiet = s.quiet := by
  unfold clearReplayed
  repeat' (first | split | dsimp only | simp)
@[simp] theorem clearReplayed_within {F : BitVec 10} {n : Nat} {p q : Bool} {s : State} (a : Nat) (hs : s.Within F n p q) :
    (clearReplayed a s).Within F n p q := by
  unfold clearReplayed
  repeat' (first | exact hs | split | dsimp only | simp (maxDischargeDepth := 20) [hs])

@[simp] theorem replayResult_quiet (s : State) (a : Nat) (r : Result) : (replayResult a r s).quiet = s.quiet := by
  unfold replayResult
  repeat' (first | split | dsimp only | simp)
@[simp] theorem replayResult_within {F : BitVec 10} {n : Nat} {p q : Bool} {s : State} (a : Nat) (r : Result) (hs : s.Within F n p q) :
    (replayResult a r s).Within F n p q := by
  unfold replayResult
  repeat' (first | exact hs | split | dsimp only | exact stepMiss_within _ _ (fun _ h => replayOn_within _ h) (setReplayInFlight_within _ _ hs) | simp (maxDischargeDepth := 20) [hs])

@[simp] theorem captureReleased_quiet (s : State) (a : Nat) (e : HoldEntry) (k : ReplyKind) : (captureReleased a e k s).quiet = s.quiet := by
  unfold captureReleased
  repeat' (first | split | dsimp only | simp)
@[simp] theorem captureReleased_within {F : BitVec 10} {n : Nat} {p q : Bool} {s : State} (a : Nat) (e : HoldEntry) (k : ReplyKind) (hs : s.Within F n p q) :
    (captureReleased a e k s).Within F n p q := by
  unfold captureReleased
  repeat' (first | exact hs | split | dsimp only | simp (maxDischargeDepth := 20) [hs])

@[simp] theorem releaseResult_quiet (s : State) (a : Nat) (r : Result) : (releaseResult a r s).quiet = s.quiet := by
  unfold releaseResult
  repeat' (first | split | dsimp only | simp)
@[simp] theorem releaseResult_within {F : BitVec 10} {n : Nat} {p q : Bool} {s : State} (a : Nat) (r : Result) (hs : s.Within F n p q) :
    (releaseResult a r s).Within F n p q := by
  unfold releaseResult
  repeat' (first | exact hs | split | dsimp only | simp (maxDischargeDepth := 20) [hs])

@[simp] theorem applyStep_quiet (s : State) (a : Nat) (k : StepKind) (r : Result) : (applyStep a k r s).quiet = s.quiet := by
  unfold applyStep
  repeat' (first | split | dsimp only | simp)
@[simp] theorem applyStep_within {F : BitVec 10} {n : Nat} {p q : Bool} {s : State} (a : Nat) (k : StepKind) (r : Result) (hs : s.Within F n p q) :
    (applyStep a k r s).Within F n p q := by
  unfold applyStep
  repeat' (first | exact hs | split | dsimp only | simp (maxDischargeDepth := 20) [hs])

@[simp] theorem stepEnded_quiet (s : State) (a : Nat) (r : Result) : (stepEnded a r s).quiet = s.quiet := by
  unfold stepEnded
  repeat' (first | split | dsimp only | simp)
@[simp] theorem stepEnded_within {F : BitVec 10} {n : Nat} {p q : Bool} {s : State} (a : Nat) (r : Result) (hs : s.Within F n p q) :
    (stepEnded a r s).Within F n p q := by
  unfold stepEnded
  repeat' (first | exact hs | split | dsimp only | simp (maxDischargeDepth := 20) [hs])

@[simp] theorem countNoReply_quiet (s : State) (a : Nat) : (countNoReply a s).quiet = s.quiet := by
  unfold countNoReply
  repeat' (first | split | dsimp only | simp)
@[simp] theorem countNoReply_within {F : BitVec 10} {n : Nat} {p q : Bool} {s : State} (a : Nat) (hs : s.Within F n p q) :
    (countNoReply a s).Within F n p q := by
  unfold countNoReply
  repeat' (first | exact hs | split | dsimp only | simp (maxDischargeDepth := 20) [hs])

@[simp] theorem checkPassMarker_quiet (s : State) (a : Nat) (m : Byte) : (checkPassMarker a m s).quiet = s.quiet := by
  unfold checkPassMarker
  repeat' (first | split | dsimp only | simp)
@[simp] theorem checkPassMarker_within {F : BitVec 10} {n : Nat} {p q : Bool} {s : State} (a : Nat) (m : Byte) (hs : s.Within F n p q) :
    (checkPassMarker a m s).Within F n p q := by
  unfold checkPassMarker
  repeat' (first | exact hs | split | dsimp only | simp (maxDischargeDepth := 20) [hs])

@[simp] theorem passDone_quiet (s : State) (t : Transaction) (e : PassEntry) (r : Reply) : (passDone t e r s).quiet = s.quiet := by
  unfold passDone
  repeat' (first | split | dsimp only | simp)
@[simp] theorem passDone_within {F : BitVec 10} {n : Nat} {p q : Bool} {s : State} (t : Transaction) (e : PassEntry) (r : Reply) (hs : s.Within F n p q) :
    (passDone t e r s).Within F n p q := by
  unfold passDone
  dsimp only
  (repeat' split) <;> try simp (maxDischargeDepth := 20) [hs]
  all_goals
    apply checkPassMarker_within
    refine mapRuntime_within_same _ _ (fun r => by split <;> rfl) ?_
    (repeat' split) <;> simp (maxDischargeDepth := 20) [hs]

@[simp] theorem passLost_quiet (s : State) (e : PassEntry) (c : AnswerCode) : (passLost e c s).quiet = s.quiet := by
  unfold passLost
  repeat' (first | split | dsimp only | simp)
@[simp] theorem passLost_within {F : BitVec 10} {n : Nat} {p q : Bool} {s : State} (e : PassEntry) (c : AnswerCode) (hs : s.Within F n p q) :
    (passLost e c s).Within F n p q := by
  unfold passLost
  repeat' (first | exact hs | split | dsimp only | simp (maxDischargeDepth := 20) [hs])

@[simp] theorem broadcastMember_quiet (s : State) (e : PassEntry) (a : Nat) : (broadcastMember e a s).quiet = s.quiet := by
  unfold broadcastMember
  repeat' (first | split | dsimp only | simp)
@[simp] theorem broadcastMember_within {F : BitVec 10} {n : Nat} {p q : Bool} {s : State} (e : PassEntry) (a : Nat) (hs : s.Within F n p q) :
    (broadcastMember e a s).Within F n p q := by
  unfold broadcastMember
  repeat' (first | exact hs | split | dsimp only | simp (maxDischargeDepth := 20) [hs])

/-! ### What a step start, a gap, a switch and a store read do to one node -/

@[simp] theorem reserveRelease_quiet (s : State) (a : Nat) : (reserveRelease a s).quiet = s.quiet := by
  unfold reserveRelease
  repeat' (first | split | dsimp only | simp)
@[simp] theorem reserveRelease_within {F : BitVec 10} {n : Nat} {p q : Bool} {s : State} (a : Nat) (hs : s.Within F n p q) :
    (reserveRelease a s).Within F n p q := by
  unfold reserveRelease
  repeat' (first | exact hs | split | dsimp only | simp (maxDischargeDepth := 20) [hs])

@[simp] theorem beginStep_quiet (s : State) (a : Nat) (k : StepKind) : (beginStep a k s).quiet = s.quiet := by
  unfold beginStep
  repeat' (first | split | dsimp only | simp)
@[simp] theorem beginStep_within {F : BitVec 10} {n : Nat} {p q : Bool} {s : State} (a : Nat) (k : StepKind) (hs : s.Within F n p q) :
    (beginStep a k s).Within F n p q := by
  unfold beginStep
  repeat' (first | exact hs | split | dsimp only | simp (maxDischargeDepth := 20) [hs])

@[simp] theorem clearWaiting_quiet (s : State) : (clearWaiting s).quiet = s.quiet := by simp [clearWaiting]
@[simp] theorem clearWaiting_within {F : BitVec 10} {n : Nat} {p q : Bool} {s : State} (hs : s.Within F n p q) :
    (clearWaiting s).Within F n p q := by
  simp (maxDischargeDepth := 20) [clearWaiting, hs]

@[simp] theorem restartNode_quiet (s : State) (a : Nat) : (restartNode a s).quiet = s.quiet := by
  unfold restartNode
  repeat' (first | split | dsimp only | simp)
@[simp] theorem restartNode_within {F : BitVec 10} {n : Nat} {p q : Bool} {s : State} (a : Nat) (hs : s.Within F n p q) :
    (restartNode a s).Within F n p q := by
  unfold restartNode
  repeat' (first | exact hs | split | dsimp only | simp (maxDischargeDepth := 20) [hs])

@[simp] theorem suspendMember_quiet (s : State) (a : Nat) : (suspendMember a s).quiet = s.quiet := by
  unfold suspendMember
  repeat' (first | split | dsimp only | simp)
@[simp] theorem suspendMember_within {F : BitVec 10} {n : Nat} {p q : Bool} {s : State} (a : Nat) (hs : s.Within F n p q) :
    (suspendMember a s).Within F n p q := by
  unfold suspendMember
  repeat' (first | exact hs | split | dsimp only | simp (maxDischargeDepth := 20) [hs])

@[simp] theorem memberAtGapEnd_quiet (s : State) (e : Time) (a : Nat) (c : GapClass) : (memberAtGapEnd e a c s).quiet = s.quiet := by
  unfold memberAtGapEnd
  repeat' (first | split | dsimp only | simp)
@[simp] theorem memberAtGapEnd_within {F : BitVec 10} {n : Nat} {p q : Bool} {s : State} (e : Time) (a : Nat) (c : GapClass) (hs : s.Within F n p q) :
    (memberAtGapEnd e a c s).Within F n p q := by
  unfold memberAtGapEnd
  have hc : ∀ r, (countClass c r).state = r.state := by intro r; cases c <;> rfl
  have h1 : (s.mapRuntime a (countClass c)).Within F n p q := mapRuntime_within_same a _ hc hs
  repeat' (first | exact h1 | split | dsimp only | simp (maxDischargeDepth := 20) [h1])

@[simp] theorem replayAfterSwitch_quiet (s : State) (a : Nat) : (replayAfterSwitch a s).quiet = s.quiet := by
  unfold replayAfterSwitch
  repeat' (first | split | dsimp only | simp)
@[simp] theorem replayAfterSwitch_within {F : BitVec 10} {n : Nat} {p q : Bool} {s : State} (a : Nat) (hs : s.Within F n p q) :
    (replayAfterSwitch a s).Within F n p q := by
  unfold replayAfterSwitch
  repeat' (first | exact hs | split | dsimp only | simp (maxDischargeDepth := 20) [hs])

@[simp] theorem switchShadow_quiet (s : State) (t u : Tables) (a : Nat) : (switchShadow t u a s).quiet = s.quiet := by
  unfold switchShadow
  repeat' (first | split | dsimp only | simp)
@[simp] theorem switchShadow_within {F : BitVec 10} {n : Nat} {p q : Bool} {s : State} (t u : Tables) (a : Nat) (hs : s.Within F n p q) :
    (switchShadow t u a s).Within F n p q := by
  unfold switchShadow
  repeat' (first | exact hs | split | dsimp only | simp (maxDischargeDepth := 20) [hs])

@[simp] theorem releaseAfterTrim_quiet (s : State) (a : Nat) : (releaseAfterTrim a s).quiet = s.quiet := by
  unfold releaseAfterTrim
  repeat' (first | split | dsimp only | simp)
@[simp] theorem releaseAfterTrim_within {F : BitVec 10} {n : Nat} {p q : Bool} {s : State} (a : Nat) (hs : s.Within F n p q) :
    (releaseAfterTrim a s).Within F n p q := by
  unfold releaseAfterTrim
  repeat' (first | exact hs | split | dsimp only | simp (maxDischargeDepth := 20) [hs])

@[simp] theorem switchHold_quiet (s : State) (t u : Tables) (a : Nat) : (switchHold t u a s).quiet = s.quiet := by
  unfold switchHold
  repeat' (first | split | dsimp only | simp)
@[simp] theorem switchHold_within {F : BitVec 10} {n : Nat} {p q : Bool} {s : State} (t u : Tables) (a : Nat) (hs : s.Within F n p q) :
    (switchHold t u a s).Within F n p q := by
  unfold switchHold
  repeat' (first | exact hs | split | dsimp only | simp (maxDischargeDepth := 20) [hs])

@[simp] theorem markDamaged_quiet (s : State) (i : Nat) : (markDamaged i s).quiet = s.quiet := by
  unfold markDamaged
  repeat' (first | split | dsimp only | simp)
@[simp] theorem markDamaged_within {F : BitVec 10} {n : Nat} {p q : Bool} {s : State} (i : Nat) (hs : s.Within F n p q) :
    (markDamaged i s).Within F n p q := by
  unfold markDamaged
  repeat' (first | exact hs | split | dsimp only | simp (maxDischargeDepth := 20) [hs])

@[simp] theorem leaveDamaged_quiet (s : State) (i a : Nat) : (leaveDamaged i a s).quiet = s.quiet := by
  unfold leaveDamaged
  repeat' (first | split | dsimp only | simp)
@[simp] theorem leaveDamaged_within {F : BitVec 10} {n : Nat} {p q : Bool} {s : State} (i a : Nat) (hs : s.Within F n p q) :
    (leaveDamaged i a s).Within F n p q := by
  unfold leaveDamaged
  repeat' (first | exact hs | split | dsimp only | simp (maxDischargeDepth := 20) [hs])

@[simp] theorem drainBuffer_quiet (s : State) (b : Nat) : (drainBuffer b s).quiet = s.quiet := by
  unfold drainBuffer
  repeat' (first | split | dsimp only | simp)
@[simp] theorem drainBuffer_within {F : BitVec 10} {n : Nat} {p q : Bool} {s : State} (b : Nat) (hs : s.Within F n p q) :
    (drainBuffer b s).Within F n p q := by
  unfold drainBuffer
  repeat' (first | exact hs | split | dsimp only | simp (maxDischargeDepth := 20) [hs])

@[simp] theorem readGood_quiet (s : State) (r : ReadRequest) (d : List Byte) : (readGood r d s).quiet = s.quiet := by
  unfold readGood
  repeat' (first | split | dsimp only | simp)
@[simp] theorem readGood_within {F : BitVec 10} {n : Nat} {p q : Bool} {s : State} (r : ReadRequest) (d : List Byte) (hs : s.Within F n p q) :
    (readGood r d s).Within F n p q := by
  unfold readGood
  repeat' (first | exact hs | split | dsimp only | simp (maxDischargeDepth := 20) [hs])

@[simp] theorem stopCutClose_quiet (s : State) : (stopCutClose s).quiet = s.quiet := by
  unfold stopCutClose
  repeat' (first | split | dsimp only | simp)
@[simp] theorem stopCutClose_within {F : BitVec 10} {n : Nat} {p q : Bool} {s : State} (hs : s.Within F n p q) :
    (stopCutClose s).Within F n p q := by
  unfold stopCutClose
  repeat' (first | exact hs | split | dsimp only | simp (maxDischargeDepth := 20) [hs])

@[simp] theorem reportReadError_quiet (s : State) (b : Nat) : (reportReadError b s).quiet = s.quiet := by
  unfold reportReadError
  dsimp only
  split <;> simp
@[simp] theorem reportReadError_within {F : BitVec 10} {n : Nat} {p q : Bool} {s : State} (b : Nat)
    (hs : s.Within F n p q) : (reportReadError b s).Within F n p q := by
  unfold reportReadError
  dsimp only
  split
  · exact requestMarkWrite_within (markDamaged_within _ (raiseFlag_within _ hs))
  · exact requestMarkWrite_within (raiseFlag_within _ hs)

@[simp] theorem endDamaged_quiet (s : State) (a : Nat) : (endDamaged a s).quiet = s.quiet := by
  unfold endDamaged
  split <;> simp [forNodes_quiet]
@[simp] theorem endDamaged_within {F : BitVec 10} {n : Nat} {p q : Bool} {s : State} (a : Nat)
    (hs : s.Within F n p q) : (endDamaged a s).Within F n p q := by
  unfold endDamaged
  split
  · exact forNodes_within _ _ (fun a _ h => leaveDamaged_within _ a h) hs
  · exact hs

@[simp] theorem readFailed_quiet (s : State) (r : ReadRequest) : (readFailed r s).quiet = s.quiet := by
  unfold readFailed
  dsimp only
  split <;> simp
@[simp] theorem readFailed_within {F : BitVec 10} {n : Nat} {p q : Bool} {s : State} (r : ReadRequest)
    (hs : s.Within F n p q) : (readFailed r s).Within F n p q := by
  unfold readFailed
  dsimp only
  split
  · exact endDamaged_within _ (reportReadError_within _ hs)
  · exact drainBuffer_within _ (reportReadError_within _ hs)

end Sys2Proof.Machine
end

