-- ==== Sys2Proof/Laws/Commands.lean ====
section
/-! SUPPORT. What each command may change at most: `Allowed k s t` says once all that a command other than POWER_ON, RESET
and SET MODE keeps, a change of the edit copy, of the flags or of the block array apart. -/

namespace Sys2Proof.Machine

/-- What a command may change besides what every command may. -/
structure Change where
  flags : Bool := false
  tables : Bool := false
  edit : Bool := false
  blocks : Bool := false
  deriving DecidableEq, Repr

/-- What a command other than the two resets does at most, `k` apart. -/
structure Allowed (k : Change) (s t : State) : Prop where
  straps : t.straps = s.straps
  clock : t.gap.clock = s.gap.clock
  identity : ∀ x, s.responder.identity = some x → t.responder.identity = some x
  flags : k.flags = false → ∀ F, s.responder.flags &&& F = F → t.responder.flags &&& F = F
  tables : k.tables = false → t.tables = s.tables ∧ t.responder.mode = s.responder.mode
  edit : k.edit = false → k.tables = false → t.responder.edit = s.responder.edit
  blocks : k.blocks = false → t.store.blocks = s.store.blocks
  canonical : s.BlocksSound → t.BlocksSound
  ingress : s.IngressSound → t.IngressSound
  passes : s.PassesSound → t.PassesSound
  reserves : s.ReservesSound → t.ReservesSound
  runtimes : s.RuntimesSound → t.RuntimesSound
  members : s.GapSetSound → t.GapSetSound

theorem Allowed.refl (k : Change) (s : State) : Allowed k s s :=
  ⟨rfl, rfl, fun _ h => h, fun _ _ h => h, fun _ => ⟨rfl, rfl⟩, fun _ _ => rfl, fun _ => rfl, id, id, id, id, id, id⟩

theorem Allowed.trans {k : Change} {s t u : State} (h : Allowed k s t) (g : Allowed k t u) : Allowed k s u :=
  ⟨g.straps.trans h.straps, g.clock.trans h.clock, fun x e => g.identity x (h.identity x e),
    fun e F b => g.flags e F (h.flags e F b),
    fun e => ⟨(g.tables e).1.trans (h.tables e).1, (g.tables e).2.trans (h.tables e).2⟩,
    fun a b => (g.edit a b).trans (h.edit a b), fun a => (g.blocks a).trans (h.blocks a),
    g.canonical ∘ h.canonical, g.ingress ∘ h.ingress, g.passes ∘ h.passes, g.reserves ∘ h.reserves,
    g.runtimes ∘ h.runtimes, g.members ∘ h.members⟩

theorem passLength_of {s t : State} (hl : t.segment.line = s.segment.line) (hq : t.queued ≤ s.queued) :
    t.passLength ≤ s.passLength := by
  unfold State.passLength State.passInFlight State.transaction
  unfold State.queued at hq
  rw [hl]; omega

theorem named_of {s : State} (h : s.RuntimesSound) : s.named := h.2

/-- An operation that leaves the quiet part alone and keeps `Within` is allowed to every command. -/
theorem Allowed.of_quiet (k : Change) {s t : State} (hq : t.quiet = s.quiet)
    (hw : ∀ F n p q, s.Within F n p q → t.Within F n p q) : Allowed k s t := by
  have hent : t.tables = s.tables := congrArg Quiet.tables hq
  have hres : t.gap.reserves = s.gap.reserves := congrArg Quiet.reserves hq
  have hcon : (fun a => (t.runtime a).isSome) = fun a => (s.runtime a).isSome := congrArg Quiet.configured hq
  refine ⟨congrArg Quiet.straps hq, congrArg Quiet.clock hq, ?_, ?_, fun _ => ⟨hent, congrArg Quiet.mode hq⟩,
    fun _ _ => congrArg Quiet.edit hq, fun _ => congrArg Quiet.blocks hq, ?_, ?_, ?_, ?_, ?_, ?_⟩
  · intro x h; rw [← h]; exact congrArg Quiet.identity hq
  · intro _ F h; exact (hw F s.queued false false ⟨h, Nat.le_refl _, nofun, nofun⟩).flags
  · have : t.store.blocks = s.store.blocks := congrArg Quiet.blocks hq
    unfold State.BlocksSound ImageStore.wf; rw [this]; exact id
  · have : t.trunk.ingress = s.trunk.ingress := congrArg Quiet.ingress hq
    unfold State.IngressSound; rw [this]; exact id
  · have hl : t.segment.line = s.segment.line := congrArg Quiet.line hq
    have := (hw 0 s.queued false false ⟨by simp, Nat.le_refl _, nofun, nofun⟩).queued
    exact fun h => Nat.le_trans (passLength_of hl this) h
  · unfold State.ReservesSound State.reserve State.entry; rw [hres, hent]; exact id
  · intro h
    refine ⟨fun a => ?_, ?_⟩
    · rw [congrFun hcon a, show t.entry a = s.entry a by unfold State.entry; rw [hent]]; exact h.1 a
    · exact (hw 0 s.queued true false ⟨by simp, Nat.le_refl _, fun _ => h.2, nofun⟩).named rfl
  · intro h
    exact (hw 0 s.queued false true ⟨by simp, Nat.le_refl _, nofun, fun _ => h⟩).members rfl

/-! ### Changes of one block -/

theorem allowed_withTrunk (k : Change) (s : State) (x : TrunkPort)
    (h : s.trunk.ingress.length ≤ 16 → x.ingress.length ≤ 16) : Allowed k s (s.withTrunk x) :=
  ⟨rfl, rfl, fun _ h => h, fun _ _ h => h, fun _ => ⟨rfl, rfl⟩, fun _ _ => rfl, fun _ => rfl, id, h, id, id, id, id⟩

theorem allowed_withCounters (k : Change) (s : State) (x : ClassifierCounters) : Allowed k s (s.withCounters x) :=
  ⟨rfl, rfl, fun _ h => h, fun _ _ h => h, fun _ => ⟨rfl, rfl⟩, fun _ _ => rfl, fun _ => rfl, id, id, id, id, id, id⟩

theorem allowed_withSegment (k : Change) (s : State) (x : SegmentMaster)
    (h : s.PassesSound → (s.withSegment x).PassesSound) : Allowed k s (s.withSegment x) :=
  ⟨rfl, rfl, fun _ h => h, fun _ _ h => h, fun _ => ⟨rfl, rfl⟩, fun _ _ => rfl, fun _ => rfl, id, id, h, id, id, id⟩

theorem allowed_withStore (k : Change) (s : State) (x : ImageStore) (h : x.blocks = s.store.blocks) :
    Allowed k s (s.withStore x) :=
  ⟨rfl, rfl, fun _ h => h, fun _ _ h => h, fun _ => ⟨rfl, rfl⟩, fun _ _ => rfl, fun _ => h,
    by unfold State.BlocksSound ImageStore.wf; simp [h], id, id, id, id, id⟩

theorem allowed_withStored (k : Change) (s : State) (x : Option StoredTables) : Allowed k s (s.withStored x) :=
  ⟨rfl, rfl, fun _ h => h, fun _ _ h => h, fun _ => ⟨rfl, rfl⟩, fun _ _ => rfl, fun _ => rfl, id, id, id, id, id, id⟩

/-- The Gap Monitor changes without its clock, its gap set stays a set and its reserves stay sound. -/
theorem allowed_withGap (k : Change) (s : State) (x : GapMonitor) (hc : x.clock = s.gap.clock)
    (hm : s.GapSetSound → x.gapSet.Nodup) (hr : s.ReservesSound → (s.withGap x).ReservesSound) :
    Allowed k s (s.withGap x) :=
  ⟨rfl, hc, fun _ h => h, fun _ _ h => h, fun _ => ⟨rfl, rfl⟩, fun _ _ => rfl, fun _ => rfl, id, id, id, hr, id, hm⟩

theorem allowed_withMask (k : Change) (s : State) (m : BitVec 3) :
    Allowed k s (s.withResponder { s.responder with mask := m }) :=
  ⟨rfl, rfl, fun _ h => h, fun _ _ h => h, fun _ => ⟨rfl, rfl⟩, fun _ _ => rfl, fun _ => rfl, id, id, id, id, id, id⟩

theorem startTransmitter_trunk (s : State) :
    ∃ x, startTransmitter s = s.withTrunk x ∧ x.ingress = s.trunk.ingress := by
  unfold startTransmitter
  split
  · exact ⟨s.trunk, rfl, rfl⟩
  · dsimp only
    split
    · exact ⟨s.trunk, rfl, rfl⟩
    · exact ⟨_, rfl, rfl⟩

theorem allowed_endCommand (k : Change) (s : State) : Allowed k s (endCommand s) := by
  obtain ⟨x, hx, hi⟩ := startTransmitter_trunk s
  have : endCommand s = { s.withTrunk x with moment := (s.withTrunk x).moment + 1 } := by unfold endCommand; rw [hx]
  rw [this]
  exact ⟨rfl, rfl, fun _ h => h, fun _ _ h => h, fun _ => ⟨rfl, rfl⟩, fun _ _ => rfl, fun _ => rfl, id,
    by unfold State.IngressSound; simp [hi], id, id, id, id⟩

/-- What happens is allowed where its event's effect is. -/
theorem allowed_happens {k : Change} {r : Option State} {s t : State} (h : happens r s = .next t)
    (hr : ∀ u, r = some u → Allowed k s u) : Allowed k s t := by
  unfold happens at h
  split at h
  · next u => cases h; exact (hr u rfl).trans (allowed_endCommand k u)
  · cases h; exact Allowed.refl k s

theorem allowed_takeHead (k : Change) {s u : State} {f : TrunkFrame} {i : Nat} (h : s.takeHead = some (f, i, u)) :
    Allowed k s u := by
  unfold State.takeHead at h
  split at h
  · cases h
  · next g rest hin =>
    split at h
    · cases h
    · cases h
      exact allowed_withTrunk k s _ (by rw [hin]; simp; omega)


/-! ### The trunk link -/

theorem allowed_setReceiver (k : Change) (s : State) (c : RxCondition) : Allowed k s (s.setReceiver c) :=
  allowed_withTrunk k s _ (fun h => h)

theorem allowed_raiseFlag (k : Change) (s : State) (f : Flag) : Allowed k s (raiseFlag f s) :=
  .of_quiet k (raiseFlag_quiet s f) (fun _ _ _ _ h => raiseFlag_within f h)

theorem allowed_acceptFrame (k : Change) (s : State) (f : TrunkFrame) : Allowed k s (acceptFrame f s) := by
  unfold acceptFrame
  split
  · next h => exact allowed_withTrunk k s _ (fun _ => by simp; omega)
  · exact .trans (allowed_withTrunk k s _ (by exact fun h => h)) (allowed_raiseFlag k _ _)

theorem allowed_setEgress (k : Change) (s : State) (i : Nat) (e : EgressEntry) : Allowed k s (s.setEgress i e) :=
  allowed_withTrunk k s _ (fun h => h)

/-! ### Requests -/

theorem allowed_answerRequest (k : Change) (r : RequestRef) (c : AnswerCode) (b : List Byte) (s : State) :
    Allowed k s (answerRequest r c b s) :=
  allowed_withTrunk k s _ (fun h => h)

theorem allowed_judgeRequest {k : Change} {c : RequestCode} {act : Request → State → State}
    (ha : ∀ q s, Allowed k s (act q s)) (ref : RequestRef) (o : Byte) (args : List Byte) (s : State) :
    Allowed k s (judgeRequest c act ref o args s) := by
  unfold judgeRequest
  split
  · exact allowed_answerRequest k _ _ _ s
  · split
    · exact allowed_answerRequest k _ _ _ s
    · split
      · exact allowed_answerRequest k _ _ _ s
      · exact ha _ s

theorem allowed_takeRequest {k : Change} {c : RequestCode} {act : Request → State → State}
    (ha : ∀ q s, Allowed k s (act q s)) {s u : State} (h : takeRequest c act s = some u) : Allowed k s u := by
  unfold takeRequest at h
  split at h
  · next f i s1 ht =>
    split at h
    · split at h
      · cases h; exact (allowed_takeHead k ht).trans (allowed_judgeRequest ha _ _ _ _)
      · cases h
    · cases h
  · cases h

/-- The edit copy may change. -/
def Change.editing : Change := { edit := true }

theorem allowed_withEdit (s : State) (t : Tables) : Allowed .editing s (s.withEdit t) :=
  ⟨rfl, rfl, fun _ h => h, fun _ _ h => h, fun _ => ⟨rfl, rfl⟩, nofun, fun _ => rfl, id, id, id, id, id, id⟩

theorem allowed_done {k : Change} (q : Request) (d : List Byte) {s t : State} (h : Allowed k s t) :
    Allowed k s (done q d t) := h.trans (allowed_answerRequest k _ _ _ t)

theorem allowed_invalid (k : Change) (q : Request) (s : State) : Allowed k s (invalid q s) :=
  allowed_answerRequest k _ _ _ s

theorem allowed_read (k : Change) (q : Request) (d : List Byte) (s : State) : Allowed k s (done q d s) :=
  allowed_done q d (.refl k s)

theorem allowed_ite {k : Change} {s a b : State} {c : Prop} [Decidable c] (ha : Allowed k s a) (hb : Allowed k s b) :
    Allowed k s (if c then a else b) := by split <;> assumption

theorem allowed_join (k : Change) (o : Operation) (s : State) : Allowed k s (joinOperations o s) :=
  allowed_withStore k s _ rfl

theorem allowed_clearGlobal (k : Change) (s : State) : Allowed k s (clearGlobalCounters s) :=
  .trans (allowed_withTrunk k s { s.trunk with reportLost := 0, ingressDrop := 0 } (fun h => h))
    (.of_quiet k (quiet_withShadow _ _) (fun _ _ _ _ h => withinShadow _ h))

theorem allowed_mapSame (k : Change) (a : Nat) (f : Runtime → Runtime) (hf : ∀ r, (f r).state = r.state) (s : State) :
    Allowed k s (s.mapRuntime a f) :=
  .of_quiet k (mapRuntime_quiet s a f) (fun _ _ _ _ h => mapRuntime_within_same a f hf h)

theorem allowed_acts (k : Change) (q : Request) (s : State) :
    Allowed k s (actReadStatus q s) ∧ Allowed k s (actReadNode q s) ∧ Allowed k s (actReadCounters q s)
      ∧ Allowed k s (actClearCounters q s) ∧ Allowed k s (actReadRule q s) ∧ Allowed k s (actReadSet q s)
      ∧ Allowed k s (actReadShadow q s) ∧ Allowed k s (actReadParameters q s) ∧ Allowed k s (actReadIdentity q s)
      ∧ Allowed k s (actStoreTables q s) ∧ Allowed k s (actImageOpen q s) ∧ Allowed k s (actImageBlock q s)
      ∧ Allowed k s (actImageClose q s) ∧ Allowed k s (actImageDiscard q s) ∧ Allowed k s (actImageDrop q s)
      ∧ Allowed k s (actRestartEngine q s) ∧ Allowed k s (actSetNoticeMask q s) := by
  refine ⟨allowed_read _ _ _ _, allowed_ite (allowed_read _ _ _ _) (allowed_invalid _ _ _), ?_, ?_,
    allowed_ite (allowed_read _ _ _ _) (allowed_ite (allowed_read _ _ _ _) (allowed_invalid _ _ _)),
    allowed_ite (allowed_read _ _ _ _) (allowed_invalid _ _ _),
    allowed_ite (allowed_read _ _ _ _) (allowed_invalid _ _ _), allowed_read _ _ _ _, allowed_read _ _ _ _,
    allowed_ite (allowed_answerRequest _ _ _ _ _) (allowed_join _ _ _),
    allowed_join _ _ _, allowed_join _ _ _, allowed_join _ _ _, allowed_join _ _ _, allowed_join _ _ _,
    allowed_done _ _ (allowed_withSegment _ _ _ (fun h => h)),
    allowed_ite (allowed_done _ _ (allowed_withMask _ _ _)) (allowed_invalid _ _ _)⟩
  · unfold actReadCounters
    dsimp only
    split
    · exact allowed_ite (allowed_read _ _ _ _) (allowed_invalid _ _ _)
    · exact allowed_ite (allowed_read _ _ _ _) (allowed_invalid _ _ _)
    · split
      · exact allowed_read _ _ _ _
      · exact allowed_invalid _ _ _
    · exact allowed_invalid _ _ _
  · unfold actClearCounters
    dsimp only
    split
    · exact allowed_ite (allowed_done _ _ (allowed_clearGlobal _ _)) (allowed_invalid _ _ _)
    · exact allowed_ite (allowed_done _ _ (allowed_mapSame _ _ clearNodeCounters (fun _ => rfl) _)) (allowed_invalid _ _ _)
    · refine allowed_ite (allowed_done _ _ ?_) (allowed_invalid _ _ _)
      exact allowed_ite (allowed_withCounters _ _ _) (allowed_withCounters _ _ _)
    · exact allowed_invalid _ _ _

theorem allowed_writes (q : Request) (s : State) :
    Allowed .editing s (actWriteRule q s) ∧ Allowed .editing s (actWriteDefault q s)
      ∧ Allowed .editing s (actWriteSet q s) ∧ Allowed .editing s (actWriteNode q s)
      ∧ Allowed .editing s (actWriteConfigRecord q s) ∧ Allowed .editing s (actWriteParameters q s) := by
  have he := fun t d => allowed_done (k := .editing) q d (allowed_withEdit s t)
  have hi := allowed_invalid .editing q s
  refine ⟨?_, ?_, ?_, ?_, ?_, he _ _⟩
  · unfold actWriteRule; dsimp only; (repeat' split) <;> first | exact hi | exact he _ _
  · unfold actWriteDefault; split <;> first | exact hi | exact he _ _
  · unfold actWriteSet; dsimp only; (repeat' split) <;> first | exact hi | exact he _ _
  · unfold actWriteNode; dsimp only; (repeat' split) <;> first | exact hi | exact he _ _
  · unfold actWriteConfigRecord; dsimp only; split <;> first | exact hi | exact he _ _

theorem allowed_actIsolateNode (k : Change) (q : Request) (s : State) : Allowed k s (actIsolateNode q s) := by
  unfold actIsolateNode
  split
  · exact allowed_invalid _ _ _
  · exact allowed_read _ _ _ _
  · exact allowed_done _ _ (.of_quiet k (enterIsolated_quiet _ _) (fun _ _ _ _ h => enterIsolated_within _ h))

theorem allowed_actRestoreNode (k : Change) (q : Request) (s : State) : Allowed k s (actRestoreNode q s) := by
  unfold actRestoreNode
  dsimp only
  split
  · exact allowed_invalid _ _ _
  · refine allowed_done _ _ (.of_quiet k (by simp) (fun _ _ _ _ h => ?_))
    have hf : ∀ r, (forgetBoot r).state = r.state := by intro r; unfold forgetBoot; split <;> rfl
    exact enterProbeOrSuspect_within _ (endSession_within _ (cancelStep_within _ (mapRuntime_within_same _ _ hf h)))

theorem allowed_actSetIdentity (k : Change) (q : Request) (s : State) : Allowed k s (actSetIdentity q s) := by
  unfold actSetIdentity
  dsimp only
  split
  · exact allowed_answerRequest k _ _ _ s
  · next hn _ =>
    refine allowed_ite (allowed_done _ _ ?_) (allowed_invalid _ _ _)
    exact ⟨rfl, rfl, fun x h => by simp [h] at hn, fun _ _ h => h, fun _ => ⟨rfl, rfl⟩, fun _ _ => rfl, fun _ => rfl,
      id, id, id, id, id, id⟩
  · exact allowed_invalid _ _ _

/-- Flags may be cleared. -/
def Change.clearing : Change := { flags := true }

theorem allowed_actClearFlags (q : Request) (s : State) : Allowed .clearing s (actClearFlags q s) := by
  unfold actClearFlags
  refine allowed_ite (allowed_done _ _ ?_) (allowed_invalid _ _ _)
  exact ⟨rfl, rfl, fun x h => h, nofun, fun _ => ⟨rfl, rfl⟩, fun _ _ => rfl, fun _ => rfl, id, id, id, id, id, id⟩

theorem allowed_enqueue (k : Change) (s : State) (i : Nat) (f : TrunkFrame) : Allowed k s (s.enqueue i f) :=
  allowed_withTrunk k s _ (by exact fun h => h)

theorem allowed_unknownRequest (k : Change) {s u : State} (h : unknownRequest s = some u) : Allowed k s u := by
  unfold unknownRequest at h
  split at h
  · next f i s1 ht =>
    split at h
    · split at h
      · cases h; exact (allowed_takeHead k ht).trans (allowed_enqueue k _ _ _)
      · split at h
        · cases h
        · cases h; exact (allowed_takeHead k ht).trans (allowed_answerRequest k _ _ _ _)
    · cases h
  · cases h

theorem allowed_nonRequestFrame (k : Change) {s u : State} (h : nonRequestFrame s = some u) : Allowed k s u := by
  unfold nonRequestFrame at h
  split at h
  · next f i s1 ht =>
    split at h
    · cases h
    · cases h; exact (allowed_takeHead k ht).trans (allowed_enqueue k _ _ _)
  · cases h

/-! ### The Classifier -/

theorem allowed_countMatch (k : Change) (r : RuleRef) (n : Nat) (s : State) : Allowed k s (countMatch r n s) := by
  unfold countMatch
  split
  · exact allowed_withCounters k s _
  · split
    · exact allowed_withCounters k s _
    · exact .refl k s

theorem allowed_answerPass (k : Change) (e : PassEntry) (c : AnswerCode) (b : List Byte) (s : State) :
    Allowed k s (answerPass e c b s) := allowed_enqueue k s _ _

theorem allowed_appendPass (k : Change) (e : PassEntry) (s : State) (h : s.passLength < 32) :
    Allowed k s (appendPass e s) := by
  unfold appendPass
  split <;> refine allowed_withSegment k s _ (fun _ => ?_) <;>
    unfold State.PassesSound State.passLength State.passInFlight State.transaction at * <;>
    simp only [State.withSegment_segment, List.length_append, List.length_singleton] <;> omega

theorem allowed_appendHold (k : Change) (a : Nat) (x : HeldFrame) (s : State) : Allowed k s (appendHold a x s).1 :=
  .of_quiet k (appendHold_quiet _ _ _) (fun _ _ _ _ h => appendHold_within _ _ h)

theorem allowed_captureLatest (k : Change) (a : Nat) (r : Option Nat) (c : CapturedFrame) (s : State) :
    Allowed k s (captureLatest a r c s).1 :=
  .of_quiet k (captureLatest_quiet _ _ _ _) (fun _ _ _ _ h => captureLatest_within _ _ _ h)

theorem allowed_disposeUnicast (k : Change) (e : PassEntry) (s : State) : Allowed k s (disposeUnicast e s) := by
  have h1 : Allowed k s (disposePass e s) := by
    unfold disposePass
    split
    · next h => exact allowed_appendPass k e s h
    · exact allowed_answerPass k e _ _ s
  have h2 : Allowed k s (disposeHold e s) := (allowed_appendHold k _ _ s).trans (allowed_answerPass k e _ _ _)
  have h3 : Allowed k s (disposeLatest e s) := (allowed_captureLatest k _ _ _ s).trans (allowed_answerPass k e _ _ _)
  unfold disposeUnicast
  (repeat' split) <;> first | assumption | exact allowed_answerPass k e _ _ s

theorem passLength_absent (l : List Nat) (e : PassEntry) (s : State) :
    (forNodes l (absentTreatment e) s).passLength ≤ s.passLength := by
  have hq : (forNodes l (absentTreatment e) s).quiet = s.quiet :=
    forNodes_quiet l _ (fun a s => absentTreatment_quiet s e a) s
  refine passLength_of (congrArg Quiet.line hq) ?_
  exact (forNodes_within (F := 0) (n := s.queued) (p := false) (q := false) l _
    (fun a _ h => absentTreatment_within e a h) ⟨by simp, Nat.le_refl _, nofun, nofun⟩).queued

theorem allowed_disposeBroadcast (k : Change) (e : PassEntry) (x : Option Nat) (s : State) :
    Allowed k s (disposeBroadcast e x s) := by
  unfold disposeBroadcast
  split
  · next h =>
    refine Allowed.trans (t := forNodes _ (absentTreatment e) s) ?_
      (allowed_appendPass k _ _ (Nat.lt_of_le_of_lt (passLength_absent _ e s) h))
    exact .of_quiet k (forNodes_quiet _ _ (fun a s => absentTreatment_quiet s e a) s)
      (fun _ _ _ _ h => forNodes_within _ _ (fun a _ h => absentTreatment_within e a h) h)
  · exact allowed_answerPass k e _ _ s

theorem allowed_segmentRequest (k : Change) {s u : State} (h : segmentRequest s = some u) : Allowed k s u := by
  unfold segmentRequest at h
  split at h
  · next f i s1 ht =>
    split at h
    · split at h
      · next q _ =>
        cases h
        refine (allowed_takeHead k ht).trans ?_
        unfold classifyRequest
        dsimp only
        refine (allowed_countMatch k (s1.tables.matched q).ref q.payload.length s1).trans ?_
        split
        · exact allowed_answerPass k _ _ _ _
        · split
          · exact allowed_disposeBroadcast k _ _ _
          · exact allowed_disposeUnicast k _ _
      · cases h; exact (allowed_takeHead k ht).trans (allowed_enqueue k _ _ _)
    · cases h
  · cases h


/-! ### The Segment Master -/

theorem passesSound_of {s t : State} (h : t.queued + t.passInFlight ≤ s.queued + s.passInFlight) :
    s.PassesSound → t.PassesSound := by
  unfold State.PassesSound State.passLength
  unfold State.queued at h
  omega

theorem passInFlight_le (s : State) : s.passInFlight ≤ 1 := by unfold State.passInFlight; split <;> omega

theorem passInFlight_of {s t : State} (h : t.segment.line = s.segment.line) : t.passInFlight = s.passInFlight := by
  unfold State.passInFlight State.transaction; rw [h]

theorem passInFlight_some {s : State} {t : Transaction} (h : s.segment.line.transaction = some t) :
    s.passInFlight = match t.carries with | .pass _ => 1 | .step _ => 0 := by
  unfold State.passInFlight State.transaction
  rw [h]
  cases t with
  | mk c _ _ _ _ => cases c <;> rfl

theorem passInFlight_none {s : State} (h : s.segment.line.transaction = none) : s.passInFlight = 0 := by
  unfold State.passInFlight State.transaction; rw [h]

/-- A change of the line to one that carries no pass entry more than before. -/
theorem allowed_setLine (k : Change) (s : State) (l : Line) (h : (s.setLine l).passInFlight ≤ s.passInFlight) :
    Allowed k s (s.setLine l) :=
  allowed_withSegment k s _ (passesSound_of (t := s.setLine l) (Nat.add_le_add_left h _))

theorem line_of_quiet {s t : State} (h : t.quiet = s.quiet) : t.segment.line = s.segment.line := congrArg Quiet.line h

theorem allowed_countStep (k : Change) (a : Nat) (s : State) :
    Allowed k s (countStep a s) ∧ (countStep a s).segment.line = s.segment.line := by
  unfold countStep
  dsimp only
  constructor
  · refine allowed_withSegment k s _ (passesSound_of ?_)
    have hl : ∀ x : SegmentMaster, x.line = s.segment.line → (s.withSegment x).passInFlight = s.passInFlight :=
      fun x hx => passInFlight_of hx
    unfold State.queued
    simp only [State.withSegment_segment]
    rw [hl]
    · (repeat' split) <;> simp
    · (repeat' split) <;> rfl
  · simp only [State.withSegment_segment]
    (repeat' split) <;> rfl

theorem allowed_sendFrame_pass (k : Change) (e : PassEntry) (x : SegmentMaster) (s : State)
    (hl : s.segment.line.transaction = none)
    (hx : x.urgent.length + x.normal.length + 1 = s.segment.urgent.length + s.segment.normal.length)
    (_ : x.line = s.segment.line) : Allowed k s (startPass e (s.withSegment x)) := by
  have h1 := passInFlight_none hl
  unfold startPass sendFrame
  refine allowed_withSegment k s _ (passesSound_of ?_)
  refine Nat.le_trans (Nat.add_le_add_left (passInFlight_le _) _) ?_
  show x.urgent.length + x.normal.length + 1 ≤ s.segment.urgent.length + s.segment.normal.length + s.passInFlight
  omega

theorem allowed_sendFrame_step (k : Change) (a : Nat) (f : SegmentFrame) (b : Bool) (s : State) :
    Allowed k s (sendFrame (.step a) f b s) :=
  allowed_withSegment k s _ (passesSound_of (by
    have : (s.withSegment { s.segment with line := .sending { carries := .step a, destination := f.destination, kind := f.kind, timeout := none, destinationKept := b } f.wire }).passInFlight = 0 := rfl
    rw [this]; exact Nat.le_add_right _ _))

theorem allowed_startStep (k : Change) (a : Nat) (s : State) : Allowed k s (startStep a s) := by
  unfold startStep
  split
  · exact .refl k s
  · next kk f _ =>
    dsimp only
    refine .trans (.of_quiet k (beginStep_quiet s a kk) (fun _ _ _ _ h => beginStep_within a kk h)) ?_
    refine .trans (allowed_countStep k a _).1 ?_
    refine .trans (allowed_mapSame k a (fun r => { r with step := .inFlight kk }) (fun _ => rfl) _) ?_
    exact allowed_sendFrame_step k a f true _

theorem allowed_transactionStart (k : Change) {s u : State} (h : transactionStart s = some u) : Allowed k s u := by
  unfold transactionStart at h
  split at h
  · next hc =>
    have ht : s.segment.line.transaction = none := by rw [hc.1]; rfl
    have hstep : ∀ p, p = s.pick → startPicked p s = some u → Allowed k s u := by
      intro p hp h
      unfold startPicked at h
      split at h
      · next e rest =>
        cases h
        have : s.segment.urgent = e :: rest := by
          unfold State.pick State.pickBelowUrgent at hp; (repeat' split at hp) <;> simp_all
        exact allowed_sendFrame_pass k e _ s ht (by simp [this]; omega) rfl
      · next e rest =>
        cases h
        have : s.segment.normal = e :: rest := by
          unfold State.pick State.pickBelowUrgent at hp; (repeat' split at hp) <;> simp_all
        exact allowed_sendFrame_pass k e _ s ht (by simp [this]; omega) rfl
      · cases h; exact allowed_startStep k _ s
      · cases h
    exact hstep _ rfl h
  · cases h

theorem passInFlight_setLine (s : State) (l : Line) (h : l.transaction = none) : (s.setLine l).passInFlight = 0 :=
  passInFlight_none h

theorem Within_weaken {F : BitVec 10} {n m : Nat} {p q : Bool} {s : State} (h : s.Within F n p q) (hm : n ≤ m) :
    s.Within F m p q := ⟨h.flags, Nat.le_trans h.queued hm, h.named, h.members⟩

@[simp] theorem reenter_quiet (e : PassEntry) (s : State) : (reenter e s).quiet = s.quiet := by
  unfold reenter; split <;> rfl

theorem reenter_within {F : BitVec 10} {n : Nat} {p q : Bool} {s : State} (e : PassEntry) (h : s.Within F n p q) :
    (reenter e s).Within F (n + 1) p q := by
  have := h.queued
  unfold reenter
  split <;> refine ⟨h.flags, ?_, h.named, h.members⟩ <;> unfold State.queued at * <;>
    simp only [State.withSegment_segment, List.length_cons] <;> omega

theorem passEnded_quiet (t : Transaction) (e : PassEntry) (res : Result) (s : State) :
    (passEnded t e res s).quiet = s.quiet := by
  unfold passEnded passMiss
  repeat' (first | split | dsimp only | simp)

theorem passEnded_within {F : BitVec 10} {n : Nat} {p q : Bool} {s : State} (t : Transaction) (e : PassEntry)
    (res : Result) (h : s.Within F n p q) : (passEnded t e res s).Within F (n + 1) p q := by
  have hl : ∀ c x, (passLost x c s).Within F (n + 1) p q :=
    fun c x => Within_weaken (passLost_within x c h) (Nat.le_succ n)
  have hm : ∀ x : State, (x = passMiss e s) → x.Within F (n + 1) p q := by
    intro x hx
    unfold passMiss at hx
    dsimp only at hx
    split at hx
    · split at hx
      · rw [hx]; exact reenter_within _ h
      · rw [hx]; exact hl _ _
    · split at hx
      · rw [hx]; exact reenter_within _ h
      · rw [hx]; exact hl _ _
    · rw [hx]; exact hl _ _
    · rw [hx]; exact hl _ _
  unfold passEnded
  split
  · exact Within_weaken (passDone_within _ _ _ h) (Nat.le_succ n)
  · exact hm _ rfl
  · exact hm _ rfl

theorem broadcastEnded_quiet (e : PassEntry) (s : State) : (broadcastEnded e s).quiet = s.quiet := by
  unfold broadcastEnded
  rw [forNodes_quiet _ _ (fun a s => broadcastMember_quiet s e a)]
  simp

theorem broadcastEnded_within {F : BitVec 10} {n : Nat} {p q : Bool} {s : State} (e : PassEntry)
    (h : s.Within F n p q) : (broadcastEnded e s).Within F n p q :=
  forNodes_within _ _ (fun a _ h => broadcastMember_within e a h) (answerPass_within e _ _ h)

/-- A change that leaves the quiet part but for the line. -/
theorem Allowed.of_line (k : Change) {s t : State} (l : Line) (hq : t.quiet = { s.quiet with line := l })
    (hp : s.PassesSound → t.PassesSound)
    (hw : ∀ F p q, s.Within F s.queued p q → ∃ n, t.Within F n p q) : Allowed k s t := by
  have hent : t.tables = s.tables := congrArg Quiet.tables hq
  have hres : t.gap.reserves = s.gap.reserves := congrArg Quiet.reserves hq
  have hcon : (fun a => (t.runtime a).isSome) = fun a => (s.runtime a).isSome := congrArg Quiet.configured hq
  refine ⟨congrArg Quiet.straps hq, congrArg Quiet.clock hq, ?_, ?_, fun _ => ⟨hent, congrArg Quiet.mode hq⟩,
    fun _ _ => congrArg Quiet.edit hq, fun _ => congrArg Quiet.blocks hq, ?_, ?_, hp, ?_, ?_, ?_⟩
  · intro x h; rw [← h]; exact congrArg Quiet.identity hq
  · intro _ F h
    obtain ⟨n, hn⟩ := hw F false false ⟨h, Nat.le_refl _, nofun, nofun⟩
    exact hn.flags
  · have : t.store.blocks = s.store.blocks := congrArg Quiet.blocks hq
    unfold State.BlocksSound ImageStore.wf; rw [this]; exact id
  · have : t.trunk.ingress = s.trunk.ingress := congrArg Quiet.ingress hq
    unfold State.IngressSound; rw [this]; exact id
  · unfold State.ReservesSound State.reserve State.entry; rw [hres, hent]; exact id
  · intro h
    refine ⟨fun a => ?_, ?_⟩
    · rw [congrFun hcon a, show t.entry a = s.entry a by unfold State.entry; rw [hent]]; exact h.1 a
    · obtain ⟨n, hn⟩ := hw 0 true false ⟨by simp, Nat.le_refl _, fun _ => h.2, nofun⟩
      exact hn.named rfl
  · intro h
    obtain ⟨n, hn⟩ := hw 0 false true ⟨by simp, Nat.le_refl _, nofun, fun _ => h⟩
    exact hn.members rfl

/-- The end of a transaction: the line carries nothing more, and a missed pass entry comes back at most once. -/
theorem allowed_transactionEnded (k : Change) (t : Transaction) (res : Result) (l : Line) (s : State)
    (hs : s.segment.line.transaction = some t) (hl : l.transaction = none) :
    Allowed k s (transactionEnded t res l s) := by
  have hset : Allowed k s (s.setLine l) :=
    allowed_setLine k s l (by rw [passInFlight_setLine s l hl]; exact Nat.zero_le _)
  have hflag : ∀ v : State, Allowed k v (if res = .badCheck then raiseFlag .segmentCheck v else v) :=
    fun v => allowed_ite (allowed_raiseFlag k v _) (.refl k v)
  have hfq : ∀ v : State, (if res = .badCheck then raiseFlag .segmentCheck v else v).quiet = v.quiet := by
    intro v; split <;> simp
  have hfw : ∀ (v : State) F n p q, v.Within F n p q →
      (if res = .badCheck then raiseFlag .segmentCheck v else v).Within F n p q := by
    intro v F n p q h; split <;> simp [h]
  unfold transactionEnded
  dsimp only
  split
  · next e he =>
    have hp : s.passInFlight = 1 := by
      unfold State.passInFlight State.transaction
      rw [hs]; cases t; simp_all
    have hw : ∀ F p q, s.Within F s.queued p q →
        (passEnded t e res (if res = .badCheck then raiseFlag .segmentCheck (s.setLine l) else s.setLine l)).Within
          F (s.queued + 1) p q := by
      intro F p q h
      exact passEnded_within t e res (hfw _ _ _ _ _ ⟨h.flags, h.queued, h.named, h.members⟩)
    have hq : (passEnded t e res
        (if res = .badCheck then raiseFlag .segmentCheck (s.setLine l) else s.setLine l)).quiet
          = { s.quiet with line := l } := by
      rw [passEnded_quiet, hfq]; rfl
    refine Allowed.of_line k l hq ?_ (fun F p q h => ⟨_, hw F p q h⟩)
    refine passesSound_of ?_
    have h1 := (hw 0 false false ⟨by simp, Nat.le_refl _, nofun, nofun⟩).queued
    have hfin : ∀ v : State, v.queued ≤ s.queued + 1 → v.segment.line = l →
        v.queued + v.passInFlight ≤ s.queued + s.passInFlight := by
      intro v h1 h2
      have : v.passInFlight = 0 := passInFlight_none (by rw [h2]; exact hl)
      omega
    exact hfin _ h1 (congrArg Quiet.line hq)
  · next a _ =>
    refine hset.trans ((hflag _).trans ?_)
    exact .of_quiet k (stepEnded_quiet _ _ _) (fun _ _ _ _ h => stepEnded_within _ _ h)


theorem allowed_segmentFrameSent (k : Change) {s u : State} (h : segmentFrameSent s = some u) : Allowed k s u := by
  unfold segmentFrameSent at h
  split at h
  · next t w hl =>
    split at h
    · next e he _ =>
      cases h
      have hset : Allowed k s (s.setLine .free) :=
        allowed_setLine k s _ (by rw [passInFlight_setLine s _ rfl]; exact Nat.zero_le _)
      exact hset.trans (.of_quiet k (broadcastEnded_quiet _ _) (fun _ _ _ _ h => broadcastEnded_within e h))
    · cases h
      refine allowed_setLine k s _ ?_
      rw [passInFlight_some (s := s) (t := t) (by rw [hl]; rfl),
        passInFlight_some (s := s.setLine _) (t := { t with timeout := some s.params.replyTimeout }) rfl]
  · cases h

theorem allowed_emptyPasses (k : Change) (v : State) (x : SegmentMaster) (hl : x.line = v.segment.line)
    (hu : x.urgent = []) (hn : x.normal = []) : Allowed k v (v.withSegment x) := by
  refine allowed_withSegment k v _ (passesSound_of ?_)
  rw [passInFlight_of (s := v) (t := v.withSegment x) hl]
  unfold State.queued
  simp [hu, hn]

theorem allowed_replyStart (k : Change) {s u : State} (h : replyStart s = some u) : Allowed k s u := by
  unfold replyStart at h
  split at h
  · next t hl =>
    cases h
    exact allowed_setLine k s _ (by
      unfold State.passInFlight State.transaction
      simp [State.setLine, hl, Line.transaction])
  · cases h

theorem allowed_replyTimeout (k : Change) {s u : State} (h : replyTimeout s = some u) : Allowed k s u := by
  unfold replyTimeout at h
  split at h
  · next t hl => cases h; exact allowed_transactionEnded k t _ _ s (by rw [hl]; rfl) rfl
  · cases h

theorem allowed_replyReceived (k : Change) {c : List Byte} {s u : State} (h : replyReceived c s = some u) :
    Allowed k s u := by
  unfold replyReceived at h
  split at h
  · next t hl =>
    split at h
    · cases h; exact allowed_transactionEnded k t _ _ s (by rw [hl]; rfl) rfl
    · cases h
  · cases h

theorem allowed_replyCutShort (k : Change) {s u : State} (h : replyCutShort s = some u) : Allowed k s u := by
  unfold replyCutShort at h
  split at h
  · next t hl => cases h; exact allowed_transactionEnded k t _ _ s (by rw [hl]; rfl) rfl
  · cases h

theorem allowed_replyTooLong (k : Change) {b : Byte} {s u : State} (h : replyTooLong b s = some u) :
    Allowed k s u := by
  unfold replyTooLong at h
  split at h
  · exact allowed_replyCutShort k h
  · cases h

theorem allowed_settlingEnd (k : Change) {s u : State} (h : settlingEnd s = some u) : Allowed k s u := by
  unfold settlingEnd at h
  split at h
  · cases h; exact allowed_setLine k s _ (by rw [passInFlight_setLine s _ rfl]; exact Nat.zero_le _)
  · cases h

theorem allowed_foldl (k : Change) {α : Type} (f : State → α → State) (hf : ∀ s a, Allowed k s (f s a)) (l : List α)
    (s : State) : Allowed k s (l.foldl f s) := by
  induction l generalizing s with
  | nil => exact .refl k s
  | cons a l ih => exact (hf s a).trans (ih (f s a))

theorem allowed_forNodes (k : Change) (l : List Nat) (f : Nat → State → State) (hf : ∀ a s, Allowed k s (f a s))
    (s : State) : Allowed k s (forNodes l f s) := allowed_foldl k _ (fun s a => hf a s) l s

theorem allowed_engineRestartEffect (k : Change) {s u : State} (h : engineRestartEffect s = some u) :
    Allowed k s u := by
  unfold engineRestartEffect at h
  split at h
  · rw [← Option.some.inj h]
    refine .trans ?_ (allowed_forNodes k _ _ (fun a s => .of_quiet k (discardQueue_quiet s a)
      (fun _ _ _ _ h => discardQueue_within a h)) _)
    refine .trans ?_ (allowed_forNodes k _ _ (fun a s => .of_quiet k (restartNode_quiet s a)
      (fun _ _ _ _ h => restartNode_within a h)) _)
    refine .trans ?_ (.of_quiet k (clearWaiting_quiet _) (fun _ _ _ _ h => clearWaiting_within h))
    unfold restartPasses
    have h1 := allowed_foldl k (fun t e => answerPass e .restarted [] t) (fun s e => allowed_answerPass k e _ _ s)
      (s.segment.urgent ++ s.segment.normal) s
    generalize (s.segment.urgent ++ s.segment.normal).foldl (fun t e => answerPass e .restarted [] t) s = v at h1 ⊢
    exact h1.trans (allowed_emptyPasses k v _ rfl rfl rfl)
  · cases h

/-! ### Timers -/

theorem allowed_nextProbeTime (k : Change) {a : Nat} {s u : State} (h : nextProbeTime a s = some u) :
    Allowed k s u := by
  unfold nextProbeTime at h
  repeat' split at h
  all_goals first | contradiction | (cases h; exact .of_quiet k (offerKind_quiet _ _ _) (fun _ _ _ _ h => offerKind_within _ _ h))

theorem allowed_bootWindowClose (k : Change) {a : Nat} {s u : State} (h : bootWindowClose a s = some u) :
    Allowed k s u := by
  unfold bootWindowClose at h
  repeat' split at h
  all_goals first | contradiction | (cases h; exact .of_quiet k (enterMissing_quiet _ _) (fun _ _ _ _ h => enterMissing_within _ h))

theorem allowed_busyPollTime (k : Change) {a : Nat} {s u : State} (h : busyPollTime a s = some u) :
    Allowed k s u := by
  unfold busyPollTime at h
  repeat' split at h
  all_goals first
    | contradiction
    | (cases h; exact .of_quiet k (by simp) (fun _ _ _ _ h => offerKind_within _ _ (mapSession_within _ _ h)))

theorem allowed_holdExpiry (k : Change) {a i : Nat} {s u : State} (h : holdExpiry a i s = some u) :
    Allowed k s u := by
  unfold holdExpiry at h
  repeat' split at h
  all_goals first
    | contradiction
    | (cases h; exact .of_quiet k (expireEntry_quiet _ _ _ _) (fun _ _ _ _ h => expireEntry_within _ _ _ h))


/-! ### The Gap Monitor -/

theorem reserve_setReserve (s : State) (a b : Nat) (r : Option Reserve) :
    (s.setReserve a r).reserve b = if a = b ∧ isAddress a = true then r else s.reserve b := by
  unfold State.reserve State.setReserve
  simp only [State.withGap_gap, atNode_putNode]
  split <;> simp

theorem isAddress_of_reserve {s : State} {a : Nat} {r : Reserve} (h : s.reserve a = some r) : isAddress a = true := by
  unfold State.reserve atNode at h
  unfold isAddress
  split at h
  · simp at h
  · have : a - 1 < 30 := by
      by_contra hc
      rw [Vector.getElem?_eq_none (by omega)] at h
      simp at h
    simp; omega

/-- A reserve record is replaced by one whose estimate is in bounds. -/
theorem allowed_setReserve (k : Change) (s : State) (a : Nat) (r x : Reserve) (hr : s.reserve a = some r)
    (hx : s.ReservesSound → ∀ e, s.entry a = some e → x.estimate ≤ e.holdup) :
    Allowed k s (s.setReserve a (some x)) := by
  refine allowed_withGap k s _ rfl (fun h => h) (fun h => ?_)
  have hres : ∀ b, (s.setReserve a (some x)).reserve b = if a = b then some x else s.reserve b := by
    intro b
    rw [reserve_setReserve, isAddress_of_reserve hr]
    simp
  refine ⟨fun b => ?_, fun b y e hy he => ?_⟩
  · show ((s.setReserve a (some x)).reserve b).isSome = (s.entry b).isSome
    rw [hres, ← h.1 b]
    split
    · next hab => subst hab; rw [hr]; rfl
    · rfl
  · have hy' : (s.setReserve a (some x)).reserve b = some y := hy
    rw [hres] at hy'
    split at hy'
    · next hab => subst hab; cases hy'; exact hx h e he
    · exact h.2 b y e hy' he

theorem allowed_rechargeNode (k : Change) (t : Time) (a : Nat) (s : State) : Allowed k s (rechargeNode t a s) := by
  unfold rechargeNode
  split
  · next r e hr he =>
    refine allowed_setReserve k s a r _ hr (fun _ e' he' => ?_)
    rw [he] at he'
    cases he'
    exact Nat.min_le_left _ _
  · exact .refl k s

theorem estimateAfter_le (c : GapClass) (e d : Nat) : estimateAfter c (gapX e d) ≤ e := by
  unfold estimateAfter gapX
  split <;> omega

theorem allowed_settleReserve (k : Change) (d a : Nat) (s : State) : Allowed k s (settleReserve d a s) := by
  unfold settleReserve
  split
  · next r hr =>
    exact allowed_setReserve k s a r _ hr
      (fun h e he => Nat.le_trans (estimateAfter_le _ _ _) (h.2 a r e hr he))
  · exact .refl k s

theorem allowed_setOrigin (k : Change) (t : Time) (a : Nat) (s : State) : Allowed k s (setOrigin t a s) := by
  unfold setOrigin
  split
  · next r hr => exact allowed_setReserve k s a r _ hr (fun h e he => h.2 a r e hr he)
  · exact .refl k s

theorem allowed_gapFields (k : Change) (s : State) (x : GapMonitor) (hc : x.clock = s.gap.clock)
    (hm : s.GapSetSound → x.gapSet.Nodup) (hr : x.reserves = s.gap.reserves) : Allowed k s (s.withGap x) :=
  allowed_withGap k s x hc hm (by unfold State.ReservesSound State.reserve; simp [hr]; exact fun a b => ⟨a, b⟩)

theorem allowed_confirmGapStart (k : Change) (t : Time) (s : State) : Allowed k s (confirmGapStart t s) := by
  unfold confirmGapStart
  dsimp only
  refine .trans ?_ (.of_quiet k (offerGap_quiet _ _ _ _ _ _ _) (fun _ _ _ _ h => offerGap_within _ _ _ _ _ _ h))
  refine .trans ?_ (.of_quiet k (returnPasses_quiet _ _) (fun _ _ _ _ h => returnPasses_within _ h))
  refine .trans ?_ (allowed_forNodes k _ _ (fun a s => .of_quiet k (suspendMember_quiet s a)
    (fun _ _ _ _ h => suspendMember_within a h)) _)
  refine .trans ?_ (allowed_forNodes k _ _ (fun a s => allowed_rechargeNode k t a s) _)
  exact allowed_gapFields k s
    { s.gap with condition := .inGap t, aged := false, gapSet := addresses.filter s.isFed } rfl
    (fun _ => addresses_nodup.filter _) rfl

theorem allowed_confirmGapEnd (k : Change) (t e : Time) (s : State) : Allowed k s (confirmGapEnd t e s) := by
  unfold confirmGapEnd
  dsimp only
  refine .trans ?_ (allowed_gapFields k _ _ rfl (fun _ => List.nodup_nil) rfl)
  refine .trans ?_ (.of_quiet k (offerGap_quiet _ _ _ _ _ _ _) (fun _ _ _ _ h => offerGap_within _ _ _ _ _ _ h))
  refine .trans ?_ (allowed_foldl k _ (fun s p => .of_quiet k (memberAtGapEnd_quiet s _ _ _)
    (fun _ _ _ _ h => memberAtGapEnd_within _ _ _ h)) _ _)
  refine .trans ?_ (allowed_forNodes k _ _ (fun a s => allowed_setOrigin k e a s) _)
  refine .trans ?_ (allowed_forNodes k _ _ (fun a s => allowed_settleReserve k _ a s) _)
  exact allowed_gapFields k s _ rfl (fun h => h) rfl

theorem allowed_setCondition (k : Change) (s : State) (c : GapCondition) : Allowed k s (s.setCondition c) :=
  allowed_gapFields k s _ rfl (fun h => h) rfl

theorem allowed_gapHigh (k : Change) (s : State) (b : Bool) : Allowed k s (s.withGap { s.gap with gapHigh := b }) :=
  allowed_gapFields k s _ rfl (fun h => h) rfl

theorem allowed_gapEdgeAbsent (k : Change) {s u : State} (h : gapEdgeAbsent s = some u) : Allowed k s u := by
  unfold gapEdgeAbsent at h
  split at h
  · cases h
  · dsimp only at h
    split at h
    · split at h
      · rw [← Option.some.inj h]; exact (allowed_gapHigh k s _).trans (allowed_confirmGapStart k _ _)
      · rw [← Option.some.inj h]; exact (allowed_gapHigh k s _).trans (allowed_setCondition k _ _)
    · rw [← Option.some.inj h]
      exact (allowed_gapHigh k s _).trans ((allowed_setCondition k _ _).trans (allowed_raiseFlag k _ _))
    · rw [← Option.some.inj h]; exact allowed_gapHigh k s _

theorem allowed_gapEdgePresent (k : Change) {s u : State} (h : gapEdgePresent s = some u) : Allowed k s u := by
  unfold gapEdgePresent at h
  split at h
  · dsimp only at h
    split at h
    · split at h
      · rw [← Option.some.inj h]; exact (allowed_gapHigh k s _).trans (allowed_confirmGapEnd k _ _ _)
      · rw [← Option.some.inj h]; exact (allowed_gapHigh k s _).trans (allowed_setCondition k _ _)
    · rw [← Option.some.inj h]
      exact (allowed_gapHigh k s _).trans ((allowed_setCondition k _ _).trans (allowed_raiseFlag k _ _))
    · rw [← Option.some.inj h]; exact allowed_gapHigh k s _
  · cases h

theorem allowed_gapStart (k : Change) {s u : State} (h : gapStart s = some u) : Allowed k s u := by
  unfold gapStart at h
  split at h
  · split at h
    · rw [← Option.some.inj h]; exact allowed_confirmGapStart k _ s
    · cases h
  · cases h

theorem allowed_gapEnd (k : Change) {s u : State} (h : gapEnd s = some u) : Allowed k s u := by
  unfold gapEnd at h
  split at h
  · split at h
    · rw [← Option.some.inj h]; exact allowed_confirmGapEnd k _ _ s
    · cases h
  · cases h

theorem allowed_gapAgedExpiry (k : Change) {s u : State} (h : gapAgedExpiry s = some u) : Allowed k s u := by
  unfold gapAgedExpiry at h
  split at h
  · split at h
    · rw [← Option.some.inj h]; exact allowed_gapFields k s _ rfl (fun h => h) rfl
    · cases h
  · cases h

theorem allowed_originAgedExpiry (k : Change) {a : Nat} {s u : State} (h : originAgedExpiry a s = some u) :
    Allowed k s u := by
  unfold originAgedExpiry at h
  split at h
  · next r hr =>
    split at h
    · rw [← Option.some.inj h]; exact allowed_setReserve k s a r _ hr (fun h e he => h.2 a r e hr he)
    · cases h
  · cases h

/-! ### The Image Store -/

theorem allowed_chooseAccess (k : Change) (s : State) : Allowed k s (chooseAccess s) :=
  .of_quiet k (chooseAccess_quiet s) (fun _ _ _ _ h => chooseAccess_within h)

theorem allowed_finishOperation (k : Change) (c : AnswerCode) (b : List Byte) (s : State) :
    Allowed k s (finishOperation c b s) :=
  .of_quiet k (finishOperation_quiet s c b) (fun _ _ _ _ h => finishOperation_within c b h)

theorem allowed_endAccess (k : Change) (s : State) : Allowed k s (endAccess s) := allowed_withStore k s _ rfl

theorem allowed_setProgress (k : Change) (x : Progress) (s : State) : Allowed k s (setProgress x s) :=
  allowed_withStore k s _ rfl

theorem allowed_setPlace (k : Change) (s : State) (i : Nat) (x : Option CatalogueEntry) : Allowed k s (s.setPlace i x) :=
  allowed_withStore k s _ rfl

theorem allowed_openStaged (k : Change) (a : Byte) (v : Word16) (n : Nat) (c : Word32) (s : State) :
    Allowed k s (openStaged a v n c s) := by
  unfold openStaged
  split
  · exact allowed_finishOperation k _ _ s
  · exact .trans (allowed_withStore k s _ (by rfl)) (allowed_finishOperation k _ _ _)

theorem allowed_beginOperation (k : Change) (o : OperationKind) (s : State) : Allowed k s (beginOperation o s) := by
  have hf := fun c b => allowed_finishOperation k c b s
  unfold beginOperation startLoading
  split
  · split
    · exact hf _ _
    · unfold startOpen
      (repeat' split) <;> first | exact hf _ _ | exact allowed_openStaged k _ _ _ _ s | exact allowed_setProgress k _ s
  · split
    · exact hf _ _
    · unfold startBlock
      (repeat' split) <;> first | exact hf _ _ | exact allowed_setProgress k _ s
  · split
    · exact hf _ _
    · unfold startClose
      (repeat' split) <;> first | exact hf _ _ | exact allowed_setProgress k _ s
  · split
    · exact hf _ _
    · unfold startDiscard
      split
      · exact hf _ _
      · exact .trans (allowed_withStore k s _ (by rfl)) (allowed_finishOperation k _ _ _)
  · split
    · exact hf _ _
    · unfold startDrop
      (repeat' split) <;>
        first | exact hf _ _ | exact (allowed_setPlace k s _ _).trans (allowed_setProgress k _ _)
  · exact allowed_setProgress k _ s
  · exact allowed_setProgress k _ s

theorem allowed_operationStart (k : Change) {s u : State} (h : operationStart s = some u) : Allowed k s u := by
  unfold operationStart at h
  split at h
  · rw [← Option.some.inj h]; exact (allowed_beginOperation k _ s).trans (allowed_chooseAccess k _)
  · cases h

/-- The array may change. -/
def Change.programming : Change := { blocks := true }

theorem allowed_writeStoreBlock (s : State) (i : Nat) (b : StoreBlock) :
    Allowed .programming s (s.writeStoreBlock i b) :=
  ⟨rfl, rfl, fun _ h => h, fun _ _ h => h, fun _ => ⟨rfl, rfl⟩, fun _ _ => rfl, nofun,
    fun h => (writeBlock_canonical _ i b h).1, id, id, id, id, id⟩

theorem allowed_raiseIf (k : Change) (c : Prop) [Decidable c] (f : Flag) (s : State) :
    Allowed k s (if c then raiseFlag f s else s) := allowed_ite (allowed_raiseFlag k s f) (.refl k s)

theorem allowed_programEnded (k : Change) (b : Bool) (i : Nat) (s : State) : Allowed k s (programEnded b i s) := by
  unfold programEnded
  split
  · exact allowed_finishOperation _ _ _ _
  · split
    · exact allowed_finishOperation _ _ _ _
    · exact .trans (allowed_withStore _ _ _ (by rfl)) (allowed_finishOperation _ _ _ _)

theorem allowed_blockProgramEnd {b : Bool} {s u : State} (h : blockProgramEnd b s = some u) :
    Allowed .programming s u := by
  unfold blockProgramEnd at h
  split at h
  · rw [← Option.some.inj h]
    refine .trans ?_ (allowed_chooseAccess _ _)
    refine .trans ?_ (allowed_programEnded _ _ _ _)
    refine .trans (allowed_endAccess _ s) ?_
    exact allowed_ite (allowed_raiseFlag _ _ _) (allowed_writeStoreBlock _ _ _)
  · cases h

theorem allowed_commit (k : Change) (x : StagedImage) (i : Nat) (o : Option CatalogueEntry) (s : State) :
    Allowed k s (commit x i o s) := by
  unfold commit
  exact .trans (allowed_setPlace k s _ _) (.trans (allowed_withStore k _ _ (by rfl)) (allowed_setProgress k _ _))

theorem allowed_closeMatched (k : Change) (x : StagedImage) (s : State) : Allowed k s (closeMatched x s) := by
  unfold closeMatched
  (repeat' split) <;> first | exact allowed_finishOperation k _ _ s | exact allowed_commit k _ _ _ s

theorem allowed_checkReadFailed (k : Change) (x : StagedImage) (i : Nat) (s : State) :
    Allowed k s (checkReadFailed x i s) := by
  unfold checkReadFailed
  exact .trans (allowed_withStore _ _ _ (by rfl)) (allowed_finishOperation _ _ _ _)

theorem allowed_checkReadGood (k : Change) (x : StagedImage) (i : Nat) (v : Nat × Nat) (b : StoreBlock) (s : State) :
    Allowed k s (checkReadGood x i v b s) := by
  unfold checkReadGood
  dsimp only
  split
  · exact allowed_setProgress _ _ _
  · split
    · exact allowed_closeMatched _ _ _
    · exact allowed_finishOperation _ _ _ _

theorem allowed_checkReadEnd (k : Change) {b : Bool} {s u : State} (h : checkReadEnd b s = some u) : Allowed k s u := by
  unfold checkReadEnd at h
  split at h
  · next x i sums _ _ =>
    rw [← Option.some.inj h]
    refine .trans ?_ (allowed_chooseAccess _ _)
    have key : ∀ (v : State) (c : Prop) [Decidable c] (d : StoreBlock), Allowed k v
        (if v.store.cut then finishOperation .mode [] v
          else if c then checkReadFailed x i v else checkReadGood x i sums d v) := by
      intro v c _ d
      exact allowed_ite (allowed_finishOperation _ _ _ _)
        (allowed_ite (allowed_checkReadFailed _ _ _ _) (allowed_checkReadGood _ _ _ _ _ _))
    exact .trans (.trans (allowed_endAccess _ s) (allowed_raiseIf _ _ _ _)) (key _ _ _)
  · cases h

theorem setCopy_blocks (m : ImageStore) (p : CopyPlace) (c : Option DirectoryCopy) : (m.setCopy p c).blocks = m.blocks := by
  cases p <;> rfl

theorem allowed_directoryWritten (k : Change) (b : Bool) (s : State) : Allowed k s (directoryWritten b s) := by
  unfold directoryWritten
  dsimp only
  split
  · exact .trans (allowed_withStore _ _ _ (by exact setCopy_blocks _ _ _)) (allowed_raiseFlag _ _ _)
  · exact allowed_withStore _ _ _ (by exact setCopy_blocks _ _ _)

theorem allowed_directoryWriteAnswered (k : Change) (b : Bool) (x : Progress) (s : State) :
    Allowed k s (directoryWriteAnswered b x s) := by
  unfold directoryWriteAnswered
  (repeat' split) <;> first
    | exact allowed_finishOperation _ _ _ _
    | exact allowed_openStaged _ _ _ _ _ _
    | exact .trans (allowed_setPlace _ _ _ _) (allowed_finishOperation _ _ _ _)

theorem allowed_directoryWriteEnd (k : Change) {b : Bool} {s u : State} (h : directoryWriteEnd b s = some u) :
    Allowed k s u := by
  unfold directoryWriteEnd at h
  split at h
  · split at h
    · rw [← Option.some.inj h]
      refine .trans ?_ (allowed_chooseAccess _ _)
      refine .trans ?_ (allowed_directoryWriteAnswered _ _ _ _)
      exact .trans (allowed_endAccess _ s) (allowed_directoryWritten _ _ _)
    · cases h
  · cases h

theorem allowed_tableWriteEnd (k : Change) {b : Bool} {s u : State} (h : tableWriteEnd b s = some u) :
    Allowed k s u := by
  unfold tableWriteEnd at h
  split at h
  · rw [← Option.some.inj h]
    refine .trans (allowed_endAccess _ s) (.trans ?_ (allowed_chooseAccess _ _))
    refine allowed_ite ?_ ?_
    · exact .trans (allowed_withStored _ _ _) (.trans (allowed_raiseFlag _ _ _) (allowed_finishOperation _ _ _ _))
    · exact .trans (allowed_withStored _ _ _) (allowed_finishOperation _ _ _ _)
  · cases h

theorem allowed_storeReadEnd (k : Change) {b : Bool} {s u : State} (h : storeReadEnd b s = some u) :
    Allowed k s u := by
  unfold storeReadEnd at h
  split at h
  · rw [← Option.some.inj h]
    refine .trans ?_ (allowed_chooseAccess _ _)
    have h1 : Allowed k s (stopCutClose (endAccess s)) := .trans (allowed_endAccess _ s)
      (.of_quiet _ (stopCutClose_quiet _) (fun _ _ _ _ h => stopCutClose_within h))
    split
    · exact h1.trans (.of_quiet _ (readFailed_quiet _ _) (fun _ _ _ _ h => readFailed_within _ h))
    · exact h1.trans (.of_quiet _ (readGood_quiet _ _ _) (fun _ _ _ _ h => readGood_within _ _ h))
  · cases h

theorem allowed_withinStore {k : Change} {f : State → Option State} {s t : State} (h : withinStore f s = .next t)
    (hf : ∀ u, f s = some u → Allowed k s u) : Allowed k s t := by
  unfold withinStore at h
  split at h
  · cases h; exact .refl k s
  · next u hu _ => cases h; exact (hf u hu).trans (allowed_endCommand k u)
  · next u b hu _ =>
    split at h
    · cases h; exact (hf u hu).trans (allowed_endCommand k u)
    · cases h

end Sys2Proof.Machine
end

