-- ==== Sys2Proof/Laws/PerInstr.lean ====
section
/-! SUPPORT. One law per command, as syntax: commands are named, and no word of the table spells one. -/

namespace Sys2Proof.Laws

/-- No word spells the command: the table gives no row any bits (log entry 28). -/
def Named.Statement (i : Instr) : Prop := ∀ nbits w : Nat, decodeTableWord nbits w ≠ some i

theorem Named.powerOn (straps : Straps) (gapHigh : Bool) : Named.Statement (.powerOn straps gapHigh) := fun _ _ h => nomatch h
theorem Named.reset (straps : Straps) (gapHigh : Bool) : Named.Statement (.reset straps gapHigh) := fun _ _ h => nomatch h
theorem Named.goodFrame (chars : List Byte) : Named.Statement (.goodFrame chars) := fun _ _ h => nomatch h
theorem Named.badFrame (chars : List Byte) : Named.Statement (.badFrame chars) := fun _ _ h => nomatch h
theorem Named.trunkCharacterGap (ender : Option Byte) : Named.Statement (.trunkCharacterGap ender) := fun _ _ h => nomatch h
theorem Named.trunkFrameSent : Named.Statement .trunkFrameSent := fun _ _ h => nomatch h
theorem Named.segmentRequest : Named.Statement .segmentRequest := fun _ _ h => nomatch h
theorem Named.unknownRequest : Named.Statement .unknownRequest := fun _ _ h => nomatch h
theorem Named.nonRequestFrame : Named.Statement .nonRequestFrame := fun _ _ h => nomatch h
theorem Named.readStatus : Named.Statement .readStatus := fun _ _ h => nomatch h
theorem Named.readNode : Named.Statement .readNode := fun _ _ h => nomatch h
theorem Named.readRule : Named.Statement .readRule := fun _ _ h => nomatch h
theorem Named.readSet : Named.Statement .readSet := fun _ _ h => nomatch h
theorem Named.readCounters : Named.Statement .readCounters := fun _ _ h => nomatch h
theorem Named.readShadow : Named.Statement .readShadow := fun _ _ h => nomatch h
theorem Named.readParameters : Named.Statement .readParameters := fun _ _ h => nomatch h
theorem Named.readIdentity : Named.Statement .readIdentity := fun _ _ h => nomatch h
theorem Named.clearCounters : Named.Statement .clearCounters := fun _ _ h => nomatch h
theorem Named.writeRule : Named.Statement .writeRule := fun _ _ h => nomatch h
theorem Named.writeDefault : Named.Statement .writeDefault := fun _ _ h => nomatch h
theorem Named.writeSet : Named.Statement .writeSet := fun _ _ h => nomatch h
theorem Named.writeNode : Named.Statement .writeNode := fun _ _ h => nomatch h
theorem Named.writeConfigRecord : Named.Statement .writeConfigRecord := fun _ _ h => nomatch h
theorem Named.writeParameters : Named.Statement .writeParameters := fun _ _ h => nomatch h
theorem Named.setMode : Named.Statement .setMode := fun _ _ h => nomatch h
theorem Named.storeTables : Named.Statement .storeTables := fun _ _ h => nomatch h
theorem Named.imageOpen : Named.Statement .imageOpen := fun _ _ h => nomatch h
theorem Named.imageBlock : Named.Statement .imageBlock := fun _ _ h => nomatch h
theorem Named.imageClose : Named.Statement .imageClose := fun _ _ h => nomatch h
theorem Named.imageDiscard : Named.Statement .imageDiscard := fun _ _ h => nomatch h
theorem Named.imageDrop : Named.Statement .imageDrop := fun _ _ h => nomatch h
theorem Named.isolateNode : Named.Statement .isolateNode := fun _ _ h => nomatch h
theorem Named.restoreNode : Named.Statement .restoreNode := fun _ _ h => nomatch h
theorem Named.restartEngine : Named.Statement .restartEngine := fun _ _ h => nomatch h
theorem Named.setIdentity : Named.Statement .setIdentity := fun _ _ h => nomatch h
theorem Named.clearFlags : Named.Statement .clearFlags := fun _ _ h => nomatch h
theorem Named.setNoticeMask : Named.Statement .setNoticeMask := fun _ _ h => nomatch h
theorem Named.engineRestartEffect : Named.Statement .engineRestartEffect := fun _ _ h => nomatch h
theorem Named.operationStart : Named.Statement .operationStart := fun _ _ h => nomatch h
theorem Named.blockProgramEnd (writeError : Bool) : Named.Statement (.blockProgramEnd writeError) := fun _ _ h => nomatch h
theorem Named.checkReadEnd (arrayFails : Bool) : Named.Statement (.checkReadEnd arrayFails) := fun _ _ h => nomatch h
theorem Named.directoryWriteEnd (writeError : Bool) : Named.Statement (.directoryWriteEnd writeError) := fun _ _ h => nomatch h
theorem Named.tableWriteEnd (writeError : Bool) : Named.Statement (.tableWriteEnd writeError) := fun _ _ h => nomatch h
theorem Named.storeReadEnd (arrayFails : Bool) : Named.Statement (.storeReadEnd arrayFails) := fun _ _ h => nomatch h
theorem Named.gapEdgeAbsent : Named.Statement .gapEdgeAbsent := fun _ _ h => nomatch h
theorem Named.gapEdgePresent : Named.Statement .gapEdgePresent := fun _ _ h => nomatch h
theorem Named.gapStart : Named.Statement .gapStart := fun _ _ h => nomatch h
theorem Named.gapEnd : Named.Statement .gapEnd := fun _ _ h => nomatch h
theorem Named.gapAgedExpiry : Named.Statement .gapAgedExpiry := fun _ _ h => nomatch h
theorem Named.originAgedExpiry (node : Nat) : Named.Statement (.originAgedExpiry node) := fun _ _ h => nomatch h
theorem Named.transactionStart : Named.Statement .transactionStart := fun _ _ h => nomatch h
theorem Named.segmentFrameSent : Named.Statement .segmentFrameSent := fun _ _ h => nomatch h
theorem Named.replyTimeout : Named.Statement .replyTimeout := fun _ _ h => nomatch h
theorem Named.replyReceived (chars : List Byte) : Named.Statement (.replyReceived chars) := fun _ _ h => nomatch h
theorem Named.replyCharacterGap : Named.Statement .replyCharacterGap := fun _ _ h => nomatch h
theorem Named.settlingEnd : Named.Statement .settlingEnd := fun _ _ h => nomatch h
theorem Named.nextProbeTime (node : Nat) : Named.Statement (.nextProbeTime node) := fun _ _ h => nomatch h
theorem Named.bootWindowClose (node : Nat) : Named.Statement (.bootWindowClose node) := fun _ _ h => nomatch h
theorem Named.busyPollTime (node : Nat) : Named.Statement (.busyPollTime node) := fun _ _ h => nomatch h
theorem Named.holdExpiry (node : Nat) (place : Nat) : Named.Statement (.holdExpiry node place) := fun _ _ h => nomatch h
theorem Named.replyStart : Named.Statement .replyStart := fun _ _ h => nomatch h
theorem Named.trunkFrameStart : Named.Statement .trunkFrameStart := fun _ _ h => nomatch h
theorem Named.replyLengthAbove64 (length : Byte) : Named.Statement (.replyLengthAbove64 length) := fun _ _ h => nomatch h

end Sys2Proof.Laws
end

