-- ==== Sys2Proof/Laws/Takes.lean ====
section
/-! SUPPORT. What a take finds: with a frame at the head of ingress and a FREE egress entry, the state that its meaning is
run on. -/

namespace Sys2Proof.Machine

theorem State.reserved_enqueue (s : State) (rest : List TrunkFrame) (i : Nat) (f : TrunkFrame) :
    (s.reserved rest i).enqueue i f = s.answered rest i f := by
  simp [State.reserved, State.enqueue, State.answered, State.withTrunk]

theorem State.Heads.take {s : State} {f : TrunkFrame} {rest : List TrunkFrame} {i : Nat} (h : s.Heads f rest i) :
    s.takeHead = some (f, i, s.reserved rest i) := by
  simp [State.takeHead, h.1, h.2]; rfl

theorem State.Asks.take {s : State} {k : RequestCode} {tag : Word16} {args : List Byte} {rest : List TrunkFrame} {i : Nat}
    (h : s.Asks k tag args rest i) (act : Request → State → State)
    (hm : depotOnly k = true → s.responder.mode = .depot)
    (hb : busyInRestart k = true → s.segment.restartPending = false) :
    takeRequest k act s =
      some (act { ref := { tag := tag, reservation := i, code := k.code }, args := args } (s.reserved rest i)) := by
  have h1 := h.1.take
  simp only [takeRequest, h1, managementRequestKind, judgeRequest]
  have e1 : (s.reserved rest i).responder = s.responder := rfl
  have e2 : (s.reserved rest i).segment = s.segment := rfl
  rw [e1, e2]
  have := h.2
  simp only [this]
  by_cases hd : depotOnly k = true
  · simp [hm hd]
    intro hb' ; simp [hb hb']
  · by_cases hbb : busyInRestart k = true
    · simp [hb hbb, hd]
    · simp [hd, hbb]

theorem State.HeadsRequest.take {s : State} {k : RequestCode} {tag : Word16} {o : Byte} {args : List Byte} {rest : List TrunkFrame} {i : Nat}
    (h : s.HeadsRequest k tag o args rest i) (act : Request → State → State) :
    takeRequest k act s =
      some (judgeRequest k act { tag := tag, reservation := i, code := k.code } o args (s.reserved rest i)) := by
  have h1 := State.Heads.take h
  simp only [takeRequest, h1, managementRequestKind]
  simp

end Sys2Proof.Machine
end

