-- ==== Sys2Proof/Tests/Slice0.lean ====
section
/-! SUPPORT. Small checks of single commands, with values from the manual's worked cases, and for every statement with
hypotheses a theorem that shows values which meet them, at the ends of their ranges. -/

open Sys2Proof Sys2Proof.Machine

namespace Sys2Proof.Tests

/-! ### Small states -/

/-- An ENTRANCE node on the train supply. -/
def fed : NodeEntry :=
  { cls := .entrance, supply := .fed, kind := 5, policy := .follow, holdup := 400, recharge := 4000, bootMin := 10
    bootMax := 200, holdCap := 2, holdLifetime := 10, shadowBase := 0, shadowCount := 2, config := [9] }

/-- An INFO node with a battery. -/
def cell : NodeEntry := { fed with cls := .info, supply := .battery, kind := 6, shadowBase := 2, shadowCount := 1 }

/-- A rule for node 1's commands, its action given. -/
def ruleWith (v : RuleVerdict) (slot : Option Nat) (p : AbsentPolicy) (u : Urgency) : Rule :=
  { set := some 0, onCommand := true, onQuery := false, onBroadcast := true, low := 0, high := 0xFF, selector := none
    action := { verdict := v, part := { slot := slot, absent := p, urgency := u, replay := .replay } } }

/-- Nodes 1 (FED) and 30 (BATTERY), set 0 of both, and rule 47. -/
def twoNodes (r : Rule) : Tables :=
  { Tables.empty with
    nodes := putNode (putNode Tables.empty.nodes 1 (some fed)) 30 (some cell)
    sets := Tables.empty.sets.setIfInBounds 0 [1, 30]
    rules := Tables.empty.rules.setIfInBounds 47 (some r) }

def plain : Tables := twoNodes (ruleWith .forward none .refuse .normal)

def record (st : NodeState) (k : StepCondition) : Runtime := { freshRuntime false with state := st, step := k }

/-- A bridge in SERVICE with these tables, node 1's record, and node 30 ONLINE. -/
def bridgeOf (t : Tables) (r : Runtime) : State :=
  { State.reset with
    tables := t
    responder := { State.reset.responder with mode := .service, edit := t, flags := 0 }
    restore :=
      { State.reset.restore with
        nodes := putNode (putNode State.reset.restore.nodes 1 (some r)) 30 (some (record .online .none)) }
    gap := startGap t true }

def bridge (r : Runtime) : State := bridgeOf plain r

def inDepot (s : State) : State := { s with responder := { s.responder with mode := .depot } }

/-- A frame alone in ingress. -/
def arrived (f : TrunkFrame) (s : State) : State := { s with trunk := { s.trunk with ingress := [f] } }

/-- A management request alone in ingress. -/
def asking (k : RequestCode) (args : List Byte) (s : State) : State :=
  arrived { kind := 0x02, tag := 7, outcome := 0, body := k.code :: args } s

/-- Every egress entry RESERVED but those listed. -/
def egressBut (free : List Nat) (s : State) : State :=
  { s with
    trunk :=
      { s.trunk with egress := Vector.ofFn (fun i : Fin 24 => if i.val ∈ free then EgressEntry.free else .reserved) } }

theorem asks (k : RequestCode) (args : List Byte) (s : State) (h : argumentsFit k args = true)
    (hs : s.freeEntry = some 0) : (asking k args s).Asks k 7 args [] 0 := ⟨⟨rfl, hs⟩, h⟩

def answersNext : Host.Outcome State Fault Refusal → Bool
  | .next _ => true
  | _ => false

theorem runs {o : Host.Outcome State Fault Refusal} (h : answersNext o = true) : ∃ t, o = .next t := by
  cases o with
  | next t => exact ⟨t, rfl⟩
  | fault r => cases h
  | refused r => cases h

/-- The state after a command. -/
def afterCommand (c : Instr) (s : State) : State :=
  match exec c s with
  | .next t => t
  | _ => s

theorem atNode_above {α : Type} (v : PerNode α) (a : Nat) (h : 30 < a) : atNode v a = none := by
  unfold atNode
  rw [if_neg (by omega)]
  exact Vector.getElem?_eq_none (by omega)

/-- Which nodes a state has need be seen for 0..30 only. -/
theorem forAllNodes {P : Nat → Prop} (h : ∀ a, a < 31 → P a) (g : ∀ a, 30 < a → P a) (a : Nat) : P a := by
  by_cases hc : a < 31
  · exact h a hc
  · exact g a (by omega)

/-! ### Frames and checks: the worked cases of chapter 1 -/

/-- Section 1.4's worked cases: a pass COMMAND to node 5, and the check of an ANSWER that wraps. -/
theorem test_segment_frames :
    (SegmentFrame.wire { destination := 5, kind := .command, function := 0x21, marker := 0, payload := [1] }
        = [0xA5, 0x05, 0x00, 0x10, 0x21, 0x00, 0x01, 0x01, 0xFA, 0x38])
      ∧ check16 [0x00, 0x05, 0x82, 0x21, 0x07, 0x02, 0xFF, 0xC8] = [0xC2, 0x7A] := by decide +kernel

/-- The ANSWER of the worked case is valid to a COMMAND for node 5, and not with its check characters exchanged. -/
theorem test_reply_check_order :
    ((collectReply [0, 5, 0x82, 0x21, 7, 2, 0xFF, 0xC8, 0xC2, 0x7A]).map (judgeReply .command 5)
        = some (.valid { kind := .answer, function := 0x21, marker := 7, payload := [0xFF, 0xC8] }))
      ∧ (collectReply [0, 5, 0x82, 0x21, 7, 2, 0xFF, 0xC8, 0x7A, 0xC2]).map (judgeReply .command 5)
        = some .badCheck := by decide +kernel

/-- The trunk request of the worked case, received, and its fields. -/
theorem test_trunk_request :
    receiveTrunk [0x01, 0x34, 0x12, 0x00, 0x04, 0x00, 0x05, 0x10, 0x21, 0x01, 0x10, 0x82]
        = .good { kind := 0x01, tag := 0x1234, outcome := 0, body := [0x05, 0x10, 0x21, 0x01] }
      ∧ parseSegmentRequest { kind := 0x01, tag := 0x1234, outcome := 0, body := [0x05, 0x10, 0x21, 0x01] }
        = some { tag := 0x1234, destination := 5, kind := .command, function := 0x21, payload := [0x01] } := by
  decide +kernel

/-- The two Fletcher-32 worked cases: a sum that wraps, and a one-block image of 11h. -/
theorem test_image_checks :
    fletcher32 [0xFF, 0xFF, 0xFE, 0xFF, 0x03, 0x00] = 0x00010002
      ∧ fletcher32 (List.replicate 128 0x11) = 0xAAAA4444 ∧ le32 0xAAAA4444 = [0x44, 0x44, 0xAA, 0xAA] := by
  decide +kernel

/-- A trunk length above 300 ends collecting at the second length character (R10). -/
theorem test_trunk_length_above_300 :
    receiveTrunk [0x01, 0, 0, 0, 0x2D, 0x01] = .bad ∧ receiveTrunk [0x01, 0, 0, 0, 0x2C, 0x01] = .unfinished := by
  decide +kernel

/-! ### Commands that are not well formed -/

/-- The check of WellFormed refuses each of these, and takes its neighbour. -/
theorem test_wellFormed_frames :
    Instr.wellFormed (.goodFrame [0x01, 0x34, 0x12, 0x00, 0x04, 0x00, 0x05, 0x10, 0x21, 0x01, 0x82, 0x10]) = false
      ∧ Instr.wellFormed (.goodFrame [0x01, 0x34, 0x12, 0x00, 0x04, 0x00, 0x05, 0x10, 0x21, 0x01, 0x10, 0x82]) = true
      ∧ Instr.wellFormed (.badFrame [0x01, 0x34, 0x12, 0x00, 0x04, 0x00, 0x05, 0x10, 0x21, 0x01, 0x10, 0x82]) = false
      ∧ Instr.wellFormed (.replyReceived [0, 5, 0x80, 0, 0, 0, 0x9A]) = false
      ∧ Instr.wellFormed (.replyLengthAbove64 64) = false ∧ Instr.wellFormed (.replyLengthAbove64 65) = true := by
  decide +kernel

theorem test_wellFormed_places :
    Instr.wellFormed (.nextProbeTime 0) = false ∧ Instr.wellFormed (.bootWindowClose 31) = false
      ∧ Instr.wellFormed (.originAgedExpiry 31) = false ∧ Instr.wellFormed (.busyPollTime 0) = false
      ∧ Instr.wellFormed (.holdExpiry 0 0) = false ∧ Instr.wellFormed (.holdExpiry 30 16) = false
      ∧ Instr.wellFormed (.holdExpiry 30 15) = true := by decide

/-- No word spells a command, so the queue stays as it is. -/
theorem test_no_word_spells_a_command :
    decodeTableWord 0 0 = none ∧ State.reset.withFetchWord 16 0xFFFF = State.reset := ⟨rfl, rfl⟩

/-! ### Witnesses: steps, invariants, what only some commands change -/

theorem witness_StepRunsFrontCommandOrIdles :
    ({ State.reset with pending := [.readStatus] } : State).pending = .readStatus :: [] ∧ State.reset.pending = [] :=
  ⟨rfl, rfl⟩

/-- A bridge with an edge of GAP waiting. -/
def stepping : State := { bridge (record .online .none) with pending := [.gapEdgeAbsent] }

theorem entry_above (s : State) (a : Nat) (h : 30 < a) : s.entry a = none := by
  simp [State.entry, Tables.node, atNode_above _ a h]

theorem runtime_above (s : State) (a : Nat) (h : 30 < a) : s.runtime a = none := by
  simp [State.runtime, atNode_above _ a h]

theorem reserve_above (s : State) (a : Nat) (h : 30 < a) : s.reserve a = none := by
  simp [State.reserve, atNode_above _ a h]

theorem queue_above (s : State) (a : Nat) (h : 30 < a) : s.queue a = [] := by
  simp [State.queue, atNode_above _ a h]

theorem witness_StepKeepsBlockArrayIngressAndPassQueueSound :
    (stepping.BlocksSound ∧ stepping.IngressSound ∧ stepping.PassesSound) ∧ ∃ t, step stepping = .next t :=
  ⟨⟨by unfold State.BlocksSound; decide +kernel, by unfold State.IngressSound; decide +kernel,
    by unfold State.PassesSound; decide +kernel⟩, runs (by decide +kernel)⟩

theorem witness_StepKeepsNodeRecordsAndGapSet :
    (stepping.ReservesSound ∧ stepping.RuntimesSound ∧ stepping.GapSetSound) ∧ ∃ t, step stepping = .next t := by
  refine ⟨⟨⟨forAllNodes (by decide +kernel) (fun a h => ?_), forAllNodes ?_ (fun a h r e hr => ?_)⟩,
    ⟨forAllNodes (by decide +kernel) (fun a h => ?_), forAllNodes ?_ (fun a h r hr => ?_)⟩,
    by unfold State.GapSetSound; decide +kernel⟩, runs (by decide +kernel)⟩
  · rw [reserve_above _ a h, entry_above _ a h]; rfl
  · have key : ∀ a, a < 31 → (match stepping.reserve a, stepping.entry a with
        | some r, some e => decide (r.estimate ≤ e.holdup)
        | _, _ => true) = true := by decide +kernel
    intro a ha r e hr he
    have := key a ha
    rw [hr, he] at this
    simpa using this
  · rw [reserve_above _ a h] at hr; cases hr
  · rw [runtime_above _ a h, entry_above _ a h]; rfl
  · have key : ∀ a, a < 31 → (match stepping.runtime a with
        | some r => decide (r.state ≠ .unconfigured)
        | none => true) = true := by decide +kernel
    intro a ha r hr
    have := key a ha
    rw [hr] at this
    simpa using this
  · rw [runtime_above _ a h] at hr; cases hr

/-- A bridge with a written identity and a set flag. -/
def named : State :=
  { State.reset with
    responder := { State.reset.responder with identity := some { car := 9999, position := 8, orientation := .b } } }

theorem witness_KeptStateChangesOnlyWhereNamed :
    (Instr.trunkFrameStart ≠ .clearFlags
        ∧ named.responder.identity = some { car := 9999, position := 8, orientation := .b }
        ∧ named.flagSet .tablesInvalid = true)
      ∧ isReset .trunkFrameStart = false ∧ Instr.trunkFrameStart ≠ .setMode ∧ Instr.trunkFrameStart ≠ .writeRule
      ∧ Instr.trunkFrameStart ≠ .writeDefault ∧ Instr.trunkFrameStart ≠ .writeSet ∧ Instr.trunkFrameStart ≠ .writeNode
      ∧ Instr.trunkFrameStart ≠ .writeConfigRecord ∧ Instr.trunkFrameStart ≠ .writeParameters
      ∧ (∀ b, Instr.trunkFrameStart ≠ .blockProgramEnd b) ∧ ∃ t, exec .trunkFrameStart named = .next t :=
  ⟨⟨nofun, rfl, by decide⟩, rfl, nofun, nofun, nofun, nofun, nofun, nofun, nofun, nofun, runs (by decide +kernel)⟩

/-! ### Witnesses: power-on and RESET -/

def low : Straps := State.reset.straps
def large : Straps := { low with storeSz := true }

/-- A bridge with a good stored copy of these tables. -/
def storedCopy (t : Tables) (s : State) : State := { s with stored := some { tables := t, check := tableCheck t } }

def kept (s : State) : State := storedCopy plain s

theorem plain_sound : plain.firstFault = none := by decide +kernel

theorem load_stored (t : Tables) (h : t.firstFault = none) : loadTables (storedCopy t State.reset).stored = some t := by
  simp [loadTables, storedCopy, StoredTables.good, h]

/-- The tables with debounce 0. -/
def unfiltered : Tables := { plain with params := { plain.params with debounce := 0 } }

/-- GAP present, and absent with a debounce and with debounce 0; a FED and a BATTERY node. -/
theorem witness_PowerOnAndResetStartEveryBlock :
    ((true : Bool) ≠ low.gapPol ∧ (false : Bool) = low.gapPol)
      ∧ loadTables (cutTables (kept State.reset)) = some plain ∧ plain.params.debounce ≠ 0
      ∧ loadTables (cutTables (storedCopy unfiltered State.reset)) = some unfiltered ∧ unfiltered.params.debounce = 0
      ∧ (unfiltered.node 1 = some fed ∧ fed.supply = .fed) ∧ (unfiltered.node 30 = some cell ∧ cell.supply = .battery)
      ∧ (Flag.trunkCheck ≠ .tablesInvalid ∧ Flag.trunkCheck ≠ .directoryInvalid) :=
  ⟨by decide, load_stored plain plain_sound, by decide, load_stored unfiltered (by decide +kernel), by decide,
    by decide +kernel, by decide +kernel, by decide⟩

/-- A table write is in progress. -/
def tableWriting (s : State) : State :=
  { s with
    store :=
      { s.store with
        access := some .operation, progress := some (.tableWriting plain)
        operations := [{ kind := .tableWrite, request := some { tag := 7, reservation := 23, code := 0x31 } }] } }

theorem witness_TableLoadDecidesMode :
    (∃ t, exec (.powerOn low true) (kept State.reset) = .next t)
      ∧ ((kept State.reset).stored = some { tables := plain, check := tableCheck plain }
          ∧ (kept State.reset).store.access = none ∧ plain.firstFault = none)
      ∧ State.reset.stored = none
      ∧ ((tableWriting (kept State.reset)).store.access = some .operation
          ∧ (tableWriting (kept State.reset)).store.progress = some (.tableWriting plain))
      ∧ tableCheck plain + 1 ≠ tableCheck plain
      ∧ ({ plain with nodes := putNode plain.nodes 30 (some { cell with shadowBase := 95, shadowCount := 2 }) } :
          Tables).firstFault ≠ none :=
  ⟨⟨_, rfl⟩, ⟨rfl, rfl, plain_sound⟩, rfl, ⟨rfl, rfl⟩, by bv_omega, by decide +kernel⟩

/-- A stored directory copy of an empty catalogue. -/
def copyOf (sequence : Word32) : DirectoryCopy :=
  { sequence := sequence, places := Vector.replicate 12 none
    check := directoryCheck sequence (Vector.replicate 12 none) }

theorem validCopy_copyOf (n : Nat) (q : Word32) : validCopy n (some (copyOf q)) = some (copyOf q) := by
  have : (copyOf q).valid n = true := by
    have h : (copyOf q).places.toList.filterMap id = [] := by
      show (Vector.replicate 12 (none : Option ImageEntry)).toList.filterMap id = []
      decide
    unfold DirectoryCopy.valid
    rw [h]
    simp [copyOf, entriesApart]
  simp [validCopy, this]

/-- A stored copy with entries in its first and its last place. -/
def copyHolding (d e : ImageEntry) : DirectoryCopy :=
  let places := ((Vector.replicate 12 (none : Option ImageEntry)).set 0 (some d)).set 11 (some e)
  { sequence := 1, places := places, check := directoryCheck 1 places }

theorem valid_copyHolding (d e : ImageEntry) (n : Nat) :
    (copyHolding d e).valid n
      = ([d, e].all (fun x => decide (1 ≤ x.length ∧ x.length ≤ 4096 ∧ x.first + x.length ≤ n)) && entriesApart [d, e]) := by
  have h : (copyHolding d e).places.toList.filterMap id = [d, e] := rfl
  unfold DirectoryCopy.valid
  rw [h]
  simp [copyHolding]

/-- R179's tests, for entries of kind 5 and kind 6: the longest length at the end of the store; then length 0, length 4097, an extent
past the end, the same kind twice, one shared block, and a wrong check. -/
theorem test_directory_copy_tests :
    let d : ImageEntry := { kind := 5, version := 2, length := 4096, check := 0, first := 0, damaged := true }
    let e : ImageEntry := { d with kind := 6, first := 4096 }
    (copyHolding d e).valid 8192 = true
      ∧ ((copyHolding d { e with length := 0 }).valid 8192 = false
          ∧ (copyHolding d { e with length := 4097 }).valid 16384 = false)
      ∧ ((copyHolding d { e with first := 4097 }).valid 8192 = false
          ∧ (copyHolding d { e with first := 4097 }).valid 16384 = true)
      ∧ (copyHolding d { e with kind := 5 }).valid 8192 = false
      ∧ (copyHolding d { e with first := 4095 }).valid 8192 = false
      ∧ ({ copyHolding d e with check := (copyHolding d e).check + 1 } : DirectoryCopy).valid 8192 = false := by
  refine ⟨?_, ⟨?_, ?_⟩, ⟨?_, ?_⟩, ?_, ?_, ?_⟩
  iterate 7 exact (valid_copyHolding _ _ _).trans (by decide)
  simp [DirectoryCopy.valid, copyHolding]

/-- Each clause's copies, for both sizes of store: none, one, and both with copy 1 next, copy 0 next (at the wrap), equal,
older, and newer by more than one. -/
theorem witness_DirectoryLoadTakesNewerValidCopy :
    (8192 = if low.storeSz then 16384 else 8192) ∧ (16384 = if large.storeSz then 16384 else 8192)
      ∧ (State.reset.store.access = none ∧ (tableWriting State.reset).store.access = some .operation
          ∧ (Progress.tableWriting plain).writesDirectory = false)
      ∧ (∀ x high s, ∃ t, exec (.reset x high) s = .next t)
      ∧ validCopy 8192 none = none ∧ (∀ n q, validCopy n (some (copyOf q)) = some (copyOf q))
      ∧ (copyOf 0).sequence = (copyOf 0xFFFFFFFF).sequence + 1
      ∧ ((copyOf 0xFFFFFFFF).sequence ≠ (copyOf 0).sequence + 1
          ∧ (copyOf 0).sequence = (copyOf 0xFFFFFFFF).sequence + 1)
      ∧ ((copyOf 5).sequence ≠ (copyOf 5).sequence + 1 ∧ (copyOf 5).sequence.toNat ≤ (copyOf 5).sequence.toNat)
      ∧ ((copyOf 7).sequence ≠ (copyOf 5).sequence + 1 ∧ (copyOf 5).sequence ≠ (copyOf 7).sequence + 1
          ∧ (copyOf 5).sequence.toNat < (copyOf 7).sequence.toNat) :=
  ⟨rfl, rfl, ⟨rfl, rfl, rfl⟩, fun _ _ _ => ⟨_, rfl⟩, rfl, validCopy_copyOf, by decide, by decide, by decide, by decide⟩

/-! ### Witnesses: the trunk link -/

/-- Lengths 0, 300 and 301; a check that fits and one that differs in either character; and fewer than 6 characters. -/
theorem witness_TrunkFrameIsGoodBadOrUnfinished :
    ((List.replicate 300 (0x55 : Byte)).length ≤ 300 ∧ ([] : List Byte).length ≤ 300)
      ∧ ((0x2C : Byte).toNat + 256 * (1 : Byte).toNat = 300 ∧ 300 < (0x2D : Byte).toNat + 256 * (1 : Byte).toNat
          ∧ (0 : Byte).toNat + 256 * (0 : Byte).toNat = 0)
      ∧ (let sums := fletcher16 ([0x01, 0x34, 0x12, 0x00, 0x04, 0x00] ++ [0x05, 0x10, 0x21, 0x01]);
          (0x10 : Byte) = u8 sums.2 ∧ (0x82 : Byte) = u8 sums.1 ∧ (0x11 : Byte) ≠ u8 sums.2 ∧ (0x83 : Byte) ≠ u8 sums.1)
      ∧ ([0x01, 0, 0, 0, 0] : List Byte).length < 6 :=
  ⟨⟨Nat.le_of_eq List.length_replicate, Nat.zero_le _⟩, by decide, by decide +kernel, by decide⟩

/-- A frame for the link, and a bridge whose entries 3 and 23 hold it, the first on the link. -/
def report : TrunkFrame := { kind := 0x44, tag := 0, outcome := 0, body := [1, 9] }

def onLink (last : EgressEntry) (order : List WaitingEntry) : State :=
  { State.reset with
    moment := 9
    trunk :=
      { State.reset.trunk with
        egress := (State.reset.trunk.egress.setIfInBounds 3 (.waiting report)).setIfInBounds 23 last
        order := order } }

theorem witness_TrunkLinkFramesStartAndEnd :
    State.reset.trunk.rx = .hunting
      ∧ ((onLink (.sending report) []).trunk.egress[23]? = some (.sending report)
          ∧ (∀ j, j < 23 → (match (onLink (.sending report) []).trunk.egress[j]? with
              | some (.sending _) => false
              | _ => true) = true) ∧ (onLink (.sending report) []).transmitting = true)
      ∧ State.reset.trunk.order = []
      ∧ (let s := onLink .free [{ entry := 3, moment := 5 }, { entry := 23, moment := 6 }];
          s.transmitting = false ∧ (∀ x ∈ s.trunk.order.tail, x.moment ≠ 5)
            ∧ s.trunk.egress[3]? = some (.waiting report)) := by decide +kernel

/-- A bridge collecting a trunk frame, with a number of frames in ingress. -/
def collecting (n : Nat) : State :=
  { State.reset with trunk := { State.reset.trunk with rx := .collecting, ingress := List.replicate n report } }

/-- The worked frame's characters, its last check character given. -/
def worked (last : Byte) : List Byte := [0x01, 0x34, 0x12, 0x00, 0x04, 0x00, 0x05, 0x10, 0x21, 0x01, 0x10, last]

theorem witness_ReceivedFramesJoinIngressOrRaiseFlags :
    ((collecting 0).trunk.rx = .collecting ∧ (collecting 15).trunk.ingress.length < 16
        ∧ (collecting 16).trunk.ingress.length = 16)
      ∧ receiveTrunk (worked 0x82) = .good { kind := 0x01, tag := 0x1234, outcome := 0, body := [0x05, 0x10, 0x21, 0x01] }
      ∧ receiveTrunk (worked 0x83) = .bad ∧ receiveTrunk [0x01, 0, 0, 0, 0x2D, 0x01] = .bad
      ∧ (none : Option Byte) ≠ some 0xC3 ∧ some (0xC2 : Byte) ≠ some 0xC3
      ∧ ((collecting 0).responder.mask.getLsbD 0 = false
          ∧ (raiseFlag .trunkCheck (collecting 0)).flagSet .trunkCheck = true) := by decide +kernel

/-- A held frame of node 1. -/
def heldFor (kind : RequestKind) (tag : Option Word16) : HoldEntry :=
  { tag := tag, node := 1, kind := kind, function := 0x21, payload := [], rule := .rule 47, slot := none, policy := .replay
    arrival := 0, expiry := some 0, reservation := tag.map (fun _ => 22), inFlight := false }

def holding (l : List HoldEntry) (s : State) : State := { s with hold := { queues := putNode s.hold.queues 1 l } }

/-- The notice mask. -/
def masking (b : BitVec 3) (s : State) : State := { s with responder := { s.responder with mask := b } }

/-- Each offer with its bit set and clear, with entry 23 FREE and with none, EGRESS_OVERFLOW set and clear. -/
theorem witness_ReportsAndNoticesTakeFreeEntryOrAreLost :
    (∀ s, (egressBut [23] s).freeEntry = some 23 ∧ (egressBut [] s).freeEntry = none)
      ∧ ((7 : BitVec 3).getLsbD 0 = true ∧ (7 : BitVec 3).getLsbD 1 = true ∧ (7 : BitVec 3).getLsbD 2 = true)
      ∧ (∀ n, (0 : BitVec 3).getLsbD n = false) ∧ (masking 7 State.reset).responder.mask = 7
      ∧ (State.reset.flagSet .egressOverflow = false
          ∧ (raiseFlag .egressOverflow State.reset).flagSet .egressOverflow = true)
      ∧ (let s := { bridge (record .online .none) with
              gap := { (bridge (record .online .none)).gap with condition := .endPending 2 6 11 } };
          s.gap.gapHigh ≠ s.straps.gapPol ∧ s.gap.condition = .endPending 2 6 11 ∧ s.flagSet .glitch = false
            ∧ (raiseFlag .glitch s).flagSet .glitch = true)
      ∧ (let r := { record .awaitBoot .none with window := some (5, 0) };
          (bridge r).runtime 1 = some r ∧ r.window = some (5, (bridge r).gap.clock))
      ∧ (∀ a, State.reset.entry a = none ∧ State.reset.reserve a = none)
      ∧ (let s := fun c => { State.reset with gap := { State.reset.gap with clock := 12, condition := c } };
          (s (.startPending 7 12)).gap.condition = .startPending 7 (s (.startPending 7 12)).gap.clock
            ∧ (s (.endPending 2 7 12)).gap.condition = .endPending 2 7 (s (.endPending 2 7 12)).gap.clock
            ∧ (s (.endPending 2 7 12)).gap.gapSet = [])
      ∧ (let s := holding [heldFor .command (some 9)] (bridge (record .suspect .none));
          (s.queue 1)[0]? = some (heldFor .command (some 9)) ∧ (heldFor .command (some 9)).expiry = some s.gap.clock
            ∧ s.nodeState 1 ≠ .release ∧ (heldFor .command (some 9)).reservation = some 22
            ∧ ({ heldFor .command (some 9) with reservation := none } : HoldEntry).tag = some 9) := by
  refine ⟨fun s => ⟨(by decide +kernel : (egressBut [23] State.reset).freeEntry = some 23),
    (by decide +kernel : (egressBut [] State.reset).freeEntry = none)⟩, by decide, fun n => by simp, rfl, by decide +kernel,
    by decide +kernel, by decide +kernel, forAllNodes (by decide +kernel) (fun a h => ?_), by decide +kernel,
    by decide +kernel⟩
  exact ⟨entry_above _ a h, reserve_above _ a h⟩

theorem witness_TakeNeedsFreeEgressEntry :
    (egressBut [] State.reset).freeEntry = none ∧ (egressBut [23] State.reset).freeEntry = some 23
      ∧ State.reset.freeEntry = some 0 := by decide +kernel

/-! ### Witnesses: classification -/

/-- A segment request alone in ingress. -/
def requesting (body : List Byte) (s : State) : State := arrived { kind := 0x01, tag := 7, outcome := 0, body := body } s

theorem heads (body : List Byte) (s : State) (hs : s.freeEntry = some 0) :
    (requesting body s).Heads { kind := 0x01, tag := 7, outcome := 0, body := body } [] 0 := ⟨rfl, hs⟩

/-- The fields of a request with tag 7 and the shortest or the longest payload. -/
def fields (d : Nat) (k : RequestKind) (payload : List Byte) : SegmentRequest :=
  { tag := 7, destination := d, kind := k, function := 0x21, payload := payload }

def longest : List Byte := List.replicate 64 0xEE

def parse (body : List Byte) : Option SegmentRequest :=
  parseSegmentRequest { kind := 0x01, tag := 7, outcome := 0, body := body }

theorem witness_SegmentRequestFieldTests :
    parse [1, 0x10, 0x21] = some (fields 1 .command []) ∧ parse ([30, 0x11, 0x21] ++ longest) = some (fields 30 .query longest)
      ∧ parse ([31, 0x12, 0x21] ++ longest) = some (fields 31 .broadcast longest) := by decide +kernel

/-- Node 1's rule discards, or forwards under a policy. -/
def ruled (r : Rule) (st : NodeState) : State := bridgeOf (twoNodes r) (record st .none)

/-- The pass queue with a number of entries. -/
def queued (n : Nat) (s : State) : State :=
  { s with
    segment :=
      { s.segment with
        normal :=
          List.replicate n
            { tag := 1, destination := 30, kind := .command, function := 0, payload := [], rule := .defaultRule
              action := Action.initial.part, live := [], misses := 0, reservation := 23 } } }

theorem witness_SegmentRequestMalformedFilteredOrBroadcast :
    (let s := requesting [1, 0x10, 0x21] (ruled (ruleWith .discard none .refuse .normal) .online);
      s.freeEntry = some 0 ∧ parse [1, 0x10] = none ∧ parse [1, 0x10, 0x21] = some (fields 1 .command [])
        ∧ (s.tables.matched (fields 1 .command [])).action.verdict = .discard)
      ∧ (let s := bridge (record .online .none);
          s.freeEntry = some 0 ∧ parse [31, 0x12, 0x21] = some (fields 31 .broadcast [])
            ∧ (s.tables.matched (fields 31 .broadcast [])).action.verdict = .forward
            ∧ (s.tables.matched (fields 31 .broadcast [])).action.part.absent = .refuse
            ∧ (queued 31 s).passLength < 32 ∧ 32 ≤ (queued 32 s).passLength)
      ∧ (let s := ruled (ruleWith .forward none .queue .normal) .probe;
          (s.tables.matched (fields 31 .broadcast [])).action.part.absent = .queue
            ∧ (s.tables.matched (fields 31 .broadcast [])).set = some 0 ∧ 1 ∈ s.tables.set 0
            ∧ (s.nodeState 1).isAbsent = true ∧ (s.nodeState 30).isAbsent = false ∧ s.entry 1 = some fed
            ∧ ((holding [heldFor .command none] s).queue 1).length < fed.holdCap
            ∧ fed.holdCap ≤ ((holding [heldFor .command none, heldFor .command none] s).queue 1).length
            ∧ (addresses.filter (fun a => decide (a ∈ s.tables.set 0) && (s.nodeState a).isAbsent)).length
              ≤ (holding (List.replicate 127 (heldFor .command none)) s).holdFree)
      ∧ (let s := ruled (ruleWith .forward (some 1) .latest .normal) .probe;
          (s.tables.matched (fields 31 .broadcast [])).action.part.absent = .latest
            ∧ (s.tables.matched (fields 31 .broadcast [])).action.part.slot = some 1 ∧ 1 < fed.shadowCount
            ∧ fed.shadowBase + 1 < 96 ∧ s.entry 30 = some cell ∧ cell.shadowBase ≠ fed.shadowBase) := by
  decide +kernel

/-- Node 1 in each state that a disposition names, and a gap in progress or not. -/
def inGap (s : State) : State := { s with gap := { s.gap with condition := .inGap 0, gapSet := [1] } }

theorem witness_UnicastDispositionByNodeState :
    (parse [1, 0x10, 0x21] = some (fields 1 .command []) ∧ parse [2, 0x10, 0x21] = some (fields 2 .command [])
        ∧ (fields 1 .command []).kind ≠ .broadcast)
      ∧ (let s := bridge (record .online .none);
          s.freeEntry = some 0 ∧ (s.tables.matched (fields 1 .command [])).action.verdict = .forward
            ∧ s.nodeState 1 = .online ∧ s.nodeState 2 = .unconfigured ∧ (queued 31 s).passLength < 32
            ∧ 32 ≤ (queued 32 s).passLength
            ∧ (s.tables.matched (fields 1 .command [])).action.part.urgency = .normal)
      ∧ ((ruled (ruleWith .forward none .refuse .urgent) .online).tables.matched
          (fields 1 .command [])).action.part.urgency = .urgent
      ∧ (bridge (record .failed .none)).nodeState 1 = .failed
      ∧ (bridge (record .isolated .none)).nodeState 1 = .isolated
      ∧ (let s := bridge (record .suspect .none);
          (s.nodeState 1).isAbsent = true ∧ s.nodeState 1 ≠ .release
            ∧ (s.tables.matched (fields 1 .command [])).action.part.absent = .refuse ∧ s.gapInProgress = false
            ∧ (inGap s).gapInProgress = true) := by decide +kernel

theorem witness_AbsentNodeHoldsOrStoresRequest :
    parse [1, 0x10, 0x21] = some (fields 1 .command [])
      ∧ (let s := ruled (ruleWith .forward none .queue .normal) .probe;
          s.freeEntry = some 0 ∧ s.entry 1 = some fed
            ∧ (s.tables.matched (fields 1 .command [])).action.verdict = .forward
            ∧ ((s.nodeState 1).isAbsent = true ∧ (s.tables.matched (fields 1 .command [])).action.part.absent = .queue)
            ∧ ((holding [heldFor .command none] s).queue 1).length < fed.holdCap
            ∧ 0 < (holding [heldFor .command none] s).holdFree
            ∧ fed.holdCap ≤ ((holding [heldFor .command none, heldFor .command none] s).queue 1).length
            ∧ (holding (List.replicate 128 (heldFor .command none)) s).holdFree = 0)
      ∧ (let s := ruled (ruleWith .forward none .refuse .normal) .release;
          s.nodeState 1 = .release ∧ (s.tables.matched (fields 1 .command [])).action.part.absent = .refuse)
      ∧ (let s := ruled (ruleWith .forward (some 1) .latest .normal) .release;
          (s.nodeState 1).isAbsent = true ∧ (s.tables.matched (fields 1 .command [])).action.part.absent = .latest
            ∧ (s.tables.matched (fields 1 .command [])).action.part.slot = some 1 ∧ 1 < fed.shadowCount
            ∧ fed.shadowBase + 1 < 96) := by decide +kernel

theorem witness_FirstMatchingRuleDecides :
    (47 < 48 ∧ plain.rule 47 = some (ruleWith .forward none .refuse .normal)
        ∧ (ruleWith .forward none .refuse .normal).takes plain (fields 1 .command []) = true
        ∧ ∀ j, j < 47 → plain.rule j = none)
      ∧ ∀ j, j < 48 → (match plain.rule j with
          | some r => !r.takes plain (fields 1 .query [])
          | none => true) = true := by decide +kernel

/-! ### Witnesses: management requests -/

theorem free_reset : State.reset.freeEntry = some 0 := by decide +kernel

theorem no_code_9 : ∀ k : RequestCode, k.code ≠ 0x09 := by intro k; cases k <;> decide

theorem witness_FramesAndRequestsAreJudgedInOrder :
    (∀ f, (arrived f State.reset).Heads f [] 0) ∧ ((0 : Byte) ≠ 1 ∧ (0 : Byte) ≠ 2) ∧ ((3 : Byte) ≠ 1 ∧ (3 : Byte) ≠ 2)
      ∧ (∀ k : RequestCode, k.code ≠ 0x09)
      ∧ argumentsFit .readStatus [] = true ∧ argumentsFit .readStatus [0] = false
      ∧ (∀ k, k ∈ [RequestCode.writeRule, .imageDrop] → ∃ args, argumentsFit k args = true)
      ∧ (bridge (record .online .none)).responder.mode = .service
      ∧ (argumentsFit .isolateNode [1] = true
          ∧ ({ State.reset with segment := { State.reset.segment with restartPending := true } } :
              State).segment.restartPending = true) :=
  ⟨fun _ => ⟨rfl, free_reset⟩, by decide, by decide, no_code_9, rfl, rfl,
    by intro k hk; simp at hk; obtain rfl | rfl := hk; exacts [⟨List.replicate 15 0, rfl⟩, ⟨[0], rfl⟩], rfl, rfl, rfl⟩

/-- The base of the witnesses below: nodes 1 and 30 configured, in both modes. -/
def served : State := bridge (record .online .none)
def depot : State := inDepot served

theorem free_served : served.freeEntry = some 0 := by decide +kernel
theorem free_depot : depot.freeEntry = some 0 := by decide +kernel

theorem witness_ReadStatusAnswersEveryBlock : (asking .readStatus [] served).Asks .readStatus 7 [] [] 0 :=
  asks _ _ _ rfl free_served

/-- Addresses 0 and 31, configured 1 and 30, unconfigured 2; the second argument of the counters likewise. -/
theorem witness_ReadNodeAndNodeCounters :
    (∀ b : Byte, (asking .readNode [b] served).Asks .readNode 7 [b] [] 0
        ∧ (asking .readCounters [1, b] served).Asks .readCounters 7 [1, b] [] 0
        ∧ (asking .clearCounters [1, b] served).Asks .clearCounters 7 [1, b] [] 0)
      ∧ ((0 : Byte).toNat = 0 ∧ 30 < (31 : Byte).toNat)
      ∧ (served.entry 1 = some fed ∧ served.runtime 1 = some (record .online .none)
          ∧ served.reserve 1 = some { estimate := 0, origin := 0, aged := false } ∧ served.entry 30 = some cell
          ∧ served.runtime 30 = some (record .online .none))
      ∧ served.entry 2 = none ∧ served.runtime 2 = none :=
  ⟨fun _ => ⟨asks _ _ _ rfl free_served, asks _ _ _ rfl free_served, asks _ _ _ rfl free_served⟩, by decide,
    by decide +kernel, by decide +kernel, by decide +kernel⟩

theorem witness_GlobalAndRuleCounters :
    (∀ x b : Byte, (asking .readCounters [x, b] served).Asks .readCounters 7 [x, b] [] 0
        ∧ (asking .clearCounters [x, b] served).Asks .clearCounters 7 [x, b] [] 0)
      ∧ ((48 : Byte).toNat = 48 ∧ (254 : Byte).toNat ≠ 255 ∧ (255 : Byte).toNat = 255 ∧ 2 < (3 : Byte).toNat)
      ∧ served.counters.rules[0]? = some { frames := 0, bytes := 0 }
      ∧ served.counters.rules[47]? = some { frames := 0, bytes := 0 } :=
  ⟨fun _ _ => ⟨asks _ _ _ rfl free_served, asks _ _ _ rfl free_served⟩, by decide, by decide +kernel, by decide +kernel⟩

theorem witness_ReadRuleAnswersRecord :
    (∀ b : Byte, (asking .readRule [b] served).Asks .readRule 7 [b] [] 0)
      ∧ served.tables.rule (0 : Byte).toNat = none
      ∧ served.tables.rule (47 : Byte).toNat = some (ruleWith .forward none .refuse .normal)
      ∧ (48 ≤ (48 : Byte).toNat ∧ (48 : Byte) ≠ 0xFF) ∧ (48 ≤ (254 : Byte).toNat ∧ (254 : Byte) ≠ 0xFF) :=
  ⟨fun _ => asks _ _ _ rfl free_served, by decide +kernel, by decide +kernel, by decide, by decide⟩

/-- Slot 0 captured for node 1, its list [1, 0]. -/
def captured (policy : ReplayPolicy) (r : Runtime) : State :=
  let s := bridge r
  { s with
    shadow :=
      { s.shadow with
        slots :=
          (s.shadow.slots.setIfInBounds 0
            (some
              { node := 1, relative := 0, rule := .rule 47, policy := policy, kind := .command, function := 0x21
                payload := [1], marked := true })).setIfInBounds 1
            (some
              { node := 1, relative := 1, rule := .rule 47, policy := .replay, kind := .command, function := 0x22
                payload := [], marked := false })
        lists := putNode s.shadow.lists 1 [1, 0] } }

theorem witness_ReadShadowAnswersSlot :
    (let s := captured .replay (record .online .none);
      (∀ b : Byte, (asking .readShadow [b] s).Asks .readShadow 7 [b] [] 0)
        ∧ (s.entry 1 = some fed ∧ fed.shadowBase ≤ 0 ∧ 0 < fed.shadowBase + fed.shadowCount)
        ∧ (∀ a, (∃ e, s.entry a = some e ∧ e.shadowBase ≤ 0 ∧ 0 < e.shadowBase + e.shadowCount) → a = 1)
        ∧ (∀ a, ¬ ∃ e, s.entry a = some e ∧ e.shadowBase ≤ 95 ∧ 95 < e.shadowBase + e.shadowCount)
        ∧ s.slot 95 = none ∧ 95 < (96 : Byte).toNat ∧ (s.slot 0).isSome = true
        ∧ (s.replayList 1)[1]? = some 0 ∧ ∀ q, q < 1 → (s.replayList 1)[q]? ≠ some 0) := by
  have covers : ∀ a n, (∃ e, (captured .replay (record .online .none)).entry a = some e ∧ e.shadowBase ≤ n
      ∧ n < e.shadowBase + e.shadowCount) → (a = 1 ∧ n < 2) ∨ (a = 30 ∧ n = 2) := by
    intro a n
    have key : ∀ a, a < 31 → (match (captured .replay (record .online .none)).entry a with
        | some e => decide ((a = 1 ∧ e = fed) ∨ (a = 30 ∧ e = cell))
        | none => true) = true := by decide +kernel
    rintro ⟨e, he, h1, h2⟩
    by_cases ha : a < 31
    · have := key a ha
      rw [he] at this
      simp only [decide_eq_true_eq] at this
      obtain ⟨rfl, rfl⟩ | ⟨rfl, rfl⟩ := this
      · simp [fed] at h1 h2; omega
      · simp [cell, fed] at h1 h2; omega
    · rw [entry_above _ a (by omega)] at he; cases he
  refine ⟨fun _ => asks _ _ _ rfl (by decide +kernel), by decide +kernel, fun a h => ?_, fun a h => ?_,
    by decide +kernel, by decide, by decide +kernel, by decide +kernel, by decide +kernel⟩
  · have := covers a 0 h; omega
  · have := covers a 95 h; omega

/-- A node in SUSPECT with held frames up to its cap, a pending slot and one that is not, and an edge of GAP waiting. -/
def keeping : State :=
  { holding [heldFor .command none, heldFor .query none] (captured .replay (record .suspect .none)) with
    pending := [.gapEdgeAbsent] }

theorem keeping_slot (i : Nat) (r : ShadowRecord) (h : keeping.slot i = some r) :
    i < 96 ∧ r.node = 1 ∧ r.relative = i ∧ i < 2 := by
  by_cases hi : i < 96
  · have key : ∀ i, i < 96 → (match keeping.slot i with
        | some r => decide (r.node = 1 ∧ r.relative = i ∧ i < 2)
        | none => true) = true := by decide +kernel
    have := key i hi
    rw [h] at this
    exact ⟨hi, by simpa using this⟩
  · have : keeping.shadow.slots[i]? = none := Vector.getElem?_eq_none (by omega)
    simp [State.slot, this] at h

theorem keeping_list : ∀ a, keeping.replayList a = if a = 1 then [1, 0] else [] := by
  refine forAllNodes (by decide +kernel) (fun a h => ?_)
  simp [State.replayList, atNode_above _ a h]
  omega

theorem keeping_holdSound : keeping.HoldSound := by
  refine ⟨forAllNodes (by decide +kernel) (fun a h => ?_), by decide +kernel, forAllNodes (by decide +kernel) (fun a h _ => ?_)⟩
  · rw [queue_above _ a h]; exact Nat.zero_le _
  · exact queue_above _ a h

theorem keeping_shadowSound : keeping.ShadowSound := by
  refine ⟨by decide +kernel, fun a => ⟨?_, fun i => ⟨fun h => ?_, ?_⟩⟩, fun i r h => ?_, fun i r h _ => ?_⟩
  · rw [keeping_list]; split <;> decide
  · rw [keeping_list] at h
    split at h
    · next ha =>
      subst ha
      have : i = 1 ∨ i = 0 := by simpa using h
      obtain rfl | rfl := this
      · exact ⟨_, rfl, rfl⟩
      · exact ⟨_, rfl, rfl⟩
    · cases h
  · rintro ⟨r, h, rfl⟩
    obtain ⟨_, hn, _, hi⟩ := keeping_slot i r h
    rw [keeping_list, if_pos hn]
    have : i = 0 ∨ i = 1 := by omega
    simpa using this.symm
  · obtain ⟨_, hn, hr, hi⟩ := keeping_slot i r h
    rw [hn, hr]
    exact ⟨fed, by decide +kernel, hi, (Nat.zero_add i).symm⟩
  · rw [(keeping_slot i r h).2.1]; decide +kernel

theorem witness_StepKeepsHoldAndShadowSound :
    (keeping.HoldSound ∧ keeping.ShadowSound) ∧ ∃ t, step keeping = .next t :=
  ⟨⟨keeping_holdSound, keeping_shadowSound⟩, runs (by decide +kernel)⟩

/-- A set whole, empty, or refused: index 8, count 31, member 0 and 31, an address twice. -/
theorem witness_AddressSetsReadAndWritten :
    (∀ b : Byte, (asking .readSet [b] served).Asks .readSet 7 [b] [] 0)
      ∧ served.tables.sets[(0 : Byte).toNat]? = some [1, 30] ∧ served.tables.sets[(7 : Byte).toNat]? = some []
      ∧ 7 < (8 : Byte).toNat
      ∧ (∀ b n : Byte, ∀ ms : List Byte, ms.length = n.toNat →
          (asking .writeSet (b :: n :: ms) served).Asks .writeSet 7 (b :: n :: ms) [] 0
            ∧ (asking .writeSet (b :: n :: ms) depot).Asks .writeSet 7 (b :: n :: ms) [] 0)
      ∧ served.responder.mode = .service ∧ depot.responder.mode = .depot ∧ 30 < (31 : Byte).toNat
      ∧ ¬ ([5, 5] : List Byte).Nodup ∧ ([30, 1] : List Byte).Nodup ∧ (∀ m ∈ ([30, 1] : List Byte), m ≠ 0 ∧ m.toNat ≤ 30) := by
  refine ⟨fun _ => asks _ _ _ rfl free_served, by decide +kernel, by decide +kernel, by decide, fun b n ms h => ?_, rfl, rfl,
    by decide, by decide, by decide, by decide⟩
  have : argumentsFit .writeSet (b :: n :: ms) = true := by simp [argumentsFit, byteAt, h]; omega
  exact ⟨asks _ _ _ this free_served, asks _ _ _ this free_depot⟩

theorem witness_ParametersReadAndWritten :
    (asking .readParameters [] served).Asks .readParameters 7 [] [] 0
      ∧ (∀ b : Byte, (asking .writeParameters (List.replicate 14 b) served).Asks .writeParameters 7 (List.replicate 14 b) [] 0
          ∧ (asking .writeParameters (List.replicate 14 b) depot).Asks .writeParameters 7 (List.replicate 14 b) [] 0)
      ∧ served.responder.mode = .service ∧ depot.responder.mode = .depot :=
  ⟨asks _ _ _ rfl free_served, fun _ => ⟨asks _ _ _ rfl free_served, asks _ _ _ rfl free_depot⟩, rfl, rfl⟩

/-- Car 9999 and 10000, position 0, 1, 8 and 9, orientation 1 and 2; flag bits 9 and 10, mask bits 2 and 3. -/
theorem witness_IdentityFlagsAndMaskRequests :
    (∀ s, s.freeEntry = some 0 → ∀ a b c d : Byte, (asking .setIdentity [a, b, c, d] s).Asks .setIdentity 7 [a, b, c, d] [] 0
        ∧ (asking .readIdentity [] s).Asks .readIdentity 7 [] [] 0 ∧ (asking .clearFlags [a, b] s).Asks .clearFlags 7 [a, b] [] 0
        ∧ (asking .setNoticeMask [a] s).Asks .setNoticeMask 7 [a] [] 0)
      ∧ ((3 : Byte).toNat ≤ 3 ∧ 3 < (4 : Byte).toNat ∧ (7 : Byte).toNat ≤ 7 ∧ 7 < (8 : Byte).toNat)
      ∧ named.freeEntry = some 0 ∧ named.responder.identity ≠ none ∧ served.freeEntry = some 0
      ∧ served.responder.identity = none
      ∧ (let car := fun x y : Byte => x.toNat + 256 * y.toNat;
          car 0x0F 0x27 = 9999 ∧ 9999 < car 0x10 0x27 ∧ (1 ≤ (8 : Byte).toNat ∧ (8 : Byte).toNat ≤ 8)
            ∧ 8 < (9 : Byte).toNat ∧ 1 < (2 : Byte).toNat) :=
  ⟨fun _ h _ _ _ _ => ⟨asks _ _ _ rfl h, asks _ _ _ rfl h, asks _ _ _ rfl h, asks _ _ _ rfl h⟩, by decide, by decide +kernel,
    nofun, free_served, rfl, by decide⟩

/-- The tests of R91 on an action part and on a rule record, as WriteRuleAndDefaultStoreJudgedRecords states them. -/
def badAction (bs : List Byte) (n : Nat) : Bool :=
  let v := fun (k : Nat) => (byteAt bs k).toNat
  decide (1 < v n ∨ (7 < v (n + 1) ∧ v (n + 1) ≠ 255) ∨ 2 < v (n + 2) ∨ 1 < v (n + 3) ∨ 1 < v (n + 4)
    ∨ (v (n + 1) ≤ 7 ∧ v (n + 2) = 0) ∨ (v (n + 2) = 1 ∧ v (n + 1) = 255))

def badRule (bs : List Byte) : Bool :=
  let v := fun (k : Nat) => (byteAt bs k).toNat
  decide (1 < v 0 ∨ (v 0 = 1 ∧ ((7 < v 1 ∧ v 1 ≠ 255) ∨ v 2 = 0 ∨ 7 < v 2 ∨ v 4 < v 3 ∨ 1 < v 5
    ∨ (v 5 = 1 ∧ 63 < v 6) ∨ badAction bs 9 = true)))

/-- Index 47 and 48; a record at the ends of its ranges, an empty one, and records one past an end. -/
theorem witness_WriteRuleAndDefaultStoreJudgedRecords :
    (∀ s, s.freeEntry = some 0 → ∀ b : Byte, ∀ bs : List Byte,
        (bs.length = 14 → (asking .writeRule (b :: bs) s).Asks .writeRule 7 (b :: bs) [] 0)
          ∧ (bs.length = 5 → (asking .writeDefault bs s).Asks .writeDefault 7 bs [] 0))
      ∧ (served.freeEntry = some 0 ∧ served.responder.mode ≠ .depot ∧ depot.freeEntry = some 0
          ∧ depot.responder.mode = .depot) ∧ ((47 : Byte).toNat < 48 ∧ 47 < (48 : Byte).toNat)
      ∧ badRule [1, 7, 7, 5, 5, 1, 63, 0, 0, 1, 7, 2, 1, 1] = false ∧ badRule [1, 255, 1, 0, 255, 0, 64, 0, 0, 0, 255, 0, 0, 0] = false
      ∧ badRule (List.replicate 14 0) = false ∧ badRule [2, 255, 1, 0, 255, 0, 64, 0, 0, 0, 255, 0, 0, 0] = true
      ∧ badRule [1, 7, 8, 5, 5, 1, 63, 0, 0, 1, 7, 2, 1, 1] = true ∧ badAction [0, 0, 1, 0, 0] 0 = false
      ∧ badAction [0, 255, 1, 0, 0] 0 = true ∧ badAction [0, 7, 0, 0, 0] 0 = true := by
  refine ⟨fun s hs b bs => ⟨fun h => asks _ _ _ ?_ hs, fun h => asks _ _ _ ?_ hs⟩, ⟨free_served, nofun, free_depot, rfl⟩,
    by decide, by decide, by decide, by decide, by decide, by decide, by decide, by decide, by decide⟩
  · simp [argumentsFit, h]
  · simp [argumentsFit, h]

/-- The tests of R37, as WriteNodeAndConfigRecord states them. -/
def badNode (b : Byte) (bs : List Byte) : Bool :=
  let v := fun (k : Nat) => (byteAt bs k).toNat
  decide (b.toNat = 0 ∨ 30 < b.toNat ∨ 1 < v 0 ∨ (v 0 = 1 ∧ (1 < v 1 ∨ 1 < v 2 ∨ 2 < v 4 ∨ 16 < v 13
    ∨ 600 < v 14 + 256 * v 15 ∨ 95 < v 16 ∨ 8 < v 17)))

/-- Addresses 0, 1, 2, 30 and 31; a record at the ends of its ranges, an empty one, and records one past an end. -/
theorem witness_WriteNodeAndConfigRecord :
    (∀ s, s.freeEntry = some 0 → ∀ b : Byte, ∀ bs : List Byte,
        (bs.length = 18 → (asking .writeNode (b :: bs) s).Asks .writeNode 7 (b :: bs) [] 0)
          ∧ (bs.length ≤ 48 → (asking .writeConfigRecord (b :: bs) s).Asks .writeConfigRecord 7 (b :: bs) [] 0))
      ∧ (served.freeEntry = some 0 ∧ served.responder.mode ≠ .depot ∧ depot.freeEntry = some 0
          ∧ depot.responder.mode = .depot)
      ∧ badNode 30 [1, 1, 1, 255, 2, 255, 255, 0, 0, 255, 255, 0, 0, 16, 0x58, 2, 95, 8] = false
      ∧ badNode 1 (List.replicate 18 0) = false ∧ badNode 0 (List.replicate 18 0) = true
      ∧ badNode 31 (List.replicate 18 0) = true
      ∧ badNode 30 [1, 1, 1, 255, 2, 255, 255, 0, 0, 255, 255, 0, 0, 16, 0x59, 2, 95, 8] = true
      ∧ badNode 30 [1, 1, 1, 255, 2, 255, 255, 0, 0, 255, 255, 0, 0, 16, 0x58, 2, 96, 8] = true
      ∧ depot.responder.edit.node 2 = none ∧ depot.responder.edit.node 30 = some cell := by
  refine ⟨fun s hs b bs => ⟨fun h => asks _ _ _ ?_ hs, fun h => asks _ _ _ ?_ hs⟩, ⟨free_served, nofun, free_depot, rfl⟩,
    by decide, by decide, by decide, by decide, by decide, by decide, by decide +kernel, by decide +kernel⟩
  · simp [argumentsFit, h]
  · simp [argumentsFit]; omega

/-! ### Witnesses: modes -/

/-- An edit copy with nodes 1 and 30 as given. -/
def pair (e f : NodeEntry) : Tables :=
  { Tables.empty with nodes := putNode (putNode Tables.empty.nodes 1 (some e)) 30 (some f) }

theorem node_pair (e f : NodeEntry) (a : Nat) (x : NodeEntry) (h : (pair e f).node a = some x) :
    (a = 1 ∧ x = e) ∨ (a = 30 ∧ x = f) := by
  unfold pair Tables.node at h
  simp only [atNode_putNode] at h
  split at h
  · next h1 => right; exact ⟨h1.1.symm, by simpa using h.symm⟩
  · split at h
    · next h1 => left; exact ⟨h1.1.symm, by simpa using h.symm⟩
    · have : atNode Tables.empty.nodes a = none ∨ atNode Tables.empty.nodes a = some none := by
        unfold atNode Tables.empty
        by_cases h0 : a = 0
        · simp [h0]
        · by_cases h1 : a - 1 < 30
          · right; rw [if_neg h0]; simp [h1]
          · left; rw [if_neg h0]; exact Vector.getElem?_eq_none (by omega)
      rcases this with h0 | h0 <;> rw [h0] at h <;> cases h

def editing (t : Tables) : State := { depot with responder := { depot.responder with edit := t } }

/-- The item that each test of R188 names: range at 30, overlap at 30, rule 47, the default rule, none; and in which mode. -/
theorem witness_SetModeRefusedOrWithoutSwitch :
    (∀ s, s.freeEntry = some 0 → ∀ b : Byte, (asking .setMode [b] s).Asks .setMode 7 [b] [] 0)
      ∧ (served.freeEntry = some 0 ∧ depot.freeEntry = some 0 ∧ served.responder.mode = .service
          ∧ depot.responder.mode = .depot) ∧ 1 < (2 : Byte).toNat
      ∧ (let t := pair fed { cell with shadowBase := 95, shadowCount := 2 };
          (t.node 30 = some { cell with shadowBase := 95, shadowCount := 2 }
              ∧ 96 < ({ cell with shadowBase := 95, shadowCount := 2 } : NodeEntry).shadowBase
                + ({ cell with shadowBase := 95, shadowCount := 2 } : NodeEntry).shadowCount)
            ∧ ∀ c e, c < 30 → t.node c = some e → e.shadowBase + e.shadowCount ≤ 96)
      ∧ (let t := pair fed { cell with shadowBase := 1 };
          (∀ a e, t.node a = some e → e.shadowBase + e.shadowCount ≤ 96)
            ∧ (t.node 1 = some fed ∧ t.node 30 = some { cell with shadowBase := 1 } ∧ fed.shadowBase ≤ 1
                ∧ 1 < fed.shadowBase + fed.shadowCount
                ∧ 1 < ({ cell with shadowBase := 1 } : NodeEntry).shadowBase + ({ cell with shadowBase := 1 } : NodeEntry).shadowCount)
            ∧ ∀ x y d e, x < y → y < 30 → t.node x = some d → t.node y ≠ some e)
      ∧ (∀ x y d e n, x < y → (pair fed cell).node x = some d → (pair fed cell).node y = some e →
          ¬ (d.shadowBase ≤ n ∧ n < d.shadowBase + d.shadowCount ∧ e.shadowBase ≤ n ∧ n < e.shadowBase + e.shadowCount))
      ∧ (ruleWith .forward (some 7) .queue .normal).valid = false ∧ (ruleWith .forward (some 7) .latest .normal).valid = true
      ∧ ({ Action.initial with part := { Action.initial.part with absent := .latest } } : Action).valid = false := by
  refine ⟨fun s hs b => asks _ _ _ rfl hs, ⟨free_served, free_depot, rfl, rfl⟩, by decide,
    ⟨⟨by decide +kernel, by decide⟩, fun c e hc he => ?_⟩,
    ⟨fun a e he => ?_, by decide +kernel, fun x y d e hxy hy hd he => ?_⟩, fun x y d e n hxy hd he => ?_,
    by decide, by decide, by decide⟩
  · obtain ⟨rfl, rfl⟩ | ⟨rfl, rfl⟩ := node_pair _ _ _ _ he
    · decide
    · omega
  · obtain ⟨rfl, rfl⟩ | ⟨rfl, rfl⟩ := node_pair _ _ _ _ he <;> decide
  · obtain ⟨rfl, rfl⟩ | ⟨rfl, rfl⟩ := node_pair _ _ _ _ hd <;>
      obtain ⟨h1, rfl⟩ | ⟨h1, rfl⟩ := node_pair _ _ _ _ he <;> omega
  · obtain ⟨rfl, rfl⟩ | ⟨rfl, rfl⟩ := node_pair _ _ _ _ hd <;>
      obtain ⟨rfl, rfl⟩ | ⟨rfl, rfl⟩ := node_pair _ _ _ _ he <;>
        first
        | omega
        | (simp [fed, cell]; omega)

/-- Nodes added to empty tables, removed, and kept; rule 47 and the default rule changed and unchanged. -/
theorem witness_SwitchMakesEditCopyActive :
    (let s := editing { plain with defaultAction := { Action.initial with verdict := .discard } };
      (asking .setMode [1] s).Asks .setMode 7 [1] [] 0 ∧ s.responder.mode = .depot ∧ s.responder.edit.firstFault = none
        ∧ s.tables.defaultAction ≠ s.responder.edit.defaultAction ∧ s.tables.rule 47 = s.responder.edit.rule 47
        ∧ s.tables.node 1 = some fed ∧ s.responder.edit.node 1 = some fed
        ∧ s.reserve 1 = some { estimate := 0, origin := 0, aged := false })
      ∧ (let s := editing Tables.empty;
          (asking .setMode [1] s).Asks .setMode 7 [1] [] 0 ∧ s.responder.edit.firstFault = none
            ∧ s.tables.rule 47 ≠ s.responder.edit.rule 47 ∧ s.tables.defaultAction = s.responder.edit.defaultAction
            ∧ s.tables.node 30 = some cell ∧ s.responder.edit.node 30 = none)
      ∧ (let s := { editing plain with tables := Tables.empty };
          (asking .setMode [1] s).Asks .setMode 7 [1] [] 0 ∧ s.responder.edit.firstFault = none ∧ s.tables.node 1 = none
            ∧ s.responder.edit.node 1 = some fed ∧ s.gapInProgress = false ∧ (inGap s).gapInProgress = true
            ∧ fed.supply = .fed) :=
  ⟨⟨asks _ _ _ rfl (by decide +kernel), by decide +kernel⟩, ⟨asks _ _ _ rfl (by decide +kernel), by decide +kernel⟩,
    ⟨asks _ _ _ rfl (by decide +kernel), by decide +kernel⟩⟩

/-- Only node 1 has a hold queue. -/
theorem holding_queue (l : List HoldEntry) (s : State) (hs : ∀ b, b < 31 → s.queue b = []) (b : Nat) (y : HoldEntry)
    (h : y ∈ (holding l s).queue b) : b = 1 ∧ y ∈ l := by
  by_cases hb : b < 31
  · simp only [State.queue, holding, atNode_putNode] at h
    split at h
    · next h1 => exact ⟨h1.1.symm, by simpa using h⟩
    · have := hs b hb
      rw [State.queue] at this
      rw [this] at h; cases h
  · rw [queue_above _ b (by omega)] at h; cases h

theorem depot_queue : ∀ b, b < 31 → depot.queue b = [] := by decide +kernel

/-- Node 1's cap lowered to 1 and to 0, its range changed and kept; its queue's second entry without a reservation and with
entry 22 RESERVED for it. -/
theorem witness_SwitchMakesEditCopyActive_keptNodes :
    let lowered := fun (c : Nat) => { plain with nodes := putNode plain.nodes 1 (some { fed with holdCap := c }) }
    let e := { heldFor .command (some 9) with reservation := none }
    let f := heldFor .command (some 9)
    let beyond := fun (l : List HoldEntry) (r : Runtime) => holding l (inDepot (egressBut [0, 3, 5] (bridge r)))
    let moved := { plain with nodes := putNode plain.nodes 1 (some { fed with shadowCount := 1 }) }
    ((lowered 1).node 1 = some { fed with holdCap := 1 } ∧ (lowered 0).node 1 = some { fed with holdCap := 0 }
        ∧ (lowered 1).firstFault = none ∧ (lowered 0).firstFault = none)
      ∧ (let s := beyond [e, e] (record .release .none);
          s.nodeState 1 = .release ∧ s.queue 1 ≠ [] ∧ (s.queue 1)[1]? = some e ∧ e.tag = some 9 ∧ e.reservation = none
            ∧ s.responder.mask = 0 ∧ s.segment.urgent ++ s.segment.normal = []
            ∧ (addresses.map (fun b => (s.queue b).length)).sum < s.egressFree)
      ∧ (∀ b y, y ∈ (holding [e, e] depot).queue b → y.reservation = none)
      ∧ (let s := beyond [e, f] (record .release .none);
          (s.queue 1)[1]? = some f ∧ f.reservation = some 22 ∧ s.trunk.egress[22]? = some .reserved)
      ∧ (∀ b y, y ∈ (holding [e, f] depot).queue b → y.reservation = some 22 → y = f)
      ∧ (moved.node 1 = some { fed with shadowCount := 1 } ∧ moved.firstFault = none ∧ fed.shadowCount ≠ 1
          ∧ plain.firstFault = none)
      ∧ (let s := captured .replay (record .replay (.ready .replay));
          let t := { s with shadow := { s.shadow with inFlight := putNode s.shadow.inFlight 1 (some ⟨0, false⟩) } };
          t.replayInFlight 1 = some ⟨0, false⟩ ∧ t.runtime 1 = some (record .replay (.ready .replay))
            ∧ ∀ k, (record .replay (.ready .replay)).step ≠ .inFlight k) := by
  refine ⟨by decide +kernel, by decide +kernel, fun b y h => ?_, by decide +kernel, fun b y h hr => ?_, by decide +kernel,
    by decide +kernel, by decide +kernel, nofun⟩
  · have := (holding_queue _ _ depot_queue b y h).2
    simp at this
    rw [this]
  · have := (holding_queue _ _ depot_queue b y h).2
    simp at this
    obtain rfl | rfl := this
    · cases hr
    · rfl

/-! ### Witnesses: the Image Store and the Table Store -/

theorem witness_StoreRequestsJoinOperationList :
    ((asking .storeTables [] served).Asks .storeTables 7 [] [] 0
        ∧ (∀ o ∈ served.store.operations, o.kind ≠ .tableWrite)
        ∧ ∃ o ∈ (tableWriting served).store.operations, o.kind = .tableWrite)
      ∧ (asking .storeTables [] (tableWriting served)).Asks .storeTables 7 [] [] 0
      ∧ (asking .imageOpen (List.replicate 9 0xFF) depot).Asks .imageOpen 7 (List.replicate 9 0xFF) [] 0
      ∧ (asking .imageBlock (List.replicate 130 0xFF) depot).Asks .imageBlock 7 (List.replicate 130 0xFF) [] 0
      ∧ (asking .imageClose [] depot).Asks .imageClose 7 [] [] 0
      ∧ (asking .imageDiscard [] depot).Asks .imageDiscard 7 [] [] 0
      ∧ (asking .imageDrop [0xFF] depot).Asks .imageDrop 7 [0xFF] [] 0 ∧ depot.responder.mode = .depot :=
  ⟨⟨asks _ _ _ rfl free_served, nofun, by decide +kernel⟩, asks _ _ _ rfl (by decide +kernel), asks _ _ _ rfl free_depot,
    asks _ _ _ (by decide +kernel) free_depot, asks _ _ _ rfl free_depot, asks _ _ _ rfl free_depot, asks _ _ _ rfl free_depot, rfl⟩

def someExtents : List Extent := [{ first := 0, length := 1 }, { first := 3, length := 8189 }]

theorem witness_FirstFitTakesLowestFreeRun :
    (0 < 2 ∧ (∀ e ∈ someExtents, 0 < e.length) ∧ someExtents.Pairwise (fun d e => d.first + d.length ≤ e.first))
      ∧ firstFit 2 8192 0 someExtents = some 1 ∧ firstFit 3 8192 0 someExtents = none
      ∧ firstFit 3 8195 0 someExtents = some 8192 := by decide

/-- An image of one block of 11h (section 1.4), and its catalogue entry. -/
def image : ImageEntry := { kind := 5, version := 2, length := 1, check := 0xAAAA4444, first := 4, damaged := false }

def block : List Byte := List.replicate 128 0x11

def staged (n : Nat) (written : List Nat) : StagedImage :=
  { kind := 5, version := 2, length := n, check := 0xAAAA4444, first := 4, written := written }

def ask7 : RequestRef := { tag := 7, reservation := 23, code := 0x40 }

/-- A bridge in DEPOT with an operation at the head, a staged image, and the entry of kind 5 in place 11 with a number of
readers. -/
def storing (k : OperationKind) (x : Option StagedImage) (readers : Option Nat) (p : Option Progress) : State :=
  { depot with
    store :=
      { depot.store with
        saved := true, staged := x, operations := [{ kind := k, request := some ask7 }], progress := p
        blocks := [(4, programmedBlock block)]
        access := p.map (fun _ => .operation)
        catalogue :=
          depot.store.catalogue.setIfInBounds 11 (readers.map (fun n => { image := image, readers := n })) } }

/-- Twelve entries of other kinds. -/
def full (s : State) : State :=
  { s with
    store :=
      { s.store with
        catalogue :=
          Vector.ofFn (fun i : Fin 12 =>
            some { image := { image with kind := u8 (20 + i.val), first := 100 + i.val }, readers := 0 }) } }

/-- A mark write, which answers no request, at the head. -/
def marking (p : Option Progress) : State :=
  let s := storing .markWrite none (some 1) p
  { s with store := { s.store with operations := [{ kind := .markWrite, request := none }] } }

/-- The switch met the operation at the head. -/
def cutBySwitch (s : State) : State := { s with store := { s.store with cut := true } }

theorem witness_OperationStartJudgesHead :
    (let s := storing (.imageOpen 5 2 4096 0) none (some 0) none;
      (s.store.operations = [{ kind := .imageOpen 5 2 4096 0, request := some ask7 }] ∧ s.store.access = none
          ∧ s.store.reads = [] ∧ s.store.progress = none ∧ s.responder.mode = .depot ∧ s.store.staged = none
          ∧ s.store.saved = true ∧ s.placeOfKind 5 = some 11 ∧ firstFit 4096 s.blockCount 0 s.extents = some 5
          ∧ firstFit 4096 s.blockCount 0 ({ first := 2000, length := 4096 } :: s.extents) = none)
        ∧ ((∀ p, p < 12 → (full s).place p ≠ none) ∧ (full s).placeOfKind 5 = none)
        ∧ ({ s with store := { s.store with saved := false } } : State).store.saved = false)
      ∧ (storing .imageClose (some (staged 1 [])) none none).store.staged ≠ none ∧ (0 < 1 ∧ 1 ≤ 4096 ∧ 4096 < 4097)
      ∧ ((staged 2 [0]).length ≤ 2 ∧ 1 < (staged 2 [0]).length)
      ∧ ((staged 2 [0]).written.length < (staged 2 [0]).length ∧ 1 ∉ (staged 2 [0]).written
          ∧ ∀ n, n < 1 → n ∈ (staged 2 [0]).written) ∧ (staged 2 [0, 1]).length ≤ (staged 2 [0, 1]).written.length
      ∧ ((storing (.imageDrop 6) none (some 0) none).placeOfKind 6 = none
          ∧ (storing (.imageDrop 5) none (some 1) none).place 11 = some { image := image, readers := 1 })
      ∧ ({ storing .tableWrite none none none with responder := served.responder } : State).responder.mode = .service
      ∧ (marking none).store.operations = [{ kind := .markWrite, request := none }]
      ∧ ((marking none).store.access = none ∧ (marking none).store.reads = [] ∧ (marking none).store.progress = none) := by
  decide +kernel

theorem witness_BlockProgramEndWritesBlock :
    let s := storing (.imageBlock 0 block) (some (staged 1 [])) none (some (.programming 0 4 block))
    s.store.access = some .operation ∧ s.store.progress = some (.programming 0 4 block)
      ∧ s.store.operations = [{ kind := .imageBlock 0 block, request := some ask7 }]
      ∧ s.store.staged = some (staged 1 []) ∧ s.store.cut = false ∧ 4 < s.blockCount ∧ ask7.reservation < 24
      ∧ (cutBySwitch s).store.cut = true := by
  decide +kernel

/-- A check-read of block `index` of an image of `n` blocks. -/
def checkReading (n index : Nat) (readers : Option Nat) : State :=
  storing .imageClose (some (staged n (List.range n))) readers (some (.checking (staged n (List.range n)) index (0, 0)))

theorem witness_CheckReadEndJudgesImage :
    (let s := checkReading 1 0 (some 0);
      s.store.access = some .operation ∧ s.store.progress = some (.checking (staged 1 [0]) 0 (0, 0))
        ∧ s.store.operations = [{ kind := .imageClose, request := some ask7 }] ∧ s.store.cut = false
        ∧ 4 + 0 < s.blockCount ∧ ask7.reservation < 24
        ∧ (readBlock s.store.blocks 4).check = check16 (readBlock s.store.blocks 4).data
        ∧ check32 (fletcher32From (0, 0) (readBlock s.store.blocks 4).data) = (staged 1 [0]).check
        ∧ check32 (fletcher32From (1, 0) (readBlock s.store.blocks 4).data) ≠ (staged 1 [0]).check
        ∧ s.placeOfKind 5 = some 11 ∧ s.place 11 = some { image := image, readers := 0 })
      ∧ (checkReading 1 0 (some 1)).place 11 = some { image := image, readers := 1 }
      ∧ (let s := checkReading 2 1 none;
          4 + 1 < s.blockCount ∧ (readBlock s.store.blocks 5).check ≠ check16 (readBlock s.store.blocks 5).data
            ∧ 0 + 1 < (staged 2 [0, 1]).length ∧ s.placeOfKind 5 = none ∧ s.place 0 = none ∧ s.place 11 = none)
      ∧ (cutBySwitch (checkReading 1 0 none)).store.cut = true := by
  decide +kernel

theorem witness_DirectoryWriteEndSavesOrFails :
    (let s := storing .imageClose none (some 0) (some (.committing 11 4));
      s.store.access = some .operation ∧ s.store.progress = some (.committing 11 4)
        ∧ (Progress.committing 11 4).writesDirectory = true
        ∧ s.store.operations = [{ kind := .imageClose, request := some ask7 }] ∧ ask7.reservation < 24)
      ∧ (Progress.dropping 11 image).writesDirectory = true ∧ Progress.opening.writesDirectory = true
      ∧ Progress.marking.writesDirectory = true
      ∧ (let s := fun n => storing (.imageOpen 5 2 n 0) none (some 0) (some .opening);
          let retaining := fun (s : State) (l : Nat) =>
            { s with store := { s.store with retained := some { first := 5, length := l } } };
          let fit := fun (s : State) (n : Nat) =>
            firstFit n s.blockCount 0 ({ s with store := { s.store with retained := none } } : State).extents;
          (cutBySwitch (s 1)).store.cut = true ∧ (s 1).store.cut = false
            ∧ (s 1).store.operations = [{ kind := .imageOpen 5 2 1 0, request := some ask7 }]
            ∧ fit (retaining (s 4096) 8000) 4096 = some 5 ∧ fit (s 8188) 8188 = none)
      ∧ ((marking (some .marking)).store.progress = some .marking ∧ (marking (some .marking)).responder.mask = 0
          ∧ ∀ o ∈ (marking (some .marking)).store.operations, o.request = none) := by
  decide +kernel

/-- A reset during a directory write, with the latest write in copy 0, in copy 1 and in none, and during a block program. -/
theorem witness_DirectoryLoadTakesNewerValidCopy_cutOff :
    let s := fun (k : Option CopyPlace) =>
      let u := storing .imageClose none (some 0) (some (.committing 11 4))
      { u with store := { u.store with latest := k, copy0 := some (copyOf 5), copy1 := some (copyOf 6) } }
    let u := storing (.imageBlock 0 block) (some (staged 1 [])) none (some (.programming 0 4 block))
    (∀ k, (s k).store.access = some .operation ∧ (s k).store.progress = some (.committing 11 4)
        ∧ (Progress.committing 11 4).writesDirectory = true ∧ (s k).store.copy0 = some (copyOf 5)
        ∧ (s k).store.copy1 = some (copyOf 6) ∧ ∃ t, exec (.reset low true) (s k) = .next t)
      ∧ ((s (some .copy0)).store.latest = some .copy0 ∧ (s (some .copy1)).store.latest ≠ some .copy0
          ∧ (s none).store.latest ≠ some .copy0)
      ∧ u.store.access = some .operation ∧ u.store.progress = some (.programming 0 4 block)
      ∧ (Progress.programming 0 4 block).writesDirectory = false ∧ ∃ t, exec (.reset low true) u = .next t :=
  ⟨fun _ => ⟨rfl, rfl, rfl, rfl, rfl, _, rfl⟩, ⟨rfl, nofun, nofun⟩, rfl, rfl, rfl, _, rfl⟩

theorem witness_TableWriteEndStoresTables :
    (tableWriting served).store.access = some .operation
      ∧ (tableWriting served).store.progress = some (.tableWriting plain)
      ∧ (tableWriting served).store.operations
          = [{ kind := .tableWrite, request := some { tag := 7, reservation := 23, code := 0x31 } }] := ⟨rfl, rfl, rfl⟩

/-- Node 1 in IMAGE with a session on place 11. -/
def session (n : Nat) (b : Option Nat) : Session :=
  { entry := 11, reported := none, next := 0, remaining := n, lastSent := .none, retries := 0, busyCount := 0, buffer := b
    request := .none, pollTime := none }

def loading (n : Nat) (b : Option Nat) (k : StepCondition) (x : Buffer) : State :=
  let s := storing .markWrite none (some 1) none
  { s with
    responder := served.responder
    store := { s.store with operations := [] }
    restore :=
      { s.restore with
        nodes :=
          putNode s.restore.nodes 1
            (some { record .image k with bootCount := some 3, session := some (session n b) })
        buffers := s.restore.buffers.setIfInBounds 3 x } }

/-- A read of block 4 into buffer 3; and the block as never programmed. -/
theorem witness_StoreReadEndFillsOrMarksDamaged :
    let s := loading 1 (some 3) .waiting (.reading 1)
    let t := { s with store := { s.store with access := some (.read { block := 4, buffer := 3 }) } }
    let v := cutBySwitch
      { t with
        store :=
          { t.store with
            progress := some (.checking (staged 2 [0, 1]) 1 (0, 0))
            operations := [{ kind := .imageClose, request := some ask7 }] } }
    (v.store.cut = true ∧ v.store.progress = some (.checking (staged 2 [0, 1]) 1 (0, 0))
        ∧ v.store.operations = { kind := .imageClose, request := some ask7 } :: []) ∧
    t.store.access = some (.read { block := 4, buffer := 3 }) ∧ t.store.cut = false ∧ 4 < t.blockCount
      ∧ t.restore.buffers[3]? = some (.reading 1)
      ∧ t.runtime 1 = some { record .image .waiting with bootCount := some 3, session := some (session 1 (some 3)) }
      ∧ (readBlock t.store.blocks 4).check = check16 (readBlock t.store.blocks 4).data
      ∧ (readBlock [] 4).check ≠ check16 (readBlock [] 4).data
      ∧ t.place 11 = some { image := image, readers := 1 } ∧ image.first ≤ 4 ∧ 4 < image.first + image.length
      ∧ (∀ p, p < 11 → t.place p = none) ∧ (t.runtime 30 = some (record .online .none) ∧ (record .online .none).session = none)
      ∧ (session 1 (some 3)).reported ≠ some ImageState.intact
      ∧ (let u := loading 1 none .waiting .draining;
          u.restore.buffers[3]? = some .draining ∧ u.restore.waiting = []
            ∧ (let v := { u with restore := { u.restore with waiting := [1] } };
                v.restore.waiting = 1 :: [] ∧ v.session 1 = some (session 1 none)
                  ∧ v.place (session 1 none).entry = some { image := image, readers := 1 })) := by decide +kernel

/-- Node 1's session has its buffer READING. -/
def readingSession : Session := { session 1 (some 3) with request := .reading }

def readingRecord : Runtime := { record .image .waiting with bootCount := some 3, session := some readingSession }

/-- Node 1's session waits for the read in progress into buffer 3, whose end is in front. -/
def transferring : State :=
  let s := loading 1 (some 3) .waiting (.reading 1)
  { s with
    pending := [.storeReadEnd false]
    store := { s.store with access := some (.read { block := 4, buffer := 3 }) }
    restore := { s.restore with nodes := putNode s.restore.nodes 1 (some readingRecord) } }

theorem transferring_runtime (a : Nat) (r : Runtime) (h : transferring.runtime a = some r) :
    (a = 1 ∧ r = readingRecord) ∨ (a = 30 ∧ r = record .online .none) := by
  have key : ∀ a, a < 31 → (match transferring.runtime a with
      | some r => decide ((a = 1 ∧ r = readingRecord) ∨ (a = 30 ∧ r = record .online .none))
      | none => true) = true := by decide +kernel
  by_cases ha : a < 31
  · have := key a ha
    rw [h] at this
    simpa using this
  · rw [runtime_above _ a (by omega)] at h; cases h

theorem transferring_session (a : Nat) (x : Session) :
    transferring.session a = some x ↔ a = 1 ∧ x = readingSession := by
  constructor
  · intro h
    rw [State.session] at h
    cases hr : transferring.runtime a with
    | none => rw [hr] at h; cases h
    | some r =>
      rw [hr] at h
      obtain ⟨rfl, rfl⟩ | ⟨rfl, rfl⟩ := transferring_runtime a r hr
      · exact ⟨rfl, by simpa [readingRecord] using h.symm⟩
      · cases h
  · rintro ⟨rfl, rfl⟩; decide +kernel

theorem transferring_buffer (b : Nat) : transferring.restore.buffers[b]? =
    if b = 3 then some (.reading 1) else if b < 4 then some .free else none := by
  by_cases h : b < 4
  · have : b = 0 ∨ b = 1 ∨ b = 2 ∨ b = 3 := by omega
    obtain rfl | rfl | rfl | rfl := this <;> decide +kernel
  · rw [if_neg (by omega), if_neg h]; exact Vector.getElem?_eq_none (by omega)

theorem transferring_sound : transferring.TransfersSound := by
  refine ⟨⟨forAllNodes (by decide +kernel) (fun a h => ?_), fun a r hr => ?_⟩, fun a r hr => ?_,
    ⟨by decide +kernel, fun h => absurd rfl h, fun a => ⟨fun h => absurd h (show a ∉ [] from List.not_mem_nil), ?_⟩,
      fun a x hx => ?_, fun b a h => ?_⟩,
    ⟨by decide +kernel, fun b => ?_⟩, ⟨fun i => ?_, fun i e h => ?_⟩⟩
  · rw [runtime_above _ a h, entry_above _ a h]; rfl
  · obtain ⟨rfl, rfl⟩ | ⟨rfl, rfl⟩ := transferring_runtime a r hr <;> decide
  · obtain ⟨rfl, rfl⟩ | ⟨rfl, rfl⟩ := transferring_runtime a r hr
    · refine ⟨by decide, nofun, ?_⟩
      rintro x ⟨⟩
      exact ⟨nofun, nofun, nofun, nofun, by decide, by decide⟩
    · exact ⟨by decide, nofun, nofun⟩
  · rintro ⟨x, hx, h⟩
    obtain ⟨rfl, rfl⟩ := (transferring_session a x).1 hx
    cases h
  · obtain ⟨rfl, rfl⟩ := (transferring_session a x).1 hx
    exact transferring_buffer 3
  · rw [transferring_buffer] at h
    split at h
    · next hb =>
      simp at h
      obtain rfl := h
      subst hb
      exact ⟨_, (transferring_session 1 _).2 ⟨rfl, rfl⟩, rfl⟩
    · split at h <;> simp at h
  · rw [transferring_buffer]
    have : transferring.readBuffers = [3] := by decide +kernel
    rw [this]
    by_cases h : b = 3
    · simp [h]
    · by_cases h4 : b < 4 <;> simp [h, h4]
  · by_cases h : i < 12
    · have key : ∀ i, i < 12 → (match transferring.place i with | some e => e.readers | none => 0)
          = (addresses.filter (fun a => (transferring.session a).any (fun x => x.entry == i))).length := by
        decide +kernel
      exact key i h
    · have h1 : transferring.place i = none := by
        have : transferring.store.catalogue[i]? = none := Vector.getElem?_eq_none (by omega)
        simp [State.place, this]
      rw [h1]
      symm
      show List.length _ = 0
      rw [List.length_eq_zero_iff, List.filter_eq_nil_iff]
      intro a _ hc
      obtain ⟨x, hx, he⟩ := (Option.any_eq_true _ _).1 hc
      obtain ⟨rfl, rfl⟩ := (transferring_session a x).1 hx
      simp [readingSession, session] at he
      omega
  · cases h

theorem witness_StepKeepsTransfersSound : transferring.TransfersSound ∧ ∃ t, step transferring = .next t :=
  ⟨transferring_sound, runs (by decide +kernel)⟩

/-! ### Witnesses: nodes and the engine -/

theorem witness_NodeIsolatedAndRestored :
    (∀ s, s.freeEntry = some 0 → ∀ b : Byte, (asking .isolateNode [b] s).Asks .isolateNode 7 [b] [] 0
        ∧ (asking .restoreNode [b] s).Asks .restoreNode 7 [b] [] 0)
      ∧ served.freeEntry = some 0 ∧ served.segment.restartPending = false
      ∧ (served.runtime (0 : Byte).toNat = none ∧ served.runtime (31 : Byte).toNat = none)
      ∧ served.runtime (1 : Byte).toNat = some (record .online .none)
      ∧ (bridge (record .isolated .none)).runtime 1 = some (record .isolated .none)
      ∧ ((record .isolated .none).bootCount = none ∧ (record .isolated .none).expected = none)
      ∧ (inGap served).gapInProgress = true ∧ served.isFed 1 = true :=
  ⟨fun _ h _ => ⟨asks _ _ _ rfl h, asks _ _ _ rfl h⟩, free_served, rfl, by decide +kernel, by decide +kernel,
    by decide +kernel, ⟨rfl, rfl⟩, rfl, by decide +kernel⟩

theorem witness_EngineRestartTakesEffect :
    (asking .restartEngine [] served).Asks .restartEngine 7 [] [] 0
      ∧ (let s := { served with segment := { (queued 1 served).segment with restartPending := true } };
          s.segment.restartPending = true ∧ s.transaction = none ∧ s.runtime 1 = some (record .online .none)
            ∧ ((s.segment.urgent ++ s.segment.normal).map (·.reservation)).Nodup
            ∧ (∀ e ∈ s.segment.urgent ++ s.segment.normal, e.reservation < 24)
            ∧ (∀ a h, h ∈ s.queue a → h.reservation ≠ some 23))
      ∧ (bridge (record .isolated .none)).runtime 1 = some (record .isolated .none)
      ∧ (let s := { transferring with segment := { transferring.segment with restartPending := true } };
          s.segment.restartPending = true ∧ s.transaction = none ∧ s.TransfersSound) := by
  refine ⟨asks _ _ _ rfl free_served, ⟨rfl, by decide +kernel, by decide +kernel, by decide +kernel, by decide +kernel,
    forAllNodes ?_ ?_⟩, by decide +kernel, rfl, rfl, transferring_sound⟩
  · have key : ∀ a, a < 31 →
        ({ served with segment := { (queued 1 served).segment with restartPending := true } } : State).queue a = [] := by
      decide +kernel
    intro a ha h hh
    rw [key a ha] at hh; cases hh
  · intro a ha h hh
    rw [State.queue, atNode_above _ a ha] at hh; cases hh

/-! ### Witnesses: the Gap Monitor -/

/-- A bridge at a clock value in a GAP condition; `present` is the level of the last sample. -/
def gapAt (clock : Time) (present : Bool) (c : GapCondition) (r : Runtime) : State :=
  let s := bridge r
  { s with gap := { s.gap with clock := clock, gapHigh := present, condition := c, gapSet := if present then [] else [1] } }

def noDebounce (s : State) : State := { s with tables := { s.tables with params := { s.tables.params with debounce := 0 } } }

theorem witness_GapEdgesGlitchesAndAgedMarks :
    (let s := gapAt 7 true .supplied (record .online .none);
      ¬ s.gap.gapHigh = s.straps.gapPol ∧ s.gap.condition = .supplied ∧ s.tables.params.debounce ≠ 0
        ∧ (noDebounce s).tables.params.debounce = 0)
      ∧ (let s := gapAt 7 false (.inGap 2) (record .suspect .none);
          s.gap.gapHigh = s.straps.gapPol ∧ s.gap.condition = .inGap 2 ∧ s.tables.params.debounce ≠ 0
            ∧ (noDebounce s).tables.params.debounce = 0)
      ∧ (let s := gapAt 7 true (.endPending 2 6 11) (record .suspect .none);
          ¬ s.gap.gapHigh = s.straps.gapPol ∧ s.gap.condition = .endPending 2 6 11)
      ∧ (let s := gapAt 7 false (.startPending 6 11) (record .online .none);
          s.gap.gapHigh = s.straps.gapPol ∧ s.gap.condition = .startPending 6 11)
      ∧ (let s := gapAt 1 false (.inGap 4294901762) (record .suspect .none);
          s.gap.condition = .inGap 4294901762 ∧ s.gap.clock = (4294901762 : Time) + 65535 ∧ s.gap.aged = false)
      ∧ (let s := gapAt 65535 true .supplied (record .online .none);
          s.reserve 1 = some { estimate := 0, origin := 0, aged := false } ∧ s.gap.clock = (0 : Time) + 65535) := by
  decide +kernel

/-- The expiry at clock 12 of an edge at 7, with the origin while pending, aged, and before the edge by 5 and by 70000. -/
theorem witness_GapStartRechargesAndSuspends :
    (let s := gapAt 12 true (.startPending 7 12) (record .replay (.inFlight .replay));
      s.gap.condition = .startPending 7 s.gap.clock ∧ s.entry 1 = some fed ∧ s.entry 30 = some cell
        ∧ fed.supply = .fed ∧ cell.supply = .battery
        ∧ s.runtime 1 = some (record .replay (.inFlight .replay))
        ∧ NodeState.replay ∉ [NodeState.suspect, .failed, .isolated, .unconfigured])
      ∧ ((12 - 7 : Time).toNat ≤ (12 - 7 : Time).toNat ∧ (7 - 7 : Time).toNat ≤ (12 - 7 : Time).toNat)
      ∧ ((12 - 7 : Time).toNat < (2 - 7 : Time).toNat ∧ min (7 - 2 : Time).toNat 65535 = 5)
      ∧ ((12 - 7 : Time).toNat < (4294897303 - 7 : Time).toNat ∧ min (7 - 4294897303 : Time).toNat 65535 = 65535)
      ∧ (bridge (record .failed .none)).runtime 1 = some (record .failed .none)
      ∧ (bridge (record .isolated .none)).runtime 1 = some (record .isolated .none) := by decide +kernel

/-- Node 1's reserve and record at a gap end at clock 505 after an edge at 500. -/
def gapEnding (estimate : Nat) (start : Time) (r : Runtime) : State :=
  let s := gapAt 505 false (.endPending start 500 505) r
  { s with
    gap := { s.gap with reserves := putNode s.gap.reserves 1 (some { estimate := estimate, origin := start, aged := false }) } }

/-- A member with each class at its ends (margin 20, d = 400: x = 20 and x = 19, x = −20 and −19), in each state named; the
close reached and not. -/
theorem witness_GapEndClassifiesMembers :
    (let s := gapEnding 420 100 { record .suspect .none with phase := some .online };
      s.gap.condition = .endPending 100 500 s.gap.clock ∧ s.GapSetSound ∧ 1 ∈ s.gap.gapSet ∧ 30 ∉ s.gap.gapSet
        ∧ s.reserve 1 = some { estimate := 420, origin := 100, aged := false }
        ∧ s.reserve 30 = some { estimate := 0, origin := 0, aged := false }
        ∧ s.runtime 1 = some { record .suspect .none with phase := some .online } ∧ s.gap.aged = false
        ∧ min (500 - 100 : Time).toNat 65535 = 400 ∧ s.tables.params.gapMargin = 20 ∧ s.entry 1 = some fed)
      ∧ ((20 : Int) ≤ 420 - 400 ∧ ¬ (20 : Int) ≤ 419 - 400 ∧ ((380 : Int) - 400 < 20 ∧ (380 : Int) - 400 ≤ -20)
          ∧ ¬ ((381 : Int) - 400 < 20 ∧ (381 : Int) - 400 ≤ -20))
      ∧ (gapEnding 380 100 { record .suspect .none with phase := some .config }).runtime 1
          = some { record .suspect .none with phase := some .config }
      ∧ (gapEnding 380 100 (record .failed .none)).runtime 1 = some (record .failed .none)
      ∧ (gapEnding 380 100 (record .isolated .none)).runtime 1 = some (record .isolated .none)
      ∧ reached 505 ((500 : Time) + BitVec.ofNat 32 (fed.bootMax * 10)) = false
      ∧ reached 2500 ((500 : Time) + BitVec.ofNat 32 (fed.bootMax * 10)) = true := by
  refine ⟨⟨by decide +kernel, by unfold State.GapSetSound; decide +kernel, by decide +kernel⟩, by decide, by decide +kernel,
    by decide +kernel, by decide +kernel, by decide +kernel, by decide +kernel⟩

/-! ### Witnesses: the Segment Master -/

/-- A pass entry for node 1. -/
def pass (kind : RequestKind) (u : Urgency) : PassEntry :=
  { tag := 7, destination := 1, kind := kind, function := 0x21, payload := [], rule := .rule 47
    action := { slot := none, absent := .refuse, urgency := u, replay := .replay }, live := [], misses := 0
    reservation := 23 }

/-- Sub-queues and a run count. -/
def waiting (urgent normal : List PassEntry) (runs : Nat) (s : State) : State :=
  { s with segment := { s.segment with urgent := urgent, normal := normal, runCount := runs, lastEntrance := 30 } }

/-- The treatments of a returned entry. -/
def returning (p : AbsentPolicy) (slot : Option Nat) : PassEntry :=
  { pass .command .normal with action := { slot := slot, absent := p, urgency := .normal, replay := .replay } }

/-- Node 1's queue below and at its cap, and the pool without a free entry; slot 1 and slot 2 of a range of 2; with and without a
gap; and at a gap start an entry of each treatment with a broadcast that waits. -/
theorem witness_ReturnedPassEntriesAreAnswered :
    (let s := bridge (record .suspect .none);
      s.entry (returning .refuse none).destination = some fed ∧ (returning .queue none).action.absent = .queue
        ∧ ((holding [heldFor .command none] s).queue 1).length < fed.holdCap
        ∧ 0 < (holding (List.replicate 127 (heldFor .command none)) s).holdFree
        ∧ fed.holdCap ≤ ((holding [heldFor .command none, heldFor .command none] s).queue 1).length
        ∧ (holding (List.replicate 128 (heldFor .command none)) s).holdFree = 0
        ∧ (returning .latest (some 1)).action.slot = some 1 ∧ 1 < fed.shadowCount ∧ fed.shadowCount ≤ 2
        ∧ fed.shadowBase + 1 < 96 ∧ (returning .refuse none).action.absent = .refuse ∧ s.gapInProgress = false
        ∧ (inGap s).gapInProgress = true)
      ∧ (let s := waiting
            [{ returning .refuse none with reservation := 0 }, { returning .queue none with reservation := 22 },
              { returning .latest (some 1) with reservation := 23 }]
            [{ pass .broadcast .normal with destination := 31, live := [1], reservation := 1 }]
            0 (gapAt 12 true (.startPending 7 12) (record .online .none));
          s.gap.condition = .startPending 7 s.gap.clock
            ∧ ((s.segment.urgent ++ s.segment.normal).map (·.reservation)).Nodup
            ∧ (∀ e ∈ s.segment.urgent, e.kind ≠ .broadcast ∧ e.reservation < 24 ∧ e.destination = 1)
            ∧ (s.entry 1 = some fed ∧ fed.supply = .fed
                ∧ s.nodeState 1 ∉ [NodeState.suspect, .failed, .isolated, .unconfigured])) := by
  decide +kernel

/-- Node 1 (ENTRANCE) or node 30 (INFO) with a step READY. -/
def readyInfo (k : StepCondition) (s : State) : State :=
  { s with restore := { s.restore with nodes := putNode s.restore.nodes 30 (some (record .probe k)) } }

/-- Each of the arbiter's six outcomes: the nodes with a READY step are 1, 30, or none. And the records that a start writes: a
replay with its first pending slot second in the list, a release with its head untagged, reserved, or to be reserved, an IMAGE
BLOCK and an IMAGE END. -/
theorem witness_TransactionStartTakesFirstCandidate :
    (let s := bridge (record .probe (.ready .probe));
      s.segment.line = .free ∧ s.segment.restartPending = false
        ∧ (waiting [pass .command .urgent] [] 0 s).segment.urgent = [pass .command .urgent]
        ∧ ((waiting [] [pass .command .normal] 4 s).tables.params.restoreRunLimit
            ≤ (waiting [] [pass .command .normal] 4 s).segment.runCount)
        ∧ ((waiting [] [pass .command .normal] 3 s).segment.runCount
            < (waiting [] [pass .command .normal] 3 s).tables.params.restoreRunLimit)
        ∧ ((waiting [] [] 0 s).segment.lastEntrance ≤ 30 ∧ s.entry 1 = some fed ∧ fed.cls = .entrance
            ∧ s.runtime 1 = some (record .probe (.ready .probe))
            ∧ s.stepFrame 1 .probe = some (plainStepFrame 1 .statusQuery [])))
      ∧ (let s := readyInfo (.ready .probe) served;
          s.entry 30 = some cell ∧ cell.cls = .info ∧ s.runtime 30 = some (record .probe (.ready .probe))
            ∧ s.stepFrame 30 .probe = some (plainStepFrame 30 .statusQuery []))
      ∧ (∀ a r, served.runtime a = some r → r.step = .none)
      ∧ (let s := holding [{ heldFor .command (some 9) with reservation := none }]
            (egressBut [] (bridge (record .release (.ready .release))));
          s.needsReservation 1 = true ∧ s.freeEntry = none)
      ∧ (let s := captured .replay (record .replay (.ready .replay));
          s.replayList 1 = [1] ++ 0 :: [] ∧ s.slotPending 1 = false ∧ (s.slot 0).map (·.marked) = some true
            ∧ (s.stepFrame 1 .replay).isSome = true)
      ∧ (let r := record .release (.ready .release);
          let h := { heldFor .command (some 9) with reservation := none };
          let s := fun h => holding [h] (egressBut [23] (bridge r));
          (s h).runtime 1 = some r ∧ (s h).queue 1 = h :: [] ∧ h.tag ≠ none ∧ h.reservation = none
            ∧ (s h).freeEntry = some 23 ∧ ((s h).stepFrame 1 .release).isSome = true
            ∧ (heldFor .command (some 9)).reservation ≠ none ∧ (heldFor .command none).tag = none)
      ∧ (let s := loading 1 (some 3) (.ready .imageBlock) (.filled 1 block);
          let t := loading 0 none (.ready .imageEnd) .free;
          (s.stepFrame 1 .imageBlock).isSome = true ∧ (t.stepFrame 1 .imageEnd).isSome = true
            ∧ s.session 1 = some (session 1 (some 3)) ∧ t.session 1 = some (session 0 none)) := by
  refine ⟨by decide +kernel, by decide +kernel, forAllNodes ?_ (fun a h r hr => ?_), by decide +kernel, by decide +kernel,
    by decide +kernel, by decide +kernel⟩
  · have key : ∀ a, a < 31 → (match served.runtime a with | some r => decide (r.step = .none) | none => true) = true := by
      decide +kernel
    intro a ha r hr
    have := key a ha
    rw [hr] at this
    simpa using this
  · rw [runtime_above _ a h] at hr; cases hr

/-- The buffer 3 filled for node 1's session, and the slots, queue and entries the other frames are made of. -/
theorem witness_RestoreStepFramesOnTheWire :
    (served.entry 1 = some fed ∧ served.responder.identity = none
        ∧ named.responder.identity = some { car := 9999, position := 8, orientation := .b })
      ∧ (let s := loading 1 (some 3) .waiting (.filled 1 block);
          s.session 1 = some (session 1 (some 3)) ∧ (session 1 (some 3)).buffer = some 3
            ∧ s.restore.buffers[3]? = some (.filled 1 block) ∧ s.place 11 = some { image := image, readers := 1 })
      ∧ (let s := captured .replay (record .replay (.ready .replay));
          s.replayList 1 = [1] ++ 0 :: [] ∧ (s.slot 1).map (·.marked) = some false ∧ (s.slot 0).map (·.marked) = some true)
      ∧ (let s := holding [heldFor .query none] served;
          s.queue 1 = heldFor .query none :: [] ∧ (heldFor .query none).kind = .query)
      ∧ (heldFor .broadcast none).kind ≠ .query := by decide +kernel

/-- A transaction to node 1. -/
def toNode (c : Carrier) (k : SegmentKind) : Transaction :=
  { carries := c, destination := 1, kind := k, timeout := some 20, destinationKept := true }

def onWire (l : Line) (s : State) : State := { s with segment := { s.segment with line := l } }

/-- A reply whose check characters are not those of what stands before. -/
def badReply : List Byte := [0, 1, 0x90, 0, 3, 0, 0, 0]

theorem badReply_fails (k : SegmentKind) (n : Nat) : ∃ r, collectReply badReply = some r ∧ r.Fails k n :=
  ⟨_, rfl, .inl (by decide +kernel)⟩

/-- A timeout, a bad reply, a character gap, and lengths 65 and 255 each end the transaction with a miss. -/
def MissesEachWay (t : Transaction) (s : State) : Prop :=
  (∃ m, (onWire (.awaiting t) s).Misses t .replyTimeout m)
    ∧ (∃ m, (onWire (.collecting t) s).Misses t (.replyReceived badReply) m)
    ∧ (∃ m, (onWire (.collecting t) s).Misses t .replyCharacterGap m)
    ∧ (∃ m, (onWire (.collecting t) s).Misses t (.replyLengthAbove64 65) m)
    ∧ ∃ m, (onWire (.collecting t) s).Misses t (.replyLengthAbove64 255) m

theorem misses (c : Carrier) (k : SegmentKind) (s : State) : MissesEachWay (toNode c k) s := by
  obtain ⟨r, h1, h2⟩ := badReply_fails k 1
  exact ⟨⟨_, .inl ⟨rfl, rfl, rfl⟩⟩, ⟨_, .inr (.inl ⟨badReply, r, rfl, rfl, h1, h2, rfl⟩)⟩,
    ⟨_, .inr (.inr ⟨20, .inl rfl, rfl, rfl, rfl⟩)⟩,
    ⟨_, .inr (.inr ⟨20, .inr ⟨65, by decide, rfl⟩, rfl, rfl, rfl⟩)⟩,
    ⟨_, .inr (.inr ⟨20, .inr ⟨255, by decide, rfl⟩, rfl, rfl, rfl⟩)⟩⟩

/-- Each test of R6 fails alone: the destination, the source, the kind, the length, a coded field. -/
theorem test_reply_fails_each_test :
    let reply := fun (d src k : Byte) (p : List Byte) =>
      let c := [d, src, k, 0, 3, u8 p.length] ++ p
      (collectReply (c ++ check16 c)).map (judgeReply .imageBlock 1)
    reply 0 1 0x91 [4] = some (.valid { kind := .blockToken, function := 0, marker := 3, payload := [4] })
      ∧ [reply 1 1 0x91 [4], reply 0 2 0x91 [4], reply 0 1 0x80 [], reply 0 1 0x91 [], reply 0 1 0x91 [5]]
        = List.replicate 5 (some .badCheck) := by decide +kernel

theorem witness_LineConditionsFollowTheFrame :
    (∀ l, (onWire l served).segment.line = l)
      ∧ ((toNode (.step 1) .statusQuery).carries = .step 1 ∧ (toNode (.step 1) .statusQuery).timeout = some 20)
      ∧ ((toNode (.pass (pass .broadcast .normal)) .broadcast).carries = .pass (pass .broadcast .normal)
          ∧ (pass .broadcast .normal).reservation < 24 ∧ (pass .broadcast .normal).live = [])
      ∧ (64 < (65 : Byte).toNat ∧ 64 < (255 : Byte).toNat)
      ∧ (∃ r, collectReply badReply = some r ∧ r.Fails .statusQuery 1)
      ∧ (let e := { pass .broadcast .normal with destination := 31, live := [1], action := (returning .queue (some 1)).action };
          let s := bridge (record .suspect .none);
          s.entry 1 = some fed ∧ 1 ∈ e.live ∧ (s.nodeState 1).isAbsent = true ∧ e.action.absent = .queue
            ∧ ((holding [heldFor .command none] s).queue 1).length < fed.holdCap
            ∧ (addresses.filter (fun b => decide (b ∈ e.live))).length
              ≤ (holding (List.replicate 127 (heldFor .command none)) s).holdFree
            ∧ e.action.slot = some 1 ∧ 1 < fed.shadowCount ∧ fed.shadowBase + 1 < 96
            ∧ (s.entry 30 = some cell ∧ 30 ∉ e.live ∧ cell.shadowBase ≠ fed.shadowBase)
            ∧ served.nodeState 1 = .online ∧ (returning .latest (some 1)).action.absent = .latest) :=
  ⟨fun _ => rfl, by decide, by decide, by decide, badReply_fails _ _, by decide +kernel⟩

/-- A valid reply of each kind; an ONLINE node with its count unknown, equal, changed; one miss within and beyond the
retries; the no-reply count below and at the threshold; no record; SUSPECT and PROBE. -/
theorem witness_PassTransactionEndsInAnswer :
    (∀ s, MissesEachWay (toNode (.pass (pass .command .normal)) .command) s)
      ∧ (let t := toNode (.pass (pass .command .normal)) .command;
      t.carries = .pass (pass .command .normal) ∧ t.destination = (pass .command .normal).destination
        ∧ t.kind = (pass .command .normal).kind.segment ∧ (pass .command .normal).kind ≠ .broadcast
        ∧ (pass .command .normal).reservation < 24 ∧ (onWire (.collecting t) served).segment.line = .collecting t
        ∧ (onWire (.awaiting t) served).segment.line = .awaiting t)
      ∧ (let v : Reply := { kind := .answer, function := 0x21, marker := 3, payload := longest };
          v.kind = .answer ∧ v.payload.length ≤ 64)
      ∧ ((pass .command .normal).action.slot = none ∧ (pass .command .urgent).action.urgency = .urgent)
      ∧ (served.runtime 1 = some (record .online .none) ∧ (record .online .none).bootCount = none)
      ∧ (let r := { record .release .none with bootCount := some 2 };
          (bridge r).runtime 1 = some r ∧ r.state ∈ [NodeState.online, .config, .replay, .release] ∧ (2 : Byte) ≠ 3
            ∧ ∀ q ∈ (bridge r).segment.urgent ++ (bridge r).segment.normal, q.reservation ≠ 23)
      ∧ (State.reset.runtime 1 = none ∧ served.nodeState 1 = .online)
      ∧ (0 + 1 ≤ served.tables.params.passRetries ∧ ¬ 1 + 1 ≤ served.tables.params.passRetries)
      ∧ (1 + 1 < served.tables.params.lostThreshold ∧ served.tables.params.lostThreshold ≤ 2 + 1)
      ∧ (∀ q ∈ served.segment.urgent ++ served.segment.normal, q.reservation ≠ 23)
      ∧ ((record .suspect .none).state = .suspect
          ∧ (record .probe .none).state ∉ [NodeState.suspect, .online, .unconfigured])
      ∧ (let e := returning .latest (some 1);
          let t := toNode (.pass e) .command;
          t.carries = .pass e ∧ e.action.slot = some 1 ∧ t.destinationKept = true ∧ served.entry 1 = some fed
            ∧ 1 < fed.shadowCount ∧ fed.shadowBase + 1 < 96 ∧ fed.shadowCount ≤ 2 ∧ served.slotPending 1 = false
            ∧ (captured .replay (record .suspect .none)).slotPending 0 = true
            ∧ NodeState.suspect ∉ [NodeState.online, .config, .replay, .release]) :=
  ⟨misses _ _, by decide +kernel⟩

/-! ### Witnesses: timers and restore -/

theorem witness_TimersActWhenReached :
    (let r := { record .missing .waiting with nextProbe := some 9 };
      (gapAt 9 true .supplied r).runtime 1 = some r ∧ r.nextProbe = some (gapAt 9 true .supplied r).gap.clock)
      ∧ (let r := { record .awaitBoot (.inFlight .probe) with window := some (5, 9) };
          (gapAt 9 true .supplied r).runtime 1 = some r ∧ r.window = some (5, (gapAt 9 true .supplied r).gap.clock))
      ∧ (let x := { session 1 (some 3) with pollTime := some 9 };
          let r := { record .image .waiting with session := some x };
          (gapAt 9 true .supplied r).runtime 1 = some r ∧ x.pollTime = some (gapAt 9 true .supplied r).gap.clock)
      ∧ (let e := { heldFor .command (some 9) with expiry := some 9 };
          let s := holding [e, e] (gapAt 9 true .supplied (record .probe .none));
          s.queue 1 = [e, e] ∧ (s.queue 1)[0]? = some e ∧ (s.queue 1)[1]? = some e ∧ e.expiry = some s.gap.clock
            ∧ e.inFlight = false ∧ e.reservation = some 22
            ∧ ({ e with reservation := none } : HoldEntry).reservation = none ∧ s.freeEntry = some 0)
      ∧ (let e := { heldFor .command none with expiry := some 9 };
          let s := holding [e] (gapAt 9 true .supplied (record .release (.ready .release)));
          s.queue 1 = [e] ∧ s.runtime 1 = some (record .release (.ready .release)) ∧ e.tag = none)
      ∧ (let e := { heldFor .command (some 9) with expiry := some 9 };
          let s := holding [e, e] (gapAt 9 true .supplied (record .release (.ready .release)));
          (s.queue 1)[0]? = some e ∧ (s.queue 1)[1]? = some e ∧ e.expiry = some s.gap.clock ∧ 1 < (s.queue 1).length
            ∧ s.runtime 1 = some (record .release (.ready .release)) ∧ e.inFlight = false) := by
  decide +kernel

/-- A reply to a step of node 1 is being collected. -/
def stepReply (k : SegmentKind) (s : State) : State := onWire (.collecting (toNode (.step 1) k)) s

theorem collects (k : SegmentKind) (s : State) : (stepReply k s).CollectsStep 1 k :=
  ⟨by omega, by omega, toNode (.step 1) k, rfl, rfl, rfl, rfl⟩

/-- Node 1 probed in PROBE or AWAIT_BOOT: count equal, changed or unknown; expected version absent, met or not; a catalogue
entry of its kind or none, sound or DAMAGED; each policy. -/
def probed (st : NodeState) (count : Option Byte) (expected : Option Word16) : Runtime :=
  { record st (.inFlight .probe) with bootCount := count, expected := expected, window := some (5, 9) }

def stocked (damaged : Bool) (s : State) : State :=
  { s with
    store :=
      { s.store with
        catalogue :=
          s.store.catalogue.setIfInBounds 11
            (some { image := { image with length := 4, damaged := damaged }, readers := 0 }) } }

def policed (p : ImagePolicy) (s : State) : State :=
  { s with tables := { s.tables with nodes := putNode s.tables.nodes 1 (some { fed with policy := p }) } }

/-- Node 1 with another boot window. -/
def windowed (least most : Nat) (s : State) : State :=
  { s with
    tables := { s.tables with nodes := putNode s.tables.nodes 1 (some { fed with bootMin := least, bootMax := most }) } }

/-- Each way to miss; step retries 2 at their end; a window that opens and closes later, that is open, and that has closed; a next
probe before, at and after close. -/
theorem witness_MissedProbesFollowTheState :
    let t := toNode (.step 1) .statusQuery
    (∀ l r, (onWire l (bridge r)).segment.line = l ∧ (onWire l (bridge r)).runtime 1 = some r
        ∧ (onWire l (bridge r)).entry 1 = some fed)
      ∧ t.carries = .step 1 ∧ (∀ s, MissesEachWay t s)
      ∧ (∀ st n x, (probed st n x).step = .inFlight .probe ∧ (probed st n x).state = st
          ∧ (probed st n x).window = some (5, 9))
      ∧ (served.tables.params = Params.initial ∧ 1 + 1 ≤ Params.initial.stepRetries ∧ Params.initial.stepRetries < 2 + 1)
      ∧ (windowed 0 0 served).entry 1 = some { fed with bootMin := 0, bootMax := 0 }
      ∧ (reached 0 (0 + BitVec.ofNat 32 (fed.bootMin * 10)) = false ∧ reached 0 (0 + BitVec.ofNat 32 (0 * 10)) = true
          ∧ reached 0 (0 + BitVec.ofNat 32 (fed.bootMax * 10)) = false)
      ∧ (reached 50 49 = true ∧ reached 50 50 = true ∧ reached 50 51 = false) :=
  ⟨fun _ _ => ⟨rfl, rfl, rfl⟩, rfl, misses _ _, fun _ _ _ => ⟨rfl, rfl, rfl⟩, by decide,
    by decide +kernel, by decide, by decide⟩

/-- An ORPHANED step in each state, and a node without a record; the entry in flight due, not due, and with no expiry; the first
entry and the second. -/
theorem witness_OrphanedStepsEndWithoutEffect :
    (∀ l st, (onWire l (bridge (record st .orphaned))).segment.line = l
        ∧ (bridge (record st .orphaned)).runtime 1 = some (record st .orphaned) ∧ (record st .orphaned).state = st)
      ∧ ((toNode (.step 1) .command).carries = .step 1 ∧ State.reset.runtime 1 = none)
      ∧ (∀ s, MissesEachWay (toNode (.step 1) .command) s)
      ∧ (let h := { heldFor .command (some 9) with inFlight := true };
          let s := fun l => holding l (bridge (record .suspect .orphaned));
          ((s [heldFor .command none, h]).queue 1)[1]? = some h ∧ h.inFlight = true ∧ h.tag = some 9
            ∧ h.reservation = some 22 ∧ h.expiry = some 0 ∧ reached 0 0 = true ∧ reached 0 1 = false
            ∧ ((s [heldFor .command none, h]).queue 1)[0]? = some (heldFor .command none)
            ∧ (heldFor .command none).inFlight = false ∧ (s []).nodeState 1 ≠ .release ∧ (s []).responder.mask = 0
            ∧ ({ h with expiry := none } : HoldEntry).expiry = none)
      ∧ (let s := captured .replay (record .replay .orphaned);
          s.hasPending 1 = true ∧ (bridge (record .replay .orphaned)).hasPending 1 = false) :=
  ⟨fun _ _ => ⟨rfl, rfl, rfl⟩, ⟨rfl, by decide +kernel⟩, misses _ _, by decide +kernel, by decide +kernel⟩

theorem witness_StatusReportIsReconciled :
    (∀ s, (stepReply .statusQuery s).CollectsStep 1 .statusQuery)
      ∧ (let s := stocked false (bridge (probed .probe none none));
          s.entry 1 = some fed ∧ s.runtime 1 = some (probed .probe none none)
            ∧ (probed .probe none none).state ∈ [NodeState.probe, .awaitBoot, .missing] ∧ 4095 ≤ 4095
            ∧ (probed .probe none none).bootCount ≠ some 3 ∧ (probed .probe (some 3) none).bootCount = some 3
            ∧ (probed .awaitBoot (some 3) (some 2)).expected = some 2 ∧ (6 : Byte) ≠ fed.kind
            ∧ (s.placeOfKind 5 = some 11
                ∧ s.place 11 = some { image := { image with length := 4 }, readers := 0 }) ∧ 3 < 4
            ∧ (policed .keep s).entry 1 = some { fed with policy := .keep }
            ∧ (policed .none s).entry 1 = some { fed with policy := .none })
      ∧ ((probed .probe (some 3) (some 2)).expected = some 2 ∧ (probed .awaitBoot (some 3) (some 2)).window = some (5, 9)
          ∧ (windowed 0 200 served).entry 1 = some { fed with bootMin := 0, bootMax := 200 }
          ∧ (windowed 0 0 served).entry 1 = some { fed with bootMin := 0, bootMax := 0 }
          ∧ reached 0 (0 + BitVec.ofNat 32 (fed.bootMin * 10)) = false ∧ reached 0 (0 + BitVec.ofNat 32 (0 * 10)) = true
          ∧ reached 0 (0 + BitVec.ofNat 32 (200 * 10)) = false)
      ∧ ((probed .missing (some 3) (some 2)).state = .missing ∧ (probed .missing (some 3) (some 2)).bootCount = some 3
          ∧ Params.initial.imageAttempts ≤ 1 + 1 ∧ 0 + 1 < Params.initial.imageAttempts
          ∧ (2 : Word16) ≠ 3 ∧ ImageState.absent ≠ .intact)
      ∧ (∀ n c, ¬ ((stocked true served).placeOfKind 5 = some n ∧ (stocked true served).place n = some c
          ∧ c.image.damaged = false))
      ∧ served.placeOfKind 5 = none := by
  refine ⟨collects _, by decide +kernel, by decide +kernel, by decide, fun n c h => ?_, by decide +kernel⟩
  have h1 : (stocked true served).placeOfKind 5 = some 11 := by decide +kernel
  have h2 : (stocked true served).place 11
      = some { image := { image with length := 4, damaged := true }, readers := 0 } := by decide +kernel
  obtain ⟨ha, hb, hc⟩ := h
  rw [h1] at ha; cases ha
  rw [h2] at hb; cases hb
  cases hc

/-- Slot 0 of node 1 is on the wire as a replay. -/
def replayed (s : State) : State :=
  { s with shadow := { s.shadow with inFlight := putNode s.shadow.inFlight 1 (some ⟨0, false⟩) } }

/-- The replayed slot captured into, and the other. -/
theorem test_capture_marks_replayed_slot :
    let s := replayed (captured .replay (record .replay (.inFlight .replay)))
    let c : CapturedFrame := { rule := .rule 47, policy := .replay, kind := .command, function := 0x21, payload := [] }
    (capture 1 0 c true s).1.replayInFlight 1 = some ⟨0, true⟩
      ∧ (capture 1 0 c false s).1.replayInFlight 1 = some ⟨0, false⟩
      ∧ (capture 1 1 c true s).1.replayInFlight 1 = some ⟨0, false⟩ := by decide +kernel

theorem witness_ConfigReplayReleaseAndCapture :
    (∀ k s, (stepReply k s).CollectsStep 1 k)
      ∧ (let r := { record .config (.inFlight .config) with bootCount := some 3 };
          (bridge r).runtime 1 = some r ∧ r.step = .inFlight .config ∧ r.bootCount = some 3
            ∧ 1 + 1 ≤ (bridge r).tables.params.stepRetries ∧ (bridge r).tables.params.stepRetries < 2 + 1)
      ∧ (let r := { record .replay (.inFlight .replay) with bootCount := some 3 };
          let s := captured .replay r;
          let t := { s with shadow := { s.shadow with inFlight := putNode s.shadow.inFlight 1 (some ⟨0, true⟩) } };
          t.runtime 1 = some r ∧ t.replayInFlight 1 = some ⟨0, true⟩ ∧ (t.slot 0).isSome = true ∧ 0 ∈ t.replayList 1)
      ∧ (let r := { record .release (.inFlight .release) with bootCount := some 3 };
          let s := holding [heldFor .command (some 9)] (bridge r);
          s.queue 1 = heldFor .command (some 9) :: [] ∧ (heldFor .command (some 9)).tag = some 9
            ∧ (heldFor .command (some 9)).reservation = some 22 ∧ (heldFor .command (some 9)).node = 1
            ∧ (heldFor .command (some 9)).slot = none ∧ longest.length ≤ 64)
      ∧ (served.entry 1 = some fed ∧ 1 < fed.shadowCount ∧ fed.shadowBase + 1 < 96 ∧ fed.shadowCount ≤ 2)
      ∧ (let s := replayed (captured .replay (record .replay (.inFlight .replay)));
          s.replayInFlight 1 = some ⟨0, false⟩ ∧ fed.shadowBase + 0 = 0 ∧ fed.shadowBase + 1 ≠ 0)
      ∧ (∀ s, MissesEachWay (toNode (.step 1) .config) s) :=
  ⟨collects, by decide +kernel, by decide +kernel, by decide +kernel, by decide +kernel, by decide +kernel,
    misses _ _⟩

theorem witness_ImageTokensDriveTransfer :
    (∀ k s, (stepReply k s).CollectsStep 1 k)
      ∧ (let s := loading 1 (some 3) (.inFlight .imageBlock) (.filled 1 block);
          s.entry 1 = some fed ∧ s.runtime 1
              = some { record .image (.inFlight .imageBlock) with
                  bootCount := some 3, session := some (session 1 (some 3)) }
            ∧ (session 1 (some 3)).buffer = some 3 ∧ (session 1 (some 3)).remaining = 1 ∧ 1 < (session 2 (some 3)).remaining
            ∧ s.readPending 3 = false ∧ s.restore.waiting = []
            ∧ (session 1 (some 3)).retries + 1 ≤ s.tables.params.blockRetries
            ∧ s.tables.params.imageAttempts ≤ 1 + 1)
      ∧ (let s := loading 0 none (.inFlight .imageEnd) .free;
          s.place 11 = some { image := image, readers := 1 } ∧ (session 0 none).buffer = none
            ∧ reached s.gap.clock (s.gap.clock + BitVec.ofNat 32 (fed.bootMax * 10)) = false)
      ∧ (∀ s, MissesEachWay (toNode (.step 1) .imageBlock) s) :=
  ⟨collects, by decide +kernel, by decide +kernel, misses _ _⟩

/-- Node 1 in IMAGE with a step in flight. -/
def transfers (k : StepKind) (x : Session) (attempts : Nat) : Runtime :=
  { record .image (.inFlight k) with bootCount := some 3, attempts := attempts, session := some x }

def sent (k : StepKind) (x : Session) (attempts : Nat) : State :=
  let s := loading 1 (some 3) .waiting (.filled 1 block)
  { s with restore := { s.restore with nodes := putNode s.restore.nodes 1 (some (transfers k x attempts)) } }

/-- Block retries 3, attempts limit 2 and busy limit 50 (R186), each at its end and one below; every kind of frame last sent. -/
theorem witness_PollsFailuresAndChangedMarkersInImage :
    (∀ k s, (stepReply k s).CollectsStep 1 k)
      ∧ (∀ k x n, (sent k x n).entry 1 = some fed ∧ (sent k x n).runtime 1 = some (transfers k x n)
          ∧ (transfers k x n).state = .image ∧ (transfers k x n).step = .inFlight k
          ∧ (transfers k x n).session = some x ∧ (transfers k x n).bootCount = some 3
          ∧ (sent k x n).place 11 = some { image := image, readers := 1 } ∧ (sent k x n).tables.params = Params.initial)
      ∧ ((toNode (.step 1) .busyPoll).carries = .step 1 ∧ (session 1 (some 3)).entry = 11)
      ∧ (∀ k s, MissesEachWay (toNode (.step 1) k) s)
      ∧ (let p := Params.initial;
          (p.blockRetries < 3 + 1 ∧ ¬ p.blockRetries < 2 + 1) ∧ (p.imageAttempts ≤ 1 + 1 ∧ 0 + 1 < p.imageAttempts)
            ∧ (48 + 1 < p.busyLimit ∧ p.busyLimit ≤ 49 + 1))
      ∧ (({ session 1 (some 3) with lastSent := .block } : Session).lastSent = .block ∧ 0 < (session 1 (some 3)).remaining
          ∧ ({ session 0 none with lastSent := .imageEnd } : Session).lastSent = .imageEnd)
      ∧ ((StepKind.imageBlock, SegmentKind.imageBlock) ∈ [(StepKind.imageBlock, SegmentKind.imageBlock)]
          ∧ (2 : Byte) ≠ 3 ∧ (0 : Byte).toNat ≤ 4 ∧ (4 : Byte).toNat ≤ 4) :=
  ⟨collects, fun _ _ _ => ⟨rfl, rfl, rfl, rfl, rfl, rfl,
    (by decide +kernel : (loading 1 (some 3) .waiting (.filled 1 block)).place 11 = some { image := image, readers := 1 }),
    rfl⟩, by decide, misses _, by decide, by decide, by decide⟩

/-- Step retries 2 and pass retries 1 (R186) at their ends; a slot pending and none; a head tagged and untagged, alone and before
another, with a slot, its slot pending or not; the marker unchanged and changed. -/
theorem witness_StepMissesMarkersAndReleaseReplies :
    (∀ k s, (stepReply k s).CollectsStep 1 k)
      ∧ (∀ k s, (toNode (.step 1) k).carries = .step 1 ∧ MissesEachWay (toNode (.step 1) k) s)
      ∧ (let p := Params.initial; plain.params = p ∧ 1 + 1 ≤ p.stepRetries ∧ p.stepRetries < 2 + 1 ∧ 0 + 1 ≤ p.passRetries
          ∧ p.passRetries < 1 + 1)
      ∧ (let r := { record .replay (.inFlight .replay) with bootCount := some 3 };
          let s := captured .replay r;
          let t := { s with shadow := { s.shadow with inFlight := putNode s.shadow.inFlight 1 (some ⟨0, true⟩) } };
          t.runtime 1 = some r ∧ r.step = .inFlight .replay ∧ r.state = .replay ∧ t.hasPending 1 = true
            ∧ (bridge r).hasPending 1 = false ∧ t.replayInFlight 1 = some ⟨0, true⟩ ∧ (t.slot 0).isSome = true)
      ∧ (let r := { record .release (.inFlight .release) with bootCount := some 3 };
          let h := heldFor .command (some 9);
          (holding [h, h] (bridge r)).runtime 1 = some r ∧ r.step = .inFlight .release ∧ r.state = .release
            ∧ (holding [h] (bridge r)).queue 1 = h :: [] ∧ (holding [h, h] (bridge r)).queue 1 = h :: [h]
            ∧ h.tag = some 9 ∧ h.reservation = some 22 ∧ h.slot = none ∧ (heldFor .query none).tag = none
            ∧ ({ h with slot := some 1 } : HoldEntry).slot = some 1
            ∧ (bridge r).entry 1 = some fed ∧ 1 < fed.shadowCount ∧ fed.shadowBase + 1 < 96
            ∧ (bridge r).slotPending 1 = false ∧ (captured .replay r).slotPending 0 = true)
      ∧ (let r := { record .config (.inFlight .config) with bootCount := some 3 };
          (bridge r).runtime 1 = some r ∧ r.bootCount = some 3 ∧ (3 : Byte) ≠ 4)
      ∧ (let v : Reply := { kind := .accept, function := 0x21, marker := 4, payload := [] };
          let w : Reply := { kind := .refuse, function := 0x21, marker := 3, payload := [1] };
          let x : Reply := { kind := .answer, function := 0x21, marker := 3, payload := longest };
          (v.kind = .accept ∧ v.payload = []) ∧ (w.kind = .refuse ∧ w.payload.length = 1)
            ∧ (x.kind = .answer ∧ x.payload.length ≤ 64) ∧ RequestKind.command ≠ .query) :=
  ⟨collects, fun k s => ⟨rfl, misses _ k s⟩, by decide +kernel, by decide +kernel,
    by decide +kernel, by decide +kernel, by decide +kernel⟩

/-! ### Worked cases of the chapters -/

def worknode (c : NodeClass) (h r o x : Nat) : NodeEntry :=
  { fed with cls := c, holdup := h, recharge := r, bootMin := o, bootMax := x, shadowCount := 0 }

/-- The four FED nodes of chapter 2's worked case, ONLINE, with their estimates and one origin. -/
def fourNodes (clock : Time) (c : GapCondition) (st : NodeState) (origin : Time) (e3 e4 e9 e11 : Nat) : State :=
  let put := fun {α : Type} (v : PerNode (Option α)) (a b d e : α) =>
    putNode (putNode (putNode (putNode v 3 (some a)) 4 (some b)) 9 (some d)) 11 (some e)
  let r := { record st .none with phase := if st = .suspect then some .online else none }
  let z := fun n : Nat => ({ estimate := n, origin := origin, aged := false } : Reserve)
  { State.reset with
    tables :=
      { Tables.empty with
        nodes := put Tables.empty.nodes (worknode .entrance 800 30000 100 600) (worknode .entrance 300 5000 100 600)
          (worknode .info 0 1 150 900) (worknode .info 400 10000 150 900) }
    restore := { State.reset.restore with nodes := put State.reset.restore.nodes r r r r }
    gap :=
      { State.reset.gap with
        clock := clock, condition := c, gapSet := if c.inProgress then [3, 4, 9, 11] else []
        reserves := put State.reset.gap.reserves (z e3) (z e4) (z e9) (z e11) } }

def estimates (s : State) : List (Option Nat) := [3, 4, 9, 11].map (fun a => (s.reserve a).map (·.estimate))

/-- Section 2.5's worked case: the recharge, and the states, at the gap start; and after half a second between gaps. -/
theorem test_gapStart_worked :
    (let t := afterCommand .gapStart (fourNodes 112005 (.startPending 112000 112005) .online 100000 0 300 0 400);
      estimates t = [some 320, some 300, some 0, some 400] ∧ t.gap.gapSet = [3, 4, 9, 11] ∧ t.nodeState 9 = .suspect)
      ∧ estimates (afterCommand .gapStart (fourNodes 112795 (.startPending 112790 112795) .online 112290 30 10 0 110))
          = [some 43, some 40, some 0, some 130] := by decide +kernel

/-- Section 2.6's worked case: d = 290, classes SURVIVED, UNCERTAIN, LOST, SURVIVED; node 9's window from the end time; and the
second gap, d = 40. -/
theorem test_gapEnd_worked :
    (let t := afterCommand .gapEnd (fourNodes 112295 (.endPending 112000 112290 112295) .suspect 112000 320 300 0 400);
      estimates t = [some 30, some 10, some 0, some 110] ∧ t.gap.lastD = 290
        ∧ [3, 4, 9, 11].map t.nodeState = [.online, .probe, .awaitBoot, .online]
        ∧ (t.runtime 9).map (·.window) = some (some (113790, 121290)))
      ∧ (let t := afterCommand .gapEnd (fourNodes 112835 (.endPending 112790 112830 112835) .suspect 112790 43 40 0 130);
          estimates t = [some 3, some 0, some 0, some 90] ∧ t.gap.lastD = 40
            ∧ [3, 4, 9, 11].map t.nodeState = [.probe, .probe, .awaitBoot, .online]) := by decide +kernel

/-- The gap across the clock wrap: d = 496. -/
theorem test_gap_across_wrap : saturatedDiff 200 4294967000 = 496 := by decide

/-- Chapter 5's eight requests against one rule table: the rule that each matches. -/
def eightRules : Tables :=
  let rule := fun (x : Option Nat) (c q b : Bool) (lo hi : Byte) (sel : Option Selector) =>
    some
      ({ set := x, onCommand := c, onQuery := q, onBroadcast := b, low := lo, high := hi, selector := sel
         action := Action.initial } : Rule)
  { Tables.empty with
    sets := (Tables.empty.sets.setIfInBounds 0 [3, 4]).setIfInBounds 1 [9, 11]
    rules :=
      (((Tables.empty.rules.setIfInBounds 0 (rule (some 0) true false false 0x40 0x4F none)).setIfInBounds 1
        (rule none true true false 0xF0 0xFF none)).setIfInBounds 2
        (rule (some 1) true false true 0x20 0x2F (some { index := 0, value := 0x80, mask := 0x80 }))).setIfInBounds 3
        (rule none true true true 0x00 0x7F none) }

theorem test_eight_requests :
    ([(3, RequestKind.command, 0x42, [0, 0]), (4, .command, 0x42, [0, 0]), (9, .command, 0x25, [0x80]),
        (9, .command, 0x25, [0x00]), (7, .query, 0xF3, []), (7, .query, 0x10, []), (20, .query, 0x90, []),
        (11, .command, 0x25, []), (31, .broadcast, 0x05, [])] : List (Nat × RequestKind × Byte × List Byte)).map
      (fun x => eightRules.firstMatch
        { tag := 0, destination := x.1, kind := x.2.1, function := x.2.2.1, payload := x.2.2.2 })
      = [some 0, some 0, some 2, some 3, some 1, some 3, none, some 3, some 3] := by decide +kernel

/-- Chapter 10's switch refused: nodes 3 (10..12) and 11 (11..12) overlap, item overlap at address 11; 13..14 does not. -/
theorem test_setMode_overlap :
    let t := fun (b : Nat) =>
      { Tables.empty with
        nodes := putNode (putNode Tables.empty.nodes 3 (some { fed with shadowBase := 10, shadowCount := 3 })) 11
          (some { fed with shadowBase := b, shadowCount := 2 }) }
    (t 11).firstFault = some (2, 11) ∧ (t 13).firstFault = none := by decide +kernel

/-- Chapter 10's clamps: call interval 2 becomes 5, debounce 80 becomes 50. -/
theorem test_writeParameters_clamps :
    (parseParams ((paramsRecord Params.initial).set 10 2 |>.set 9 80)).callInterval = 5
      ∧ (parseParams ((paramsRecord Params.initial).set 10 2 |>.set 9 80)).debounce = 50 := by decide +kernel

/-- Chapter 9's allocations in an 8192-block store, before and after the commit. -/
theorem test_firstFit_worked :
    (let l : List Extent := [⟨0, 1000⟩, ⟨1024, 600⟩, ⟨2000, 3000⟩];
      firstFit 620 8192 0 l = some 5000)
      ∧ (let l : List Extent := [⟨0, 1000⟩, ⟨2000, 3000⟩, ⟨5000, 620⟩];
          [firstFit 900 8192 0 l, firstFit 1200 8192 0 l, firstFit 2600 8192 0 l] = [some 1000, some 5620, none]) := by
  decide

/-- Chapter 6's replay that was overtaken: the mark stays where the slot was replaced, and goes where it was not. -/
theorem test_replay_replaced :
    let r := { record .replay (.inFlight .replay) with bootCount := some 3 }
    let s := captured .replay r
    let reply := Instr.replyReceived (replyChars 1 { kind := .accept, function := 0x21, marker := 3, payload := [] })
    let ended := fun (b : Bool) =>
      afterCommand reply
        (stepReply .command { s with shadow := { s.shadow with inFlight := putNode s.shadow.inFlight 1 (some ⟨0, b⟩) } })
    ((ended true).slot 0).map (·.marked) = some true ∧ (ended true).nodeState 1 = .replay
      ∧ ((ended false).slot 0).map (·.marked) = some false ∧ (ended false).nodeState 1 = .online := by decide +kernel

/-- Chapter 7's cap lowered under a full queue: E5, E4 and E3 go, in this order, and E1 and E2 stay. -/
theorem test_trim_order :
    let e := fun (n : Nat) => { heldFor .command (some (BitVec.ofNat 16 n)) with reservation := none }
    let t := trimQueue 1 2 (holding [e 1, e 2, e 3, e 4, e 5] served)
    t.queue 1 = [e 1, e 2]
      ∧ (List.range 3).map (fun i => t.trunk.egress[i]?)
        = [5, 4, 3].map (fun n : Nat =>
            some (.waiting { kind := 0x43, tag := BitVec.ofNat 16 n, outcome := 0x22, body := [1] })) := by
  decide +kernel

/-- R170: a dropped read that errs raises the flag and marks the entry, and the entry's live session goes on. -/
theorem test_storeReadEnd_dropped_error :
    let s := loading 1 none .waiting .draining
    let t := afterCommand (.storeReadEnd true)
      { s with store := { s.store with access := some (.read { block := 4, buffer := 3 }) } }
    t.nodeState 1 = .image ∧ (t.place 11).map (·.image.damaged) = some true ∧ t.flagSet .storeReadError = true
      ∧ t.restore.buffers[3]? = some .free := by decide +kernel

/-- R174: a program that ends with a write error leaves the content of the last good program. -/
theorem test_blockProgramEnd_error :
    let s := storing (.imageBlock 0 block) (some (staged 1 [0])) none (some (.programming 0 4 (List.replicate 128 0x22)))
    let t := afterCommand (.blockProgramEnd true) s
    (readBlock t.store.blocks 4).data = block ∧ t.store.staged = some (staged 1 []) := by decide +kernel

/-- R163 and R179: at an engine restart a FILLED buffer falls FREE though node 30's session waits, and no read starts. -/
theorem test_engineRestart_grants_nothing :
    let s := loading 1 (some 3) .waiting (.filled 1 block)
    let r := { record .image .waiting with session := some { session 1 none with request := .waitingList } }
    let t := afterCommand .engineRestartEffect
      { s with
        segment := { s.segment with restartPending := true }
        restore := { s.restore with waiting := [30], nodes := putNode s.restore.nodes 30 (some r) } }
    t.restore.buffers[3]? = some .free ∧ t.restore.waiting = [] ∧ t.store.access = none ∧ t.store.reads = [] := by
  decide +kernel

/-- R123: the frame that the switch captured for a new node in a slot of a removed node's range is cleared with that range. -/
theorem test_switch_clears_old_range :
    let t : Tables := { plain with nodes := putNode (putNode plain.nodes 1 none) 2 (some { fed with shadowCount := 1 }) }
    let u := tableSwitch (waiting [] [{ returning .latest (some 0) with destination := 2 }] 0 (editing t))
    u.tables.node 1 = none ∧ u.segment.normal = [] ∧ u.slot 0 = none ∧ u.replayList 2 = [] := by decide +kernel

/-- READ STATUS answers 40 bytes, and the bits of every flag stand where section 1.5 puts them. -/
theorem test_readStatus_after_reset :
    (match (afterCommand .readStatus (asking .readStatus [] State.reset)).trunk.egress[0]? with
      | some (EgressEntry.sending f) => (f.outcome, f.body.length, f.body.take 8)
      | _ => ((0 : Byte), 0, ([] : List Byte))) = (0x01, 41, [0x01, 0x00, 0xC0, 0x00, 16, 23, 0, 128]) := by decide +kernel

end Sys2Proof.Tests
end

section
/-! SUPPORT. Changes of one node's runtime record (chapter 3). `SameBlocks` gathers what the moves between node states leave
alone; `Reports` are the changes that only send something upward; `Rewrites` says once what a move does to the runtime
records; `RewritesEach` is the same for a walk over several nodes. -/

namespace Sys2Proof.Machine

/-! ### What only sends something upward (R181, R193) -/

/-- `t` differs from `s` at most in the Trunk Port and the Management Responder. -/
def Reports (s t : State) : Prop := ∃ x y, t = (s.withTrunk x).withResponder y

theorem Reports.refl (s : State) : Reports s s := ⟨s.trunk, s.responder, rfl⟩

theorem Reports.trans {s t u : State} (h : Reports s t) (g : Reports t u) : Reports s u := by
  obtain ⟨_, _, rfl⟩ := h
  obtain ⟨x, y, rfl⟩ := g
  exact ⟨x, y, rfl⟩

theorem reports_withTrunk (s : State) (x : TrunkPort) : Reports s (s.withTrunk x) := ⟨x, s.responder, rfl⟩

theorem reports_setFlag (f : Flag) (s : State) : Reports s (s.setFlag f) := ⟨s.trunk, _, rfl⟩

theorem reports_loseFrame (s : State) : Reports s (loseFrame s) := by
  have hlost : Reports s (countLost s) := reports_withTrunk s _
  have hflag := hlost.trans (reports_setFlag .egressOverflow _)
  unfold loseFrame
  dsimp only
  split
  · exact hlost
  · split
    · split <;> exact hflag.trans (reports_withTrunk _ _)
    · exact hflag

theorem reports_offerFrame (f : TrunkFrame) (s : State) : Reports s (offerFrame f s) := by
  unfold offerFrame
  split
  · exact reports_withTrunk s _
  · exact reports_loseFrame s

theorem reports_offerNodeState (a : Nat) (st : NodeState) (s : State) : Reports s (offerNodeState a st s) := by
  unfold offerNodeState
  split
  · exact reports_offerFrame _ s
  · exact .refl s

theorem reports_offerGap (phase : Byte) (edge : Time) (d x y z : Nat) (s : State) :
    Reports s (offerGap phase edge d x y z s) := by
  unfold offerGap
  split
  · exact reports_offerFrame _ s
  · exact .refl s

/-! ### The blocks that node moves leave alone -/

/-- The blocks that decide a node move, and that it leaves alone. -/
structure SameBlocks (s t : State) : Prop where
  tables : t.tables = s.tables
  shadow : t.shadow = s.shadow
  hold : t.hold = s.hold
  gap : t.gap = s.gap

theorem SameBlocks.refl (s : State) : SameBlocks s s := ⟨rfl, rfl, rfl, rfl⟩

theorem SameBlocks.trans {s t u : State} (h : SameBlocks s t) (g : SameBlocks t u) : SameBlocks s u :=
  ⟨g.tables.trans h.tables, g.shadow.trans h.shadow, g.hold.trans h.hold, g.gap.trans h.gap⟩

theorem Reports.sameBlocks {s t : State} (h : Reports s t) : SameBlocks s t := by
  obtain ⟨_, _, rfl⟩ := h
  exact ⟨rfl, rfl, rfl, rfl⟩

theorem Reports.runtime {s t : State} (h : Reports s t) (a : Nat) : t.runtime a = s.runtime a := by
  obtain ⟨_, _, rfl⟩ := h
  rfl

theorem sameBlocks_mapRuntime (s : State) (a : Nat) (f : Runtime → Runtime) : SameBlocks s (s.mapRuntime a f) := by
  unfold State.mapRuntime
  split <;> exact ⟨rfl, rfl, rfl, rfl⟩

theorem SameBlocks.entry {s t : State} (h : SameBlocks s t) (a : Nat) : t.entry a = s.entry a := by
  unfold State.entry; rw [h.tables]

theorem SameBlocks.now {s t : State} (h : SameBlocks s t) : t.now = s.now := congrArg GapMonitor.clock h.gap

theorem SameBlocks.hasPending {s t : State} (h : SameBlocks s t) (a : Nat) : t.hasPending a = s.hasPending a := by
  have hslot : t.slotPending = s.slotPending := by
    funext i
    unfold State.slotPending State.slot
    rw [h.shadow]
  unfold State.hasPending State.pendingSlots State.replayList
  rw [h.shadow, hslot]

theorem SameBlocks.queue {s t : State} (h : SameBlocks s t) (a : Nat) : t.queue a = s.queue a := by
  unfold State.queue; rw [h.hold]

/-! ### One node's record -/

/-- From `s` to `t` the runtime record of node `a` is rewritten by `g`; no other record and no block that decides a move
changes. -/
structure Rewrites (a : Nat) (g : Runtime → Runtime) (s t : State) : Prop where
  blocks : SameBlocks s t
  runtime : ∀ b, t.runtime b = if a = b then (s.runtime b).map g else s.runtime b

theorem rewrites_mapRuntime (a : Nat) (g : Runtime → Runtime) (s : State) : Rewrites a g s (s.mapRuntime a g) :=
  ⟨sameBlocks_mapRuntime s a g, fun b => runtime_mapRuntime s a b g⟩

theorem Rewrites.refl (a : Nat) (s : State) : Rewrites a id s s :=
  ⟨.refl s, fun b => by split <;> simp⟩

theorem Rewrites.trans {a : Nat} {f g : Runtime → Runtime} {s t u : State} (h : Rewrites a f s t)
    (k : Rewrites a g t u) : Rewrites a (g ∘ f) s u := by
  refine ⟨h.blocks.trans k.blocks, fun b => ?_⟩
  rw [k.runtime, h.runtime]
  split <;> simp

theorem Rewrites.report {a : Nat} {g : Runtime → Runtime} {s t u : State} (h : Rewrites a g s t) (k : Reports t u) :
    Rewrites a g s u :=
  ⟨h.blocks.trans k.sameBlocks, fun b => (k.runtime b).trans (h.runtime b)⟩

theorem Rewrites.runtime_same {a : Nat} {g : Runtime → Runtime} {s t : State} {r : Runtime} (h : Rewrites a g s t)
    (hr : s.runtime a = some r) : t.runtime a = some (g r) := by
  rw [h.runtime, if_pos rfl, hr]; rfl

theorem Rewrites.runtime_other {a b : Nat} {g : Runtime → Runtime} {s t : State} (h : Rewrites a g s t) (hb : b ≠ a) :
    t.runtime b = s.runtime b := by
  rw [h.runtime, if_neg (Ne.symm hb)]

/-! ### A walk over several nodes -/

/-- From `s` to `t` the records of the nodes in `l` are rewritten as `Q` says, and no other record changes. -/
structure RewritesEach (l : List Nat) (Q : Nat → Runtime → Runtime → Prop) (s t : State) : Prop where
  blocks : SameBlocks s t
  others : ∀ b, b ∉ l → t.runtime b = s.runtime b
  members : ∀ b r, b ∈ l → s.runtime b = some r → ∃ r', t.runtime b = some r' ∧ Q b r r'

/-- A walk rewrites each node's record as its own move does, since no earlier move changes what decides a later one. -/
theorem forNodes_rewritesEach (f : Nat → State → State) (Q : Nat → Runtime → Runtime → Prop) (s : State)
    (hf : ∀ a u, SameBlocks s u → ∃ g, Rewrites a g u (f a u) ∧ ∀ r, u.runtime a = some r → Q a r (g r))
    (l : List Nat) (hl : l.Nodup) : ∀ u, SameBlocks s u → RewritesEach l Q u (forNodes l f u) := by
  induction l with
  | nil => exact fun u _ => ⟨.refl u, fun _ _ => rfl, fun _ _ hb => nomatch hb⟩
  | cons a l ih =>
    intro u hu
    obtain ⟨ha, hl⟩ := List.nodup_cons.mp hl
    obtain ⟨g, hg, hQ⟩ := hf a u hu
    have hrest := ih hl (f a u) (hu.trans hg.blocks)
    refine ⟨hg.blocks.trans hrest.blocks, fun b hb => ?_, fun b r hb hr => ?_⟩
    · obtain ⟨hba, hbl⟩ := not_or.mp (mt List.mem_cons.mpr hb)
      exact (hrest.others b hbl).trans (hg.runtime_other hba)
    · rcases List.mem_cons.mp hb with rfl | hbl
      · exact ⟨g r, (hrest.others b ha).trans (hg.runtime_same hr), hQ r hr⟩
      · have hba : b ≠ a := fun h => ha (h ▸ hbl)
        exact hrest.members b r hbl ((hg.runtime_other hba).trans hr)

/-! ### Moves between node states -/

/-- The gap counters, the recorded boot count and the expected identity stand as they stood. -/
structure KeepsCounts (r r' : Runtime) : Prop where
  survived : r'.survived = r.survived
  lost : r'.lost = r.lost
  bootCount : r'.bootCount = r.bootCount
  expected : r'.expected = r.expected

theorem KeepsCounts.refl (r : Runtime) : KeepsCounts r r := ⟨rfl, rfl, rfl, rfl⟩

theorem KeepsCounts.trans {p q r : Runtime} (h : KeepsCounts p q) (g : KeepsCounts q r) : KeepsCounts p r :=
  ⟨g.survived.trans h.survived, g.lost.trans h.lost, g.bootCount.trans h.bootCount, g.expected.trans h.expected⟩

/-- The state that the onward choice enters (R47). -/
def State.onwardState (s : State) (a : Nat) : NodeState :=
  if s.hasPending a then .replay else if s.queue a = [] then .online else .release

theorem SameBlocks.onwardState {s t : State} (h : SameBlocks s t) (a : Nat) : t.onwardState a = s.onwardState a := by
  unfold State.onwardState
  rw [h.hasPending, h.queue]

theorem enterOnline_rewrites (a : Nat) (s : State) :
    ∃ g, Rewrites a g s (enterOnline a s) ∧ ∀ r, (g r).state = .online ∧ KeepsCounts r (g r) :=
  ⟨_, (rewrites_mapRuntime a _ s).report (reports_offerNodeState a .online _), fun _ => ⟨rfl, rfl, rfl, rfl, rfl⟩⟩

theorem onward_rewrites (a : Nat) (s : State) :
    ∃ g, Rewrites a g s (onward a s) ∧ ∀ r, (g r).state = s.onwardState a ∧ KeepsCounts r (g r) := by
  unfold onward State.onwardState
  split
  · exact ⟨_, rewrites_mapRuntime a _ s, fun _ => ⟨rfl, rfl, rfl, rfl, rfl⟩⟩
  · cases s.queue a with
    | nil => exact enterOnline_rewrites a s
    | cons e l => exact ⟨_, rewrites_mapRuntime a _ s, fun _ => ⟨rfl, rfl, rfl, rfl, rfl⟩⟩

theorem nodeState_of_runtime {s : State} {a : Nat} {r : Runtime} (h : s.runtime a = some r) : s.nodeState a = r.state := by
  unfold State.nodeState; rw [h]

/-- A node that does not leave ONLINE has no queued pass frame returned as it enters PROBE (R42, R72). -/
theorem enterProbe_rewrites (a : Nat) (s : State) (h : s.nodeState a ≠ .online) :
    ∃ g, Rewrites a g s (enterProbe a s) ∧
      ∀ r, (g r).state = .probe ∧ (r.state = .suspect → KeepsCounts r (g r)) := by
  unfold enterProbe
  rw [if_neg h]
  refine ⟨_, rewrites_mapRuntime a _ s, fun r => ⟨rfl, fun hr => ⟨rfl, rfl, ?_, rfl⟩⟩⟩
  simp [Runtime.countOnDoubt, hr]

theorem enterMissing_rewrites (a : Nat) (s : State) :
    ∃ g, Rewrites a g s (enterMissing a s) ∧
      ∀ r, (g r).state = .missing ∧ (g r).window = none ∧ (g r).attempts = r.attempts ∧ KeepsCounts r (g r) := by
  refine ⟨_, (rewrites_mapRuntime a _ s).report (reports_offerNodeState a .missing _), fun r => ?_⟩
  split <;> exact ⟨rfl, rfl, rfl, rfl, rfl, rfl, rfl⟩

/-- The boot window from `base`: AWAIT_BOOT with the window while its close is ahead, else MISSING without one (R43). -/
structure InBootWindow (e : NodeEntry) (now base : Time) (r : Runtime) : Prop where
  ahead : reached now (after base (e.bootMax * 10)) = false →
    r.state = .awaitBoot ∧ r.window = some (after base (e.bootMin * 10), after base (e.bootMax * 10))
  past : reached now (after base (e.bootMax * 10)) = true → r.state = .missing ∧ r.window = none

/-- The record of a node that enters AWAIT_BOOT, before a close already reached is seen (R43). -/
def awaitingBoot (now opens closes : Time) (r : Runtime) : Runtime :=
  let r1 := { r.move .awaitBoot with misses := 0, window := some (opens, closes) }
  if reached now opens then { r1 with step := r.step.offer .probe }
  else { r1 with nextProbe := some opens, step := r.step.wait }

theorem awaitingBoot_fields (now opens closes : Time) (r : Runtime) :
    let r' := awaitingBoot now opens closes r
    r'.state = .awaitBoot ∧ r'.window = some (opens, closes) ∧ r'.attempts = r.attempts ∧ KeepsCounts r r' := by
  unfold awaitingBoot
  dsimp only
  split <;> exact ⟨rfl, rfl, rfl, rfl, rfl, rfl, rfl⟩

theorem enterAwaitBoot_of_entry (a : Nat) (base : Time) (s : State) {e : NodeEntry} (he : s.entry a = some e) :
    enterAwaitBoot a base s =
      let s1 := s.mapRuntime a (awaitingBoot s.now (after base (e.bootMin * 10)) (after base (e.bootMax * 10)))
      if reached s.now (after base (e.bootMax * 10)) then enterMissing a (cancelStep a s1) else s1 := by
  unfold enterAwaitBoot
  rw [he]
  rfl

theorem enterAwaitBoot_rewrites (a : Nat) (base : Time) (s : State) :
    ∃ g, Rewrites a g s (enterAwaitBoot a base s) ∧
      ∀ r, (∀ e, s.entry a = some e → InBootWindow e s.now base (g r)) ∧ (g r).attempts = r.attempts
        ∧ KeepsCounts r (g r) := by
  cases he : s.entry a with
  | none =>
    have hkept : enterAwaitBoot a base s = s := by unfold enterAwaitBoot; rw [he]
    rw [hkept]
    exact ⟨id, .refl a s, fun r => ⟨by simp, rfl, .refl r⟩⟩
  | some e =>
    rw [enterAwaitBoot_of_entry a base s he]
    have hfields := awaitingBoot_fields s.now (after base (e.bootMin * 10)) (after base (e.bootMax * 10))
    have hwait := rewrites_mapRuntime a (awaitingBoot s.now (after base (e.bootMin * 10)) (after base (e.bootMax * 10))) s
    dsimp only
    split
    · next hclose =>
      obtain ⟨g, hg, hmissing⟩ := enterMissing_rewrites a (cancelStep a (s.mapRuntime a _))
      refine ⟨_, (hwait.trans (rewrites_mapRuntime a _ _)).trans hg, fun r => ?_⟩
      obtain ⟨-, -, hattempts, hcounts⟩ := hfields r
      obtain ⟨hst, hwindow, hattempts', hcounts'⟩ := hmissing _
      refine ⟨?_, hattempts'.trans hattempts,
        hcounts.trans ⟨hcounts'.survived, hcounts'.lost, hcounts'.bootCount, hcounts'.expected⟩⟩
      rintro _ ⟨⟩
      exact ⟨fun h => absurd (h.symm.trans hclose) (by decide), fun _ => ⟨hst, hwindow⟩⟩
    · next hclose =>
      refine ⟨_, hwait, fun r => ?_⟩
      obtain ⟨hst, hwindow, hattempts, hcounts⟩ := hfields r
      refine ⟨?_, hattempts, hcounts⟩
      rintro _ ⟨⟩
      exact ⟨fun _ => ⟨hst, hwindow⟩, fun h => absurd h hclose⟩

end Sys2Proof.Machine
end

section
/-! SUPPORT. The gap end (section 2.5): the classes, the reserves, and what happens to one member. -/

namespace Sys2Proof.Machine

/-! ### Classes (R28) -/

theorem classify_eq_survived {x m : Int} : classify x m = .survived ↔ m ≤ x := by
  unfold classify
  split
  · simp [*]
  · split <;> simp [*]

theorem classify_eq_lost {x m : Int} : classify x m = .lost ↔ x < m ∧ x ≤ -m := by
  unfold classify
  split
  · simp; omega
  · split <;> simp <;> omega

theorem classify_of_uncertain {x m : Int} (hs : ¬ m ≤ x) (hl : ¬ (x < m ∧ x ≤ -m)) : classify x m = .uncertain := by
  unfold classify
  rw [if_neg hs, if_neg (by omega)]

theorem estimateAfter_classify (x m : Int) :
    estimateAfter (classify x m) x = if x < m ∧ x ≤ -m then 0 else (max 0 x).toNat := by
  split
  · next h => rw [classify_eq_lost.mpr h]; rfl
  · next h =>
    have hnot := mt classify_eq_lost.mp h
    cases hc : classify x m with
    | survived | uncertain => rfl
    | lost => exact absurd hc hnot

/-! ### Reserves (R24, R29) -/

/-- `t` differs from `s` at most in the reserve records. -/
def OnlyReserves (s t : State) : Prop := ∃ v, t = s.withGap { s.gap with reserves := v }

theorem OnlyReserves.refl (s : State) : OnlyReserves s s := ⟨s.gap.reserves, rfl⟩

theorem OnlyReserves.trans {s t u : State} (h : OnlyReserves s t) (g : OnlyReserves t u) : OnlyReserves s u := by
  obtain ⟨_, rfl⟩ := h
  obtain ⟨v, rfl⟩ := g
  exact ⟨v, rfl⟩

theorem reserve_congr {s t : State} (h : t.gap.reserves = s.gap.reserves) (a : Nat) : t.reserve a = s.reserve a := by
  unfold State.reserve; rw [h]

/-- For each node, `f` rewrites its reserve record by `g`, which may read the tables, and nothing else. -/
structure MapsReserve (f : Nat → State → State) (g : Tables → Reserve → Reserve) : Prop where
  only : ∀ a s, OnlyReserves s (f a s)
  reserve : ∀ a s b, (f a s).reserve b = if a = b then (s.reserve b).map (g s.tables) else s.reserve b

/-- A node's reserve record replaced by `g` of it, as one change. -/
theorem reserve_setReserve_map {s : State} {a : Nat} {r : Reserve} (hr : s.reserve a = some r) (g : Reserve → Reserve)
    (b : Nat) : (s.setReserve a (some (g r))).reserve b = if a = b then (s.reserve b).map g else s.reserve b := by
  rw [reserve_setReserve, isAddress_of_reserve hr]
  by_cases hab : a = b
  · subst hab; simp [hr]
  · simp [hab]

/-- A node without a reserve record has none to rewrite. -/
theorem reserve_of_none_map {s : State} {a : Nat} (hr : s.reserve a = none) (g : Reserve → Reserve) (b : Nat) :
    s.reserve b = if a = b then (s.reserve b).map g else s.reserve b := by
  by_cases hab : a = b
  · subst hab; simp [hr]
  · simp [hab]

/-- A member's reserve record after its class is known (R28, R29). -/
def settled (d : Nat) (t : Tables) (r : Reserve) : Reserve :=
  { r with estimate := estimateAfter (classify (gapX r.estimate d) t.params.gapMargin) (gapX r.estimate d) }

theorem classOf_of_reserve {s : State} {a : Nat} {r : Reserve} (d : Nat) (h : s.reserve a = some r) :
    s.classOf d a = classify (gapX r.estimate d) s.tables.params.gapMargin := by
  unfold State.classOf; rw [h]; rfl

theorem mapsReserve_settleReserve (d : Nat) : MapsReserve (settleReserve d) (settled d) where
  only a s := by
    unfold settleReserve
    split
    · exact ⟨_, rfl⟩
    · exact .refl s
  reserve a s b := by
    unfold settleReserve
    split
    · next r hr =>
      rw [classOf_of_reserve d hr]
      exact reserve_setReserve_map hr (settled d s.tables) b
    · next hr => exact reserve_of_none_map hr _ b

theorem mapsReserve_setOrigin (t : Time) : MapsReserve (setOrigin t) (fun _ r => { r with origin := t, aged := false }) where
  only a s := by
    unfold setOrigin
    split
    · exact ⟨_, rfl⟩
    · exact .refl s
  reserve a s b := by
    unfold setOrigin
    split
    · next r hr => exact reserve_setReserve_map hr (fun r => { r with origin := t, aged := false }) b
    · next hr => exact reserve_of_none_map hr _ b

/-- A walk over distinct nodes rewrites the reserve record of each once. -/
theorem MapsReserve.walk {f : Nat → State → State} {g : Tables → Reserve → Reserve} (h : MapsReserve f g)
    (l : List Nat) (hl : l.Nodup) (s : State) :
    OnlyReserves s (forNodes l f s) ∧
      ∀ b, (forNodes l f s).reserve b = if b ∈ l then (s.reserve b).map (g s.tables) else s.reserve b := by
  induction l generalizing s with
  | nil => exact ⟨.refl s, fun _ => rfl⟩
  | cons a l ih =>
    obtain ⟨ha, hl⟩ := List.nodup_cons.mp hl
    obtain ⟨honly, hres⟩ := ih hl (f a s)
    have htables : (f a s).tables = s.tables := by
      obtain ⟨_, hv⟩ := h.only a s
      rw [hv]; rfl
    refine ⟨(h.only a s).trans honly, fun b => (hres b).trans ?_⟩
    rw [h.reserve, htables]
    by_cases hab : a = b
    · subst hab; simp [ha]
    · simp [hab, Ne.symm hab]

/-! ### One member (R57) -/

/-- The record `r'` that the gap end leaves a member of class `c` whose record was `r`; `next` is the state of its onward
choice. -/
structure GapEndMove (next : NodeState) (entry : Option NodeEntry) (now edge : Time) (c : GapClass) (r r' : Runtime) :
    Prop where
  counts : KeepsCounts (countClass c r) r'
  onward : r.state = .suspect → c = .survived → r.phase = some .online → r'.state = next
  probe : r.state = .suspect → (c = .survived ∧ r.phase ≠ some .online ∨ c = .uncertain) → r'.state = .probe
  boots : ∀ e, entry = some e → (r.state = .suspect ∨ r.state = .failed) → c = .lost →
    InBootWindow e now edge r' ∧ (r.state = .failed → r'.attempts = 0)
  failed : r.state = .failed → c ≠ .lost → r'.state = .failed
  isolated : r.state = .isolated → r'.state = .isolated

theorem countClass_fields (c : GapClass) (r : Runtime) :
    (countClass c r).state = r.state ∧ (countClass c r).phase = r.phase := by
  cases c <;> exact ⟨rfl, rfl⟩

theorem countClass_survived (c : GapClass) (r : Runtime) :
    (countClass c r).survived = if c = .survived then r.survived + 1 else r.survived := by
  cases c <;> rfl

theorem countClass_lost (c : GapClass) (r : Runtime) :
    (countClass c r).lost = if c = .lost then r.lost + 1 else r.lost := by
  cases c <;> rfl

theorem countClass_identity (c : GapClass) (r : Runtime) :
    (countClass c r).bootCount = r.bootCount ∧ (countClass c r).expected = r.expected := by
  cases c <;> exact ⟨rfl, rfl⟩

/-- What gap end does after the class is counted, case by case of the member's state and class (R57). -/
theorem memberAtGapEnd_cases (edge : Time) (a : Nat) (c : GapClass) {s : State} {r : Runtime} (hr : s.runtime a = some r) :
    let s1 := s.mapRuntime a (countClass c)
    (r.state = .suspect ∧ c = .survived ∧ r.phase = some .online ∧ memberAtGapEnd edge a c s = onward a s1)
      ∨ (r.state = .suspect ∧ (c = .survived ∧ r.phase ≠ some .online ∨ c = .uncertain)
          ∧ memberAtGapEnd edge a c s = enterProbe a s1)
      ∨ (r.state = .suspect ∧ c = .lost ∧ memberAtGapEnd edge a c s = enterAwaitBoot a edge s1)
      ∨ (r.state = .failed ∧ c = .lost
          ∧ memberAtGapEnd edge a c s = enterAwaitBoot a edge (s1.mapRuntime a (fun r => { r with attempts := 0 })))
      ∨ (r.state ≠ .suspect ∧ (r.state = .failed → c ≠ .lost) ∧ memberAtGapEnd edge a c s = s1) := by
  obtain ⟨hstate, hphase⟩ := countClass_fields c r
  have hr1 := (rewrites_mapRuntime a (countClass c) s).runtime_same hr
  unfold memberAtGapEnd
  dsimp only
  rw [hr1]
  dsimp only
  rw [hstate, hphase]
  generalize r.state = st
  split
  · by_cases hp : r.phase = some .online
    · exact .inl ⟨rfl, rfl, hp, if_pos hp⟩
    · exact .inr (.inl ⟨rfl, .inl ⟨rfl, hp⟩, if_neg hp⟩)
  · exact .inr (.inl ⟨rfl, .inr rfl, rfl⟩)
  · exact .inr (.inr (.inl ⟨rfl, rfl, rfl⟩))
  · exact .inr (.inr (.inr (.inl ⟨rfl, rfl, rfl⟩)))
  · next hsurvived huncertain hlost hfailed =>
    refine .inr (.inr (.inr (.inr ⟨?_, fun hf hc => hfailed hf hc, rfl⟩)))
    rintro rfl
    cases c with
    | survived => exact hsurvived rfl rfl
    | uncertain => exact huncertain rfl rfl
    | lost => exact hlost rfl rfl

theorem memberAtGapEnd_without_runtime (edge : Time) (a : Nat) (c : GapClass) {s : State} (hr : s.runtime a = none) :
    memberAtGapEnd edge a c s = s := by
  have hs1 : s.mapRuntime a (countClass c) = s := by unfold State.mapRuntime; rw [hr]
  unfold memberAtGapEnd
  dsimp only
  rw [hs1, hr]

/-- After its class is counted in `s1`, the member moves (R57). -/
theorem memberAtGapEnd_moves (edge : Time) (a : Nat) (c : GapClass) {s s1 : State} {r : Runtime}
    (hs1 : s.mapRuntime a (countClass c) = s1) (hr : s.runtime a = some r) :
    ∃ g, Rewrites a g s1 (memberAtGapEnd edge a c s)
      ∧ GapEndMove (s1.onwardState a) (s1.entry a) s1.now edge c r (g (countClass c r)) := by
  have hr1 : s1.runtime a = some (countClass c r) := hs1 ▸ (rewrites_mapRuntime a (countClass c) s).runtime_same hr
  obtain ⟨hstate, -⟩ := countClass_fields c r
  have hcases := memberAtGapEnd_cases edge a c hr
  rw [hs1] at hcases
  obtain ⟨hs, rfl, hp, he⟩ | ⟨hs, hc, he⟩ | ⟨hs, rfl, he⟩ | ⟨hs, rfl, he⟩ | ⟨hs, hc, he⟩ := hcases <;> rw [he]
  · obtain ⟨g, hg, hmove⟩ := onward_rewrites a s1
    obtain ⟨hnext, hcounts⟩ := hmove (countClass .survived r)
    exact ⟨g, hg,
      { counts := hcounts, onward := fun _ _ _ => hnext, probe := by simp [hp], boots := by simp, failed := by simp [hs]
        isolated := by simp [hs] }⟩
  · have hoff : s1.nodeState a ≠ .online := by
      rw [nodeState_of_runtime hr1, hstate, hs]; decide
    have honward : c = .survived → r.phase ≠ some .online := by rintro rfl; simpa using hc
    have hlost : c ≠ .lost := by rintro rfl; simp at hc
    obtain ⟨g, hg, hmove⟩ := enterProbe_rewrites a s1 hoff
    obtain ⟨hprobe, hcounts⟩ := hmove (countClass c r)
    exact ⟨g, hg,
      { counts := hcounts (hstate.trans hs), onward := fun _ h1 h2 => absurd h2 (honward h1), probe := fun _ _ => hprobe
        boots := fun _ _ _ h => absurd h hlost, failed := by simp [hs], isolated := by simp [hs] }⟩
  · obtain ⟨g, hg, hmove⟩ := enterAwaitBoot_rewrites a edge s1
    obtain ⟨hwindow, -, hcounts⟩ := hmove (countClass .lost r)
    exact ⟨g, hg,
      { counts := hcounts, onward := by simp, probe := by simp, boots := fun e h _ _ => ⟨hwindow e h, by simp [hs]⟩
        failed := by simp, isolated := by simp [hs] }⟩
  · have hzero := rewrites_mapRuntime a (fun r => { r with attempts := 0 }) s1
    generalize s1.mapRuntime a (fun r => { r with attempts := 0 }) = s2 at hzero ⊢
    obtain ⟨g, hg, hmove⟩ := enterAwaitBoot_rewrites a edge s2
    obtain ⟨hwindow, hattempts, hcounts⟩ := hmove { countClass .lost r with attempts := 0 }
    rw [hzero.blocks.entry a, hzero.blocks.now] at hwindow
    exact ⟨_, hzero.trans hg,
      { counts := ⟨hcounts.survived, hcounts.lost, hcounts.bootCount, hcounts.expected⟩, onward := by simp, probe := by simp
        boots := fun e h _ _ => ⟨hwindow e h, fun _ => hattempts⟩, failed := by simp, isolated := by simp [hs] }⟩
  · exact ⟨id, .refl a s1,
      { counts := .refl _, onward := fun h => absurd h hs, probe := fun h => absurd h hs
        boots := fun _ _ h hlost => (h.elim hs (fun hf => hc hf hlost)).elim
        failed := fun h _ => hstate.trans h, isolated := fun h => hstate.trans h }⟩

/-- The member's record is rewritten by the count of its class and the move of its state, class and phase (R57). -/
theorem memberAtGapEnd_rewrites (edge : Time) (a : Nat) (c : GapClass) (s : State) :
    ∃ g, Rewrites a g s (memberAtGapEnd edge a c s)
      ∧ ∀ r, s.runtime a = some r → GapEndMove (s.onwardState a) (s.entry a) s.now edge c r (g r) := by
  cases hr : s.runtime a with
  | none =>
    rw [memberAtGapEnd_without_runtime edge a c hr]
    exact ⟨id, .refl a s, fun _ h => nomatch h⟩
  | some r =>
    have hcount := rewrites_mapRuntime a (countClass c) s
    obtain ⟨g, hg, hmove⟩ := memberAtGapEnd_moves edge a c rfl hr
    rw [hcount.blocks.onwardState a, hcount.blocks.entry a, hcount.blocks.now] at hmove
    exact ⟨_, hcount.trans hg, fun _ h => Option.some.inj h ▸ hmove⟩

/-! ### The event (R30) -/

/-- The gap set's members move, each once, by the class it had when the gap ended. -/
theorem membersAtGapEnd_rewritesEach (edge : Time) (cls : Nat → GapClass) (l : List Nat) (hl : l.Nodup) (s : State) :
    RewritesEach l (fun a => GapEndMove (s.onwardState a) (s.entry a) s.now edge (cls a)) s
      (forNodes l (fun a => memberAtGapEnd edge a (cls a)) s) := by
  refine forNodes_rewritesEach _ _ s (fun a u hu => ?_) l hl s (.refl s)
  rw [← hu.onwardState a, ← hu.entry a, ← hu.now]
  exact memberAtGapEnd_rewrites edge a (cls a) u

/-- The state after the reserves are settled and the origins set: only the Gap Monitor has changed. -/
def settledReserves (edge : Time) (d : Nat) (s : State) : State :=
  forNodes addresses (setOrigin edge)
    (forNodes s.gap.gapSet (settleReserve d) (s.withGap { s.gap with condition := .supplied, lastD := d }))

/-- A gap end settles the reserves, moves the members, offers its notice and empties the gap set, in this order (R30). -/
theorem confirmGapEnd_eq (start edge : Time) (s : State) :
    ∃ survived uncertain lost, confirmGapEnd start edge s =
      let d := s.gapDuration start edge
      let moved := forNodes s.gap.gapSet (fun a => memberAtGapEnd edge a (s.classOf d a)) (settledReserves edge d s)
      let t := offerGap 1 edge d survived uncertain lost moved
      t.withGap { t.gap with gapSet := [] } := by
  unfold confirmGapEnd
  dsimp only
  rw [List.foldl_map]
  exact ⟨_, _, _, rfl⟩

theorem mem_addresses {a : Nat} (h : isAddress a = true) : a ∈ addresses := by
  obtain ⟨hlow, hhigh⟩ := of_decide_eq_true h
  exact List.mem_range'_1.mpr ⟨hlow, by omega⟩

/-- Every configured node's origin is the end time, and a member's estimate is settled first (R24, R29). -/
theorem settledReserves_spec (edge : Time) (d : Nat) (s : State) (hset : s.GapSetSound) :
    ∃ v, settledReserves edge d s = s.withGap { s.gap with condition := .supplied, lastD := d, reserves := v }
      ∧ ∀ a r, s.reserve a = some r →
          (settledReserves edge d s).reserve a =
            some { (if a ∈ s.gap.gapSet then settled d s.tables r else r) with origin := edge, aged := false } := by
  obtain ⟨hsettle, hsettled⟩ := (mapsReserve_settleReserve d).walk s.gap.gapSet hset
    (s.withGap { s.gap with condition := .supplied, lastD := d })
  obtain ⟨horigin, horigins⟩ := (mapsReserve_setOrigin edge).walk addresses addresses_nodup
    (forNodes s.gap.gapSet (settleReserve d) (s.withGap { s.gap with condition := .supplied, lastD := d }))
  obtain ⟨v, hv⟩ := hsettle.trans horigin
  refine ⟨v, hv, fun a r hr => ?_⟩
  have hr0 : (s.withGap { s.gap with condition := .supplied, lastD := d }).reserve a = some r := hr
  unfold settledReserves
  rw [horigins, if_pos (mem_addresses (isAddress_of_reserve hr)), hsettled, hr0]
  split <;> rfl

/-- What the end of a gap of duration `d` leaves in `t`. -/
structure GapEnded (d : Nat) (edge : Time) (s t : State) : Prop where
  condition : t.gap.condition = .supplied
  lastD : t.gap.lastD = d
  gapSet : t.gap.gapSet = []
  clock : t.gap.clock = s.gap.clock
  tables : t.tables = s.tables
  shadow : t.shadow = s.shadow
  hold : t.hold = s.hold
  reserve : ∀ a v, s.reserve a = some v →
    t.reserve a = some { (if a ∈ s.gap.gapSet then settled d s.tables v else v) with origin := edge, aged := false }
  others : ∀ a, a ∉ s.gap.gapSet → t.runtime a = s.runtime a
  members : ∀ a r, a ∈ s.gap.gapSet → s.runtime a = some r → ∃ r', t.runtime a = some r'
    ∧ GapEndMove (s.onwardState a) (s.entry a) s.now edge (s.classOf d a) r r'

/-- What a report after the gap end does not change. -/
theorem GapEnded.report {d : Nat} {edge : Time} {s t u : State} (h : GapEnded d edge s t) (k : Reports t u) :
    GapEnded d edge s u := by
  obtain ⟨_, _, rfl⟩ := k
  exact ⟨h.condition, h.lastD, h.gapSet, h.clock, h.tables, h.shadow, h.hold, h.reserve, h.others, h.members⟩

theorem confirmGapEnd_ended (start edge : Time) (s : State) (hset : s.GapSetSound) :
    GapEnded (s.gapDuration start edge) edge s (confirmGapEnd start edge s) := by
  obtain ⟨survived, uncertain, lost, heq⟩ := confirmGapEnd_eq start edge s
  rw [heq]
  generalize s.gapDuration start edge = d
  obtain ⟨v, hv, hreserve⟩ := settledReserves_spec edge d s hset
  have hmoved := membersAtGapEnd_rewritesEach edge (s.classOf d) s.gap.gapSet hset (settledReserves edge d s)
  dsimp only
  generalize settledReserves edge d s = q at *
  subst hv
  generalize forNodes s.gap.gapSet (fun a => memberAtGapEnd edge a (s.classOf d a)) _ = moved at *
  have hnotice := reports_offerGap 1 edge d survived uncertain lost moved
  generalize offerGap 1 edge d survived uncertain lost moved = t at *
  have hblocks := hmoved.blocks.trans hnotice.sameBlocks
  have hclock : t.gap.clock = s.gap.clock := by rw [hblocks.gap]; rfl
  exact
    { condition := congrArg GapMonitor.condition hblocks.gap
      lastD := congrArg GapMonitor.lastD hblocks.gap
      gapSet := rfl
      clock := hclock
      tables := hblocks.tables
      shadow := hblocks.shadow
      hold := hblocks.hold
      reserve := fun a r hr => (reserve_congr (congrArg GapMonitor.reserves hblocks.gap) a).trans (hreserve a r hr)
      others := fun a ha => (hnotice.runtime a).trans (hmoved.others a ha)
      members := fun a r ha hr =>
        let ⟨r', hr', hmove⟩ := hmoved.members a r ha hr
        ⟨r', (hnotice.runtime a).trans hr', hmove⟩ }

theorem reached_self (t : Time) : reached t t = true := by simp [reached]

/-- GAP_END at its expiry is the gap end event, and then the command's end. -/
theorem exec_gapEnd_due {s : State} {start edge : Time} (h : s.gap.condition = .endPending start edge s.gap.clock) :
    exec .gapEnd s = .next (endCommand (confirmGapEnd start edge s)) := by
  have hend : gapEnd s = some (confirmGapEnd start edge s) := by
    unfold gapEnd
    rw [h]
    exact if_pos (reached_self s.gap.clock)
  show happens (gapEnd s) s = _
  rw [hend]
  rfl

theorem endCommand_ended {d : Nat} {edge : Time} {s t : State} (h : GapEnded d edge s t) :
    GapEnded d edge s (endCommand t) := by
  obtain ⟨x, hx, -⟩ := startTransmitter_trunk t
  have hsent := h.report (reports_withTrunk t x)
  unfold endCommand
  rw [hx]
  exact ⟨hsent.condition, hsent.lastD, hsent.gapSet, hsent.clock, hsent.tables, hsent.shadow, hsent.hold, hsent.reserve,
    hsent.others, hsent.members⟩

/-- Settles O48: the event's parts are `GapEnded`, and each class is its inequality on x = E − d. -/
theorem gapEndClassifiesMembers : Obligations.GapEndClassifiesMembers := by
  intro s start edge hcondition hset d m
  have hended : GapEnded d edge s (endCommand (confirmGapEnd start edge s)) :=
    endCommand_ended (confirmGapEnd_ended start edge s hset)
  refine ⟨_, exec_gapEnd_due hcondition, hended.condition, hended.lastD, hended.gapSet, hended.clock, hended.tables,
    hended.shadow, hended.hold, fun a v ha hv => ⟨?_, hended.others a ha⟩, fun a v r ha hv hr => ?_⟩
  · rw [hended.reserve a v hv, if_neg ha]
  · intro x survived lost
    obtain ⟨r', hr', hmove⟩ := hended.members a r ha hr
    rw [classOf_of_reserve d hv] at hmove
    have hsurvived : classify x m = .survived ↔ survived := classify_eq_survived
    have hlost : classify x m = .lost ↔ lost := classify_eq_lost
    have hcounts := hmove.counts
    obtain ⟨hboot, hexpected⟩ := countClass_identity (classify x m) r
    refine ⟨r', hr', ?_, ?_, ?_, hcounts.bootCount.trans hboot, hcounts.expected.trans hexpected, ?_, ?_, ?_, ?_, ?_,
      hmove.isolated⟩
    · rw [hended.reserve a v hv, if_pos ha]
      exact congrArg (fun n => some (Reserve.mk n edge false)) (estimateAfter_classify x m)
    · rw [hcounts.survived, countClass_survived]
      exact if_congr hsurvived rfl rfl
    · rw [hcounts.lost, countClass_lost]
      exact if_congr hlost rfl rfl
    · exact fun hs hin => hmove.onward hs (hsurvived.mpr hin)
    · exact fun hs hin hp => hmove.probe hs (.inl ⟨hsurvived.mpr hin, hp⟩)
    · exact fun hs hout hnot => hmove.probe hs (.inr (classify_of_uncertain hout hnot))
    · intro e he hs hin
      obtain ⟨hwindow, hattempts⟩ := hmove.boots e he hs (hlost.mpr hin)
      exact ⟨hwindow.ahead, hwindow.past, hattempts⟩
    · exact fun hf hnot => hmove.failed hf (mt hlost.mp hnot)

end Sys2Proof.Machine
end

section
/-! SUPPORT. What a management request that is in order does at its take: its own rule is run and its answer waits, or, in
SERVICE, a table write is answered MODE (R183). -/

namespace Sys2Proof.Machine

variable {s : State} {k : RequestCode} {act : Request → State → State} {tag : Word16} {args : List Byte}
  {rest : List TrunkFrame} {i : Nat}

/-- The request that its own rule is handed: the answer is owed through egress entry `i`. -/
def asked (k : RequestCode) (tag : Word16) (args : List Byte) (i : Nat) : Request :=
  { ref := { tag := tag, reservation := i, code := k.code }, args := args }

theorem done_asked (u : State) (data : List Byte) :
    done (asked k tag args i) data (u.reserved rest i) = u.replies k tag rest i .done data :=
  u.reserved_enqueue rest i _

theorem invalid_asked (u : State) : invalid (asked k tag args i) (u.reserved rest i) = u.replies k tag rest i .invalid [] :=
  u.reserved_enqueue rest i _

/-- A command whose request is in order runs the request's own rule. -/
theorem State.Asks.runs_act {c : Instr} (h : s.Asks k tag args rest i)
    (hc : exec c s = happens (takeRequest k act s) s) (hmode : depotOnly k = true → s.responder.mode = .depot)
    (hbusy : busyInRestart k = false) :
    exec c s = .next (endCommand (act (asked k tag args i) (s.reserved rest i))) := by
  rw [hc, h.take act hmode (by simp [hbusy])]
  rfl

/-- A table write or a loading request in SERVICE is answered MODE (R183, case 3). -/
theorem State.Asks.answers_mode {c : Instr} (h : s.Asks k tag args rest i)
    (hc : exec c s = happens (takeRequest k act s) s) (hdepot : depotOnly k = true) (hmode : s.responder.mode ≠ .depot) :
    exec c s = .next (endCommand (s.replies k tag rest i .mode [])) := by
  have hservice : s.responder.mode = .service := by
    cases hm : s.responder.mode with
    | depot => exact absurd hm hmode
    | service => rfl
  have hfit : ¬ ((0 : Byte) ≠ 0 ∨ argumentsFit k args = false) := by simp [h.2]
  rw [hc, h.1.take act, judgeRequest, if_neg hfit, if_pos ⟨hdepot, hservice⟩, answerRequest, State.reserved_enqueue]
  rfl

end Sys2Proof.Machine
end

section
/-! SUPPORT. READ NODE and the five counters of a node (R62). -/

namespace Sys2Proof.Machine

theorem u8_toNat (b : Byte) : u8 b.toNat = b := BitVec.ofNat_toNat 8 b

theorem isAddress_eq_false {a : Nat} (h : a = 0 ∨ 30 < a) : isAddress a = false := by simp [isAddress]; omega

theorem isAddress_eq_true {a : Nat} (hlow : 1 ≤ a) (hhigh : a ≤ 30) : isAddress a = true := by simp [isAddress, hlow, hhigh]

theorem mapRuntime_of_runtime {s : State} {a : Nat} {r : Runtime} (h : s.runtime a = some r) (f : Runtime → Runtime) :
    s.mapRuntime a f = s.setRuntime a (some (f r)) := by
  unfold State.mapRuntime; rw [h]

theorem mapRuntime_of_none {s : State} {a : Nat} (h : s.runtime a = none) (f : Runtime → Runtime) : s.mapRuntime a f = s := by
  unfold State.mapRuntime; rw [h]

/-- The trunk and the runtime records do not meet. -/
theorem mapRuntime_reserved (s : State) (rest : List TrunkFrame) (i a : Nat) (f : Runtime → Runtime) :
    (s.reserved rest i).mapRuntime a f = (s.mapRuntime a f).reserved rest i := by
  cases h : s.runtime a with
  | none => rw [mapRuntime_of_none h, mapRuntime_of_none (s := s.reserved rest i) h]
  | some r => rw [mapRuntime_of_runtime h, mapRuntime_of_runtime (s := s.reserved rest i) h]; rfl

section
variable {s : State} {tag : Word16} {rest : List TrunkFrame} {i : Nat} {b : Byte}

theorem State.Asks.exec_readNode (h : s.Asks .readNode tag [b] rest i) :
    exec .readNode s = .next (endCommand
      (if isAddress b.toNat then s.replies .readNode tag rest i .done (s.nodeBytes b.toNat)
      else s.replies .readNode tag rest i .invalid [])) := by
  rw [h.runs_act (act := actReadNode) rfl nofun rfl, ← done_asked (args := [b]), ← invalid_asked (args := [b])]
  rfl

theorem State.Asks.exec_readNodeCounters (h : s.Asks .readCounters tag [1, b] rest i) :
    exec .readCounters s = .next (endCommand
      (if isAddress b.toNat then s.replies .readCounters tag rest i .done (counterBytes (s.runtime b.toNat))
      else s.replies .readCounters tag rest i .invalid [])) := by
  rw [h.runs_act (act := actReadCounters) rfl nofun rfl, ← done_asked (args := [1, b]), ← invalid_asked (args := [1, b])]
  rfl

theorem State.Asks.exec_clearNodeCounters (h : s.Asks .clearCounters tag [1, b] rest i) :
    exec .clearCounters s = .next (endCommand
      (if isAddress b.toNat then (s.mapRuntime b.toNat clearNodeCounters).replies .clearCounters tag rest i .done []
      else s.replies .clearCounters tag rest i .invalid [])) := by
  rw [h.runs_act (act := actClearCounters) rfl nofun rfl, ← done_asked (args := [1, b]), ← invalid_asked (args := [1, b]),
    ← mapRuntime_reserved]
  rfl

/-- READ NODE's data for an address without a table entry and without a runtime record (R62). -/
theorem nodeBytes_unconfigured {a : Nat} (he : s.entry a = none) (hr : s.runtime a = none) :
    s.nodeBytes a = [u8 a] ++ List.replicate 19 0 ++ [0xFF, 0xFF] ++ List.replicate 18 0 := by
  unfold State.nodeBytes
  rw [he, hr]
  rfl

theorem windowBytes_eq (window : Option (Time × Time)) :
    windowBytes window = match window with | some w => le32 w.1 ++ le32 w.2 | none => List.replicate 8 0 := by
  cases window <;> rfl

/-- READ NODE's data for an address with a table entry, a runtime record and a reserve record (R62). -/
theorem nodeBytes_configured {a : Nat} {e : NodeEntry} {r : Runtime} {x : Reserve} (he : s.entry a = some e)
    (hr : s.runtime a = some r) (hx : s.reserve a = some x) :
    s.nodeBytes a = [u8 a] ++ nodeRecord (some e) ++ [u8 r.state.code]
      ++ (match r.bootCount with | some v => [v, 0] | none => [0xFF, 0xFF])
      ++ [u8 r.noReply, u8 r.attempts] ++ [match r.phase with | some p => u8 p.code | none => 0xFF]
      ++ le16n x.estimate
      ++ (match r.window with | some w => le32 w.1 ++ le32 w.2 | none => List.replicate 8 0)
      ++ (match r.expected with | some v => 1 :: le16 v | none => [0, 0, 0])
      ++ [u8 (s.queue a).length, u8 (s.pendingSlots a).length] := by
  unfold State.nodeBytes
  rw [he, hr]
  dsimp only
  rw [hx, windowBytes_eq]
  simp only [List.append_assoc] <;> rfl

end

/-- Settles O24: each request answers by whether its argument is a node address, then by the records of that address. -/
theorem readNodeAndNodeCounters : Obligations.ReadNodeAndNodeCounters := by
  intro s tag rest i b a node read clear
  refine ⟨fun h => ⟨fun ha => ?_, fun e r x he hr hx => ?_, fun hlow hhigh he hr => ?_⟩,
    fun h => ⟨fun ha => ?_, fun r hr => ?_, fun hlow hhigh hr => ?_⟩,
    fun h => ⟨fun ha => ?_, fun r hr => ?_, fun hlow hhigh hr => ?_⟩⟩
  · refine h.exec_readNode.trans ?_
    rw [isAddress_eq_false ha]; rfl
  · refine h.exec_readNode.trans ?_
    rw [isAddress_of_runtime hr, nodeBytes_configured he hr hx, u8_toNat]; rfl
  · refine h.exec_readNode.trans ?_
    rw [isAddress_eq_true hlow hhigh, nodeBytes_unconfigured he hr, u8_toNat]; rfl
  · refine h.exec_readNodeCounters.trans ?_
    rw [isAddress_eq_false ha]; rfl
  · refine h.exec_readNodeCounters.trans ?_
    rw [isAddress_of_runtime hr, hr]; rfl
  · refine h.exec_readNodeCounters.trans ?_
    rw [isAddress_eq_true hlow hhigh, hr]; rfl
  · refine h.exec_clearNodeCounters.trans ?_
    rw [isAddress_eq_false ha]; rfl
  · refine h.exec_clearNodeCounters.trans ?_
    rw [isAddress_of_runtime hr, mapRuntime_of_runtime hr]; rfl
  · refine h.exec_clearNodeCounters.trans ?_
    rw [isAddress_eq_true hlow hhigh, mapRuntime_of_none hr]; rfl

end Sys2Proof.Machine
end

section
/-! SUPPORT. WRITE NODE and WRITE CONFIG RECORD (R37): the judgement of a node record's fields, its clamps, and the record that
the edit copy then holds. -/

namespace Sys2Proof.Machine

/-! ### Fields of a record -/

theorem word16At_toNat (bs : List Byte) (k : Nat) :
    (word16At bs k).toNat = (byteAt bs k).toNat + 256 * (byteAt bs (k + 1)).toNat := by
  unfold word16At word16
  rw [BitVec.toNat_append, ← Nat.shiftLeft_add_eq_or_of_lt (byteAt bs k).isLt, Nat.shiftLeft_eq]
  omega

theorem le16n_byteAt_pair (bs : List Byte) (k : Nat) :
    le16n ((byteAt bs k).toNat + 256 * (byteAt bs (k + 1)).toNat) = [byteAt bs k, byteAt bs (k + 1)] := by
  rw [← word16At_toNat, le16n, BitVec.ofNat_toNat, BitVec.setWidth_eq, le16, word16At, word16,
    BitVec.extractLsb'_append_eq_of_add_le (by decide), BitVec.extractLsb'_append_eq_of_le (by decide)]
  simp

/-- A stretch of a list, byte by byte. -/
theorem take_drop_eq_map_byteAt {bs : List Byte} {k n : Nat} (h : k + n ≤ bs.length) :
    (bs.drop k).take n = (List.range' k n).map (byteAt bs) := by
  refine List.ext_getElem (by simp; omega) fun j hj _ => ?_
  have hj' : k + j < bs.length := by simp at hj; omega
  simp [byteAt, hj']

theorem NodeClass.ofCode_cases (b : Byte) :
    (∃ c, NodeClass.ofCode b = some c ∧ c.code = b ∧ b.toNat ≤ 1) ∨ (NodeClass.ofCode b = none ∧ 1 < b.toNat) := by
  unfold NodeClass.ofCode
  split
  · next h => exact .inl ⟨_, rfl, h.symm, by simp [h]⟩
  · split
    · next h => exact .inl ⟨_, rfl, h.symm, by simp [h]⟩
    · exact .inr ⟨rfl, by bv_omega⟩

theorem Supply.ofCode_cases (b : Byte) :
    (∃ c, Supply.ofCode b = some c ∧ c.code = b ∧ b.toNat ≤ 1) ∨ (Supply.ofCode b = none ∧ 1 < b.toNat) := by
  unfold Supply.ofCode
  split
  · next h => exact .inl ⟨_, rfl, h.symm, by simp [h]⟩
  · split
    · next h => exact .inl ⟨_, rfl, h.symm, by simp [h]⟩
    · exact .inr ⟨rfl, by bv_omega⟩

theorem ImagePolicy.ofCode_cases (b : Byte) :
    (∃ c, ImagePolicy.ofCode b = some c ∧ c.code = b ∧ b.toNat ≤ 2) ∨ (ImagePolicy.ofCode b = Option.none ∧ 2 < b.toNat) := by
  unfold ImagePolicy.ofCode
  split
  · next h => exact .inl ⟨_, rfl, h.symm, by simp [h]⟩
  · split
    · next h => exact .inl ⟨_, rfl, h.symm, by simp [h]⟩
    · split
      · next h => exact .inl ⟨_, rfl, h.symm, by simp [h]⟩
      · exact .inr ⟨rfl, by bv_omega⟩

/-! ### The node record (R37) -/

/-- A present node record fails a test of R37. -/
def NodeFieldsBad (bs : List Byte) : Prop :=
  let v := fun (k : Nat) => (byteAt bs k).toNat
  1 < v 1 ∨ 1 < v 2 ∨ 2 < v 4 ∨ 16 < v 13 ∨ 600 < v 14 + 256 * v 15 ∨ 95 < v 16 ∨ 8 < v 17

/-- A present node record as it is held, every clamp of R37 applied. -/
def heldNodeRecord (bs : List Byte) : List Byte :=
  let v := fun (k : Nat) => (byteAt bs k).toNat
  let w := fun (k : Nat) => v k + 256 * v (k + 1)
  let opens := min (w 9) 6000
  bs.take 5 ++ le16n (min (w 5) 4095) ++ le16n (max (w 7) 1) ++ le16n opens
    ++ le16n (max (max (min (w 11) 6000) 1) opens) ++ bs.drop 13

/-- The entry whose fields a present node record spells, with an empty config record. -/
def spelledNode (bs : List Byte) (cls : NodeClass) (supply : Supply) (policy : ImagePolicy) : NodeEntry :=
  { cls := cls, supply := supply, kind := byteAt bs 3, policy := policy
    holdup := (word16At bs 5).toNat, recharge := (word16At bs 7).toNat
    bootMin := (word16At bs 9).toNat, bootMax := (word16At bs 11).toNat
    holdCap := (byteAt bs 13).toNat, holdLifetime := (word16At bs 14).toNat
    shadowBase := (byteAt bs 16).toNat, shadowCount := (byteAt bs 17).toNat, config := [] }

/-- The record of the clamped entry is the record held. -/
theorem nodeRecord_clampNode {bs : List Byte} {cls : NodeClass} {supply : Supply} {policy : ImagePolicy}
    (hlength : bs.length = 18) (hpresent : byteAt bs 0 = 1) (hcls : cls.code = byteAt bs 1)
    (hsupply : supply.code = byteAt bs 2) (hpolicy : policy.code = byteAt bs 4) :
    nodeRecord (some (clampNode (spelledNode bs cls supply policy))) = heldNodeRecord bs := by
  have hhead : bs.take 5 = [byteAt bs 0, byteAt bs 1, byteAt bs 2, byteAt bs 3, byteAt bs 4] :=
    take_drop_eq_map_byteAt (k := 0) (n := 5) (by omega)
  have htail : bs.drop 13 = [byteAt bs 13, byteAt bs 14, byteAt bs 15, byteAt bs 16, byteAt bs 17] := by
    rw [← List.take_of_length_le (l := bs.drop 13) (i := 5) (by simp; omega)]
    exact take_drop_eq_map_byteAt (k := 13) (n := 5) (by omega)
  have hlifetime := le16n_byteAt_pair bs 14
  simp [nodeRecord, clampNode, spelledNode, heldNodeRecord, hhead, htail, hpresent, hcls, hsupply, hpolicy, hlifetime,
    word16At_toNat, u8_toNat]

/-- A present node record fails a test of R37 and is refused, or gives its clamped entry. -/
theorem parseNode_present {bs : List Byte} (hpresent : byteAt bs 0 = 1) :
    (NodeFieldsBad bs ∧ parseNode bs = none)
      ∨ (¬ NodeFieldsBad bs ∧ ∃ cls supply policy, cls.code = byteAt bs 1 ∧ supply.code = byteAt bs 2
          ∧ policy.code = byteAt bs 4 ∧ parseNode bs = some (some (clampNode (spelledNode bs cls supply policy)))) := by
  unfold parseNode NodeFieldsBad
  dsimp only
  rw [hpresent, if_neg (by decide), if_neg (by simp), ← word16At_toNat]
  obtain ⟨cls, hcls, hcode1, hle1⟩ | ⟨hcls, hbad⟩ := NodeClass.ofCode_cases (byteAt bs 1)
  case inr => exact .inl ⟨.inl hbad, by rw [hcls]⟩
  obtain ⟨supply, hsupply, hcode2, hle2⟩ | ⟨hsupply, hbad⟩ := Supply.ofCode_cases (byteAt bs 2)
  case inr => exact .inl ⟨.inr (.inl hbad), by rw [hsupply, hcls]⟩
  obtain ⟨policy, hpolicy, hcode4, hle4⟩ | ⟨hpolicy, hbad⟩ := ImagePolicy.ofCode_cases (byteAt bs 4)
  case inr => exact .inl ⟨.inr (.inr (.inl hbad)), by rw [hpolicy, hsupply, hcls]⟩
  rw [hcls, hsupply, hpolicy]
  dsimp only
  split
  · next hbad => exact .inl ⟨.inr (.inr (.inr hbad)), rfl⟩
  · next hgood => exact .inr ⟨by omega, cls, supply, policy, hcode1, hcode2, hcode4, rfl⟩

theorem parseNode_absent {bs : List Byte} (h : byteAt bs 0 = 0) : parseNode bs = some none := if_pos h

theorem parseNode_unknown {bs : List Byte} (h : 1 < (byteAt bs 0).toNat) : parseNode bs = none := by
  unfold parseNode
  rw [if_neg (by bv_omega), if_pos (by bv_omega)]

/-! ### The two requests -/

section
variable {s : State} {tag : Word16} {rest : List TrunkFrame} {i : Nat} {b : Byte} {bs : List Byte}

/-- What the tests of R37 make of a request's address and record: outer `none` is INVALID. -/
def judgedNode (b : Byte) (bs : List Byte) : Option (Option NodeEntry) :=
  if isAddress b.toNat then parseNode bs else none

/-- WRITE NODE in DEPOT refuses, or replaces the edit copy's entry with its config record kept (R37). -/
theorem State.Asks.exec_writeNode (h : s.Asks .writeNode tag (b :: bs) rest i) (hmode : s.responder.mode = .depot) :
    let t := s.responder.edit
    exec .writeNode s = .next (endCommand
      (match judgedNode b bs with
      | none => s.replies .writeNode tag rest i .invalid []
      | some e =>
        let held := e.map (newEntry (t.node b.toNat))
        (s.edited { t with nodes := putNode t.nodes b.toNat held }).replies .writeNode tag rest i .done
          (b :: nodeRecord held))) := by
  intro t
  have hact : actWriteNode (asked .writeNode tag (b :: bs) i) (s.reserved rest i) =
      match judgedNode b bs with
      | none => invalid (asked .writeNode tag (b :: bs) i) (s.reserved rest i)
      | some e =>
        let held := e.map (newEntry (t.node b.toNat))
        done (asked .writeNode tag (b :: bs) i) (b :: nodeRecord held)
          ((s.edited { t with nodes := putNode t.nodes b.toNat held }).reserved rest i) := by
    unfold actWriteNode judgedNode
    by_cases ha : isAddress b.toNat = true
    · rw [if_pos ha]; exact if_pos ha
    · rw [if_neg ha]; exact if_neg ha
  rw [h.runs_act (act := actWriteNode) rfl (fun _ => hmode) rfl, hact]
  cases judgedNode b bs with
  | none => dsimp only; rw [invalid_asked]
  | some e => dsimp only; rw [done_asked]

/-- WRITE CONFIG RECORD in DEPOT refuses an absent entry, and replaces the config record of a present one (R37). -/
theorem State.Asks.exec_writeConfigRecord (h : s.Asks .writeConfigRecord tag (b :: bs) rest i)
    (hmode : s.responder.mode = .depot) :
    let t := s.responder.edit
    exec .writeConfigRecord s = .next (endCommand
      (match t.node b.toNat with
      | none => s.replies .writeConfigRecord tag rest i .invalid []
      | some e =>
        (s.edited { t with nodes := putNode t.nodes b.toNat (some { e with config := bs }) }).replies .writeConfigRecord
          tag rest i .done [b])) := by
  intro t
  have hact : actWriteConfigRecord (asked .writeConfigRecord tag (b :: bs) i) (s.reserved rest i) =
      match t.node b.toNat with
      | none => invalid (asked .writeConfigRecord tag (b :: bs) i) (s.reserved rest i)
      | some e =>
        done (asked .writeConfigRecord tag (b :: bs) i) [b]
          ((s.edited { t with nodes := putNode t.nodes b.toNat (some { e with config := bs }) }).reserved rest i) := rfl
  rw [h.runs_act (act := actWriteConfigRecord) rfl (fun _ => hmode) rfl, hact]
  cases t.node b.toNat with
  | none => dsimp only; rw [invalid_asked]
  | some e => dsimp only; rw [done_asked]

/-- The tests of R37 on a request's address and record. -/
theorem judgedNode_none (hbad : (b.toNat = 0 ∨ 30 < b.toNat) ∨ 1 < (byteAt bs 0).toNat
    ∨ (byteAt bs 0).toNat = 1 ∧ NodeFieldsBad bs) : judgedNode b bs = none := by
  unfold judgedNode
  obtain ha | hunknown | ⟨hpresent, hfields⟩ := hbad
  · rw [isAddress_eq_false ha]; rfl
  · rw [parseNode_unknown hunknown, ite_self]
  · obtain ⟨-, hnone⟩ | ⟨hgood, -⟩ := parseNode_present (bs := bs) (BitVec.eq_of_toNat_eq hpresent)
    · rw [hnone, ite_self]
    · exact absurd hfields hgood

theorem judgedNode_address (ha : ¬ (b.toNat = 0 ∨ 30 < b.toNat)) : judgedNode b bs = parseNode bs :=
  if_pos (isAddress_eq_true (by omega) (by omega))

end

/-- Settles O32: the address and the record are judged, and then the edit copy takes the clamped entry. -/
theorem writeNodeAndConfigRecord : Obligations.WriteNodeAndConfigRecord := by
  intro s tag rest i b bs depot a t v w write config opens held bad
  refine ⟨fun h => ⟨fun hmode => ?_, fun hmode hbad => ?_, fun hmode hgood h0 => ?_, fun hmode hgood h1 => ?_⟩,
    fun h => ⟨fun hmode => ?_, fun hmode hnone => ?_, fun e hmode he => ?_⟩⟩
  · exact h.answers_mode (act := actWriteNode) rfl rfl hmode
  · refine (h.exec_writeNode hmode).trans ?_
    rw [judgedNode_none (or_assoc.mpr hbad)]
  · refine (h.exec_writeNode hmode).trans ?_
    obtain ⟨ha, -⟩ := not_or.mp (mt or_assoc.mp hgood)
    rw [judgedNode_address ha, parseNode_absent (BitVec.eq_of_toNat_eq h0)]
    rfl
  · obtain ⟨ha, hrecord⟩ := not_or.mp (mt or_assoc.mp hgood)
    have hpresent : byteAt bs 0 = 1 := BitVec.eq_of_toNat_eq h1
    have hlength : bs.length = 18 := by simpa [argumentsFit] using h.2
    obtain ⟨hfields, -⟩ | ⟨-, cls, supply, policy, hcls, hsupply, hpolicy, hparse⟩ := parseNode_present hpresent
    · exact absurd (.inr ⟨h1, hfields⟩) hrecord
    have hheld : nodeRecord (some (newEntry (t.node a) (clampNode (spelledNode bs cls supply policy)))) = held :=
      nodeRecord_clampNode hlength hpresent hcls hsupply hpolicy
    refine ⟨newEntry (t.node a) (clampNode (spelledNode bs cls supply policy)), hheld, fun old hold => ?_, fun hnone => ?_,
      (h.exec_writeNode hmode).trans ?_⟩
    · rw [hold]; rfl
    · rw [hnone]; rfl
    · rw [judgedNode_address ha, hparse, ← hheld]
      rfl
  · exact h.answers_mode (act := actWriteConfigRecord) rfl rfl hmode
  · refine (h.exec_writeConfigRecord hmode).trans ?_
    rw [hnone]
  · refine (h.exec_writeConfigRecord hmode).trans ?_
    rw [he]

end Sys2Proof.Machine
end

section
/-! SUPPORT. Which rule a request matches (R88, R89, R92, R97). -/

namespace Sys2Proof.Machine

section
variable {t : Tables} {q : SegmentRequest} {r : Rule}

/-! ### The four tests of a rule (R88) -/

theorem Selector.matchesPayload_iff (x : Selector) (payload : List Byte) :
    x.matchesPayload payload = true ↔ ∃ b, payload[x.index]? = some b ∧ b &&& x.mask = x.value &&& x.mask := by
  unfold Selector.matchesPayload
  cases payload[x.index]? with
  | none => simp
  | some b => simp

theorem Rule.takesKind_iff (r : Rule) (k : RequestKind) :
    r.takesKind k = true ↔ (k = .command → r.onCommand = true) ∧ (k = .query → r.onQuery = true)
      ∧ (k = .broadcast → r.onBroadcast = true) := by
  cases k <;> simp [Rule.takesKind]

theorem Rule.takesDestination_iff (t : Tables) (r : Rule) (q : SegmentRequest) :
    r.takesDestination t q = true ↔
      ∀ k, r.set = some k → if q.kind = .broadcast then t.set k ≠ [] else q.destination ∈ t.set k := by
  unfold Rule.takesDestination
  cases r.set with
  | none => simp
  | some k =>
    by_cases hkind : q.kind = .broadcast
    · simp [hkind]
    · simp [hkind]

theorem Rule.takes_iff (t : Tables) (q : SegmentRequest) (r : Rule) :
    r.takes t q = true ↔ r.takesDestination t q = true ∧ r.takesKind q.kind = true ∧ r.low.toNat ≤ q.function.toNat
      ∧ q.function.toNat ≤ r.high.toNat ∧ ∀ x, r.selector = some x → x.matchesPayload q.payload = true := by
  unfold Rule.takes
  cases r.selector with
  | none => simp [and_assoc]
  | some x => simp [and_assoc]

/-! ### The first match (R97) -/

/-- The search of R97 stops at a present rule that takes the request, when no present rule before it does. -/
theorem Tables.firstMatch_eq_some {k : Nat} (hk : k < 48) (hr : t.rule k = some r) (htakes : r.takes t q = true)
    (hfirst : ∀ j r', j < k → t.rule j = some r' → r'.takes t q = false) : t.firstMatch q = some k := by
  refine List.find?_range_eq_some.mpr ⟨by rw [hr]; exact htakes, List.mem_range.mpr hk, fun j hj => ?_⟩
  cases hrule : t.rule j with
  | none => rfl
  | some r' => simp [hfirst j r' hj hrule]

theorem Tables.firstMatch_eq_none (hnone : ∀ j r', j < 48 → t.rule j = some r' → r'.takes t q = false) :
    t.firstMatch q = none := by
  refine List.find?_range_eq_none.mpr fun j hj => ?_
  cases hrule : t.rule j with
  | none => rfl
  | some r' => simp [hnone j r' hj hrule]

theorem Tables.matched_of_firstMatch {k : Nat} (hfirst : t.firstMatch q = some k) (hr : t.rule k = some r) :
    t.matched q = { ref := .rule k, set := r.set, action := r.action } := by
  unfold Tables.matched; rw [hfirst]; dsimp only; rw [hr]

theorem Tables.matched_of_no_match (hnone : t.firstMatch q = none) :
    t.matched q = { ref := .defaultRule, set := none, action := t.defaultAction } := by
  unfold Tables.matched; rw [hnone]

end

/-- Settles O21: the search finds the first taker, or none, and a rule takes a request that passes its four tests. -/
theorem firstMatchingRuleDecides : Obligations.FirstMatchingRuleDecides := by
  refine ⟨fun t q k r hk hr htakes hfirst => ?_, fun t q hnone => ?_, fun t q r => ?_⟩
  · exact Tables.matched_of_firstMatch (Tables.firstMatch_eq_some hk hr htakes hfirst) hr
  · exact Tables.matched_of_no_match (Tables.firstMatch_eq_none hnone)
  · simp only [Rule.takes_iff, Rule.takesDestination_iff, Rule.takesKind_iff, Selector.matchesPayload_iff, and_assoc]

end Sys2Proof.Machine
end

section
/-! SUPPORT. READ RULE (R93). -/

namespace Sys2Proof.Machine

section
variable {s : State} {tag : Word16} {rest : List TrunkFrame} {i : Nat} {b : Byte}

/-- READ RULE answers by its index: FFh, 0..47, or any other (R93). -/
theorem State.Asks.exec_readRule (h : s.Asks .readRule tag [b] rest i) :
    exec .readRule s = .next (endCommand
      (if b.toNat = 255 then s.replies .readRule tag rest i .done (b :: defaultRuleRecord s.tables.defaultAction)
      else if b.toNat < 48 then s.replies .readRule tag rest i .done (b :: ruleRecord (s.tables.rule b.toNat))
      else s.replies .readRule tag rest i .invalid [])) := by
  rw [h.runs_act (act := actReadRule) rfl nofun rfl, ← done_asked (args := [b]), ← done_asked (args := [b]),
    ← invalid_asked (args := [b])]
  rfl

theorem State.Asks.exec_readRule_index (h : s.Asks .readRule tag [b] rest i) (hb : b.toNat < 48) :
    exec .readRule s =
      .next (endCommand (s.replies .readRule tag rest i .done (b :: ruleRecord (s.tables.rule b.toNat)))) := by
  rw [h.exec_readRule, if_neg (by omega), if_pos hb]

end

/-- Settles O26: the index decides which record is answered. -/
theorem readRuleAnswersRecord : Obligations.ReadRuleAnswersRecord := by
  intro s tag rest i b h read slot action bit
  refine ⟨fun hb hnone => ?_, fun r hb hr => ?_, fun hb => ?_, fun hb hdefault => ?_⟩
  · refine (h.exec_readRule_index hb).trans ?_
    rw [hnone]; rfl
  · refine (h.exec_readRule_index hb).trans ?_
    rw [hr]; rfl
  · subst hb
    exact h.exec_readRule
  · have h255 : b.toNat ≠ 255 := fun heq => hdefault (BitVec.eq_of_toNat_eq heq)
    refine h.exec_readRule.trans ?_
    rw [if_neg h255, if_neg (by omega)]

end Sys2Proof.Machine
end

section
/-! SUPPORT. READ SET and WRITE SET (R87). -/

namespace Sys2Proof.Machine

/-! ### Address sets -/

/-- The members of a set, ascending, with `∈` for the list's own test. -/
theorem addressSet_eq_filter (m : List Nat) : addressSet m = addresses.filter (fun a => decide (a ∈ m)) := by
  simp [addressSet]

theorem addressSet_addressSet (m : List Nat) : addressSet (addressSet m) = addressSet m := by
  rw [addressSet_eq_filter (addressSet m), addressSet_eq_filter m]
  refine List.filter_congr fun a ha => ?_
  simp [ha]

theorem setBytes_addressSet (k : Nat) (m : List Nat) : setBytes k (addressSet m) = setBytes k m := by
  rw [setBytes, addressSet_addressSet, setBytes]

/-- A set that WRITE SET refuses for its members (R87). -/
def SetBad (n : Byte) (ms : List Byte) : Prop :=
  30 < n.toNat ∨ (∃ m ∈ ms, m = 0 ∨ 30 < m.toNat) ∨ ¬ ms.Nodup

/-- A member byte is a node address unless it is 0 or above 30. -/
theorem isAddress_toNat_iff (m : Byte) : isAddress m.toNat = true ↔ ¬ (m = 0 ∨ 30 < m.toNat) := by
  rw [isAddress, decide_eq_true_iff]
  bv_omega

theorem members_fit_iff (n : Byte) (ms : List Byte) :
    (n.toNat ≤ 30 ∧ (ms.map BitVec.toNat).all isAddress = true ∧ (ms.map BitVec.toNat).Nodup) ↔ ¬ SetBad n ms := by
  have hall : (ms.map BitVec.toNat).all isAddress = true ↔ ¬ ∃ m ∈ ms, m = 0 ∨ 30 < m.toNat := by
    simp only [List.all_map, List.all_eq_true, Function.comp_apply, isAddress_toNat_iff, not_exists, not_and]
  have hnodup : (ms.map BitVec.toNat).Nodup ↔ ms.Nodup := List.nodup_map_iff BitVec.toNat_injective
  rw [hall, hnodup, SetBad, not_or, not_or, not_lt, not_not]

theorem parseMembers_bad {n : Byte} {ms : List Byte} (h : SetBad n ms) : parseMembers n.toNat ms = none :=
  if_neg fun hfit => (members_fit_iff n ms).mp hfit h

theorem parseMembers_good {n : Byte} {ms : List Byte} (h : ¬ SetBad n ms) :
    parseMembers n.toNat ms = some (addressSet (ms.map BitVec.toNat)) :=
  if_pos ((members_fit_iff n ms).mpr h)

/-! ### The two requests -/

section
variable {s : State} {tag : Word16} {rest : List TrunkFrame} {i : Nat} {b n : Byte} {ms : List Byte}

theorem State.Asks.exec_readSet (h : s.Asks .readSet tag [b] rest i) :
    exec .readSet s = .next (endCommand
      (if b.toNat < 8 then s.replies .readSet tag rest i .done (setBytes b.toNat (s.tables.set b.toNat))
      else s.replies .readSet tag rest i .invalid [])) := by
  rw [h.runs_act (act := actReadSet) rfl nofun rfl, ← done_asked (args := [b]), ← invalid_asked (args := [b])]
  rfl

/-- What the tests of R87 make of WRITE SET's index, count and members: `none` is INVALID. -/
def judgedSet (b n : Byte) (ms : List Byte) : Option (List Nat) :=
  if b.toNat < 8 then parseMembers n.toNat ms else none

theorem judgedSet_none (hbad : 7 < b.toNat ∨ SetBad n ms) : judgedSet b n ms = none := by
  unfold judgedSet
  obtain hindex | hmembers := hbad
  · rw [if_neg (by omega)]
  · rw [parseMembers_bad hmembers, ite_self]

theorem judgedSet_some (hgood : ¬ (7 < b.toNat ∨ SetBad n ms)) :
    judgedSet b n ms = some (addressSet (ms.map BitVec.toNat)) := by
  obtain ⟨hindex, hmembers⟩ := not_or.mp hgood
  rw [judgedSet, if_pos (by omega), parseMembers_good hmembers]

/-- WRITE SET in DEPOT refuses, or replaces the whole set in the edit copy (R87). -/
theorem State.Asks.exec_writeSet (h : s.Asks .writeSet tag (b :: n :: ms) rest i) (hmode : s.responder.mode = .depot) :
    let t := s.responder.edit
    exec .writeSet s = .next (endCommand
      (match judgedSet b n ms with
      | none => s.replies .writeSet tag rest i .invalid []
      | some m =>
        (s.edited { t with sets := t.sets.setIfInBounds b.toNat m }).replies .writeSet tag rest i .done
          (setBytes b.toNat m))) := by
  intro t
  have hact : actWriteSet (asked .writeSet tag (b :: n :: ms) i) (s.reserved rest i) =
      match judgedSet b n ms with
      | none => invalid (asked .writeSet tag (b :: n :: ms) i) (s.reserved rest i)
      | some m =>
        done (asked .writeSet tag (b :: n :: ms) i) (setBytes b.toNat m)
          ((s.edited { t with sets := t.sets.setIfInBounds b.toNat m }).reserved rest i) := by
    unfold actWriteSet judgedSet
    by_cases hb : b.toNat < 8
    · rw [if_pos hb]; exact if_pos hb
    · rw [if_neg hb]; exact if_neg hb
  rw [h.runs_act (act := actWriteSet) rfl (fun _ => hmode) rfl, hact]
  cases judgedSet b n ms with
  | none => dsimp only; rw [invalid_asked]
  | some m => dsimp only; rw [done_asked]

end

/-- Settles O28: READ SET answers by its index, WRITE SET by the tests on its index, count and members. -/
theorem addressSetsReadAndWritten : Obligations.AddressSetsReadAndWritten := by
  intro s tag rest i b n ms ascending shown bad read write
  have hshown : ∀ m, setBytes b.toNat m = shown m := fun m => by
    rw [setBytes, u8_toNat, addressSet_eq_filter]
  refine ⟨fun h => ⟨fun m hm => ?_, fun hb => ?_⟩, fun h => ⟨fun hmode => ?_, fun hmode hbad => ?_, fun hmode hgood => ?_⟩⟩
  · have hb : b.toNat < 8 := (Vector.getElem?_eq_some_iff.mp hm).1
    refine h.exec_readSet.trans ?_
    rw [if_pos hb, hshown, Tables.set, hm]; rfl
  · refine h.exec_readSet.trans ?_
    rw [if_neg (by omega)]
  · exact h.answers_mode (act := actWriteSet) rfl rfl (by simp [hmode])
  · refine (h.exec_writeSet hmode).trans ?_
    rw [judgedSet_none hbad]
  · refine (h.exec_writeSet hmode).trans ?_
    rw [judgedSet_some hgood]
    dsimp only
    rw [setBytes_addressSet, hshown, addressSet_eq_filter]

end Sys2Proof.Machine
end

section
/-! SUPPORT. WRITE RULE and WRITE DEFAULT (R91, R92): the judgement of a rule record's fields, and the rule that the edit copy
then holds. -/

namespace Sys2Proof.Machine

/-! ### Fields of a record -/

/-- A field of two codes, 0 and 1. -/
theorem ofTwoCodes_cases {α : Type} {code : α → Byte} {x y : α} (hx : code x = 0) (hy : code y = 1) (b : Byte) :
    (∃ c, (if b = 0 then some x else if b = 1 then some y else none) = some c ∧ code c = b ∧ b.toNat ≤ 1)
      ∨ ((if b = 0 then some x else if b = 1 then some y else none) = none ∧ 1 < b.toNat) := by
  split
  · next h => exact .inl ⟨x, rfl, by rw [hx, h], by simp [h]⟩
  · split
    · next h => exact .inl ⟨y, rfl, by rw [hy, h], by simp [h]⟩
    · exact .inr ⟨rfl, by bv_omega⟩

theorem RuleVerdict.ofCode_cases (b : Byte) :
    (∃ c, RuleVerdict.ofCode b = some c ∧ c.code = b ∧ b.toNat ≤ 1) ∨ (RuleVerdict.ofCode b = none ∧ 1 < b.toNat) :=
  ofTwoCodes_cases (code := RuleVerdict.code) rfl rfl b

theorem Urgency.ofCode_cases (b : Byte) :
    (∃ c, Urgency.ofCode b = some c ∧ c.code = b ∧ b.toNat ≤ 1) ∨ (Urgency.ofCode b = none ∧ 1 < b.toNat) :=
  ofTwoCodes_cases (code := Urgency.code) rfl rfl b

theorem ReplayPolicy.ofCode_cases (b : Byte) :
    (∃ c, ReplayPolicy.ofCode b = some c ∧ c.code = b ∧ b.toNat ≤ 1) ∨ (ReplayPolicy.ofCode b = none ∧ 1 < b.toNat) :=
  ofTwoCodes_cases (code := ReplayPolicy.code) rfl rfl b

theorem AbsentPolicy.ofCode_cases (b : Byte) :
    (∃ c, AbsentPolicy.ofCode b = some c ∧ c.code = b ∧ b.toNat ≤ 2) ∨ (AbsentPolicy.ofCode b = none ∧ 2 < b.toNat) := by
  unfold AbsentPolicy.ofCode
  split
  · next h => exact .inl ⟨_, rfl, h.symm, by simp [h]⟩
  · split
    · next h => exact .inl ⟨_, rfl, h.symm, by simp [h]⟩
    · split
      · next h => exact .inl ⟨_, rfl, h.symm, by simp [h]⟩
      · exact .inr ⟨rfl, by bv_omega⟩

/-- A slot or set number that its field can spell. -/
def SlotFits (x : Option Nat) : Prop := ∀ k, x = some k → k ≤ 7

theorem slotOfCode_cases (b : Byte) :
    (∃ x, slotOfCode b = some x ∧ slotCode x = b ∧ SlotFits x ∧ (b.toNat ≤ 7 ∨ b.toNat = 255))
      ∨ (slotOfCode b = none ∧ 7 < b.toNat ∧ b.toNat ≠ 255) := by
  unfold slotOfCode
  split
  · next h => exact .inl ⟨none, rfl, h.symm, nofun, .inr (by simp [h])⟩
  · next hnone =>
    split
    · next h => exact .inl ⟨some b.toNat, rfl, u8_toNat b, fun k hk => by cases hk; exact h, .inl h⟩
    · exact .inr ⟨rfl, by omega, by bv_omega⟩

theorem slotCode_toNat {x : Option Nat} (hx : SlotFits x) : (slotCode x).toNat = x.getD 255 := by
  cases x with
  | none => rfl
  | some k =>
    have := hx k rfl
    simp [slotCode, u8]; omega

/-! ### The action part (R91) -/

/-- The five action fields from offset `n` on fail a test of R91. -/
def ActionFieldsBad (bs : List Byte) (n : Nat) : Prop :=
  let v := fun (k : Nat) => (byteAt bs k).toNat
  1 < v n ∨ (7 < v (n + 1) ∧ v (n + 1) ≠ 255) ∨ 2 < v (n + 2) ∨ 1 < v (n + 3) ∨ 1 < v (n + 4)
    ∨ (v (n + 1) ≤ 7 ∧ v (n + 2) = 0) ∨ (v (n + 2) = 1 ∧ v (n + 1) = 255)

/-- The two shadow tests of R91, on the bytes of the slot field and the absent policy. -/
theorem Action.valid_iff {a : Action} (hslot : SlotFits a.part.slot) :
    a.valid = true ↔
      ¬ (((slotCode a.part.slot).toNat ≤ 7 ∧ a.part.absent.code.toNat = 0)
        ∨ (a.part.absent.code.toNat = 1 ∧ (slotCode a.part.slot).toNat = 255)) := by
  rw [slotCode_toNat hslot]
  unfold Action.valid ActionPart.policiesFit
  cases hx : a.part.slot with
  | none => cases a.part.absent <;> simp [AbsentPolicy.code]
  | some k =>
    have hk := hslot k hx
    cases a.part.absent <;> simp [AbsentPolicy.code] <;> omega

theorem byteAt_drop (bs : List Byte) (n k : Nat) : byteAt (bs.drop n) k = byteAt bs (n + k) := by
  simp [byteAt]

/-- Five action fields fail a test of R91 and are refused, or give the action they spell. -/
theorem parseAction_cases (bs : List Byte) (n : Nat) :
    (ActionFieldsBad bs n ∧ parseAction (bs.drop n) = none)
      ∨ (¬ ActionFieldsBad bs n ∧ ∃ a, a.valid = true ∧ parseAction (bs.drop n) = some a
          ∧ actionBytes a = (List.range' n 5).map (byteAt bs)) := by
  unfold parseAction ActionFieldsBad
  simp only [byteAt_drop, Nat.add_zero]
  obtain ⟨verdict, hverdict, hcode0, hle0⟩ | ⟨hverdict, hbad⟩ := RuleVerdict.ofCode_cases (byteAt bs n)
  case inr => exact .inl ⟨.inl hbad, by rw [hverdict]⟩
  obtain ⟨slot, hslot, hcode1, hfits, hle1⟩ | ⟨hslot, hbad⟩ := slotOfCode_cases (byteAt bs (n + 1))
  case inr => exact .inl ⟨.inr (.inl hbad), by rw [hslot, hverdict]⟩
  obtain ⟨absent, habsent, hcode2, hle2⟩ | ⟨habsent, hbad⟩ := AbsentPolicy.ofCode_cases (byteAt bs (n + 2))
  case inr => exact .inl ⟨by omega, by rw [habsent, hslot, hverdict]⟩
  obtain ⟨urgency, hurgency, hcode3, hle3⟩ | ⟨hurgency, hbad⟩ := Urgency.ofCode_cases (byteAt bs (n + 3))
  case inr => exact .inl ⟨by omega, by rw [hurgency, habsent, hslot, hverdict]⟩
  obtain ⟨policy, hpolicy, hcode4, hle4⟩ | ⟨hpolicy, hbad⟩ := ReplayPolicy.ofCode_cases (byteAt bs (n + 4))
  case inr => exact .inl ⟨by omega, by rw [hpolicy, hurgency, habsent, hslot, hverdict]⟩
  rw [hverdict, hslot, habsent, hurgency, hpolicy]
  dsimp only
  have hvalid := Action.valid_iff (a := ⟨verdict, slot, absent, urgency, policy⟩) hfits
  simp only [hcode1, hcode2] at hvalid
  split
  · next h =>
    have hgood := hvalid.mp h
    refine .inr ⟨by omega, _, h, rfl, ?_⟩
    simp [actionBytes, hcode0, hcode1, hcode2, hcode3, hcode4, List.range'_succ]
  · next h =>
    have hbad := not_not.mp (mt hvalid.mpr h)
    exact .inl ⟨by omega, rfl⟩

/-! ### The rule record (R91) -/

/-- A present rule record fails a test of R91. -/
def RuleFieldsBad (bs : List Byte) : Prop :=
  let v := fun (k : Nat) => (byteAt bs k).toNat
  (7 < v 1 ∧ v 1 ≠ 255) ∨ v 2 = 0 ∨ 7 < v 2 ∨ v 4 < v 3 ∨ 1 < v 5 ∨ (v 5 = 1 ∧ 63 < v 6) ∨ ActionFieldsBad bs 9

/-- A present rule record as it is held: an absent selector's bytes are 0. -/
def heldRuleRecord (bs : List Byte) : List Byte :=
  if (byteAt bs 5).toNat = 1 then bs else bs.take 6 ++ [0, 0, 0] ++ bs.drop 9

/-- The selector field of a rule record; the outer `none` is a code that R91 refuses. -/
def spelledSelector (bs : List Byte) : Option (Option Selector) :=
  if byteAt bs 5 = 0 then some none
  else if byteAt bs 5 = 1 then some (some { index := (byteAt bs 6).toNat, value := byteAt bs 7, mask := byteAt bs 8 })
  else none

/-- The four selector bytes of a rule record. -/
def selectorBytes : Option Selector → List Byte
  | some x => [1, u8 x.index, x.value, x.mask]
  | none => [0, 0, 0, 0]

/-- The rule whose fields a present rule record spells. -/
def spelledRule (bs : List Byte) (set : Option Nat) (selector : Option Selector) (action : Action) : Rule :=
  { set := set, onCommand := (byteAt bs 2).getLsbD 0, onQuery := (byteAt bs 2).getLsbD 1
    onBroadcast := (byteAt bs 2).getLsbD 2, low := byteAt bs 3, high := byteAt bs 4, selector := selector, action := action }

/-- The four selector bytes as they are held. -/
def heldSelectorBytes (bs : List Byte) : List Byte :=
  if (byteAt bs 5).toNat = 1 then (List.range' 5 4).map (byteAt bs) else [byteAt bs 5, 0, 0, 0]

theorem spelledSelector_cases (bs : List Byte) :
    (∃ x, spelledSelector bs = some x ∧ selectorBytes x = heldSelectorBytes bs ∧ (byteAt bs 5).toNat ≤ 1
        ∧ ((∀ y, x = some y → y.index ≤ 63) ↔ ¬ ((byteAt bs 5).toNat = 1 ∧ 63 < (byteAt bs 6).toNat)))
      ∨ (spelledSelector bs = none ∧ 1 < (byteAt bs 5).toNat) := by
  unfold spelledSelector heldSelectorBytes
  split
  · next h => exact .inl ⟨none, rfl, by simp [h, selectorBytes], by simp [h], by simp [h]⟩
  · split
    · next h => exact .inl ⟨_, rfl, by simp [h, selectorBytes, u8_toNat, List.range'_succ], by simp [h], by simp [h]⟩
    · exact .inr ⟨rfl, by bv_omega⟩

/-- A kind set byte of at most 7 is the one made from its three bits. -/
theorem kindBits_eq : ∀ b : Byte, b.toNat ≤ 7 →
    u8 ((if b.getLsbD 0 then 1 else 0) + (if b.getLsbD 1 then 2 else 0) + (if b.getLsbD 2 then 4 else 0)) = b := by decide

/-- A kind set byte of at most 7 has a kind unless it is 0. -/
theorem kinds_nonempty_iff : ∀ b : Byte, b.toNat ≤ 7 →
    ((b.getLsbD 0 || b.getLsbD 1 || b.getLsbD 2) = true ↔ b.toNat ≠ 0) := by decide

theorem kindSetByte_spelledRule {bs : List Byte} (h : (byteAt bs 2).toNat ≤ 7) (set : Option Nat) (selector : Option Selector)
    (action : Action) : kindSetByte (spelledRule bs set selector action) = byteAt bs 2 :=
  kindBits_eq _ h

/-- A rule record of 14 bytes as it is held, field by field. -/
theorem heldRuleRecord_eq {bs : List Byte} (hlength : bs.length = 14) :
    heldRuleRecord bs =
      (List.range' 0 5).map (byteAt bs) ++ heldSelectorBytes bs ++ (List.range' 9 5).map (byteAt bs) := by
  have htail : bs.drop 9 = (List.range' 9 5).map (byteAt bs) := by
    rw [← take_drop_eq_map_byteAt (by omega), List.take_of_length_le (by simp; omega)]
  unfold heldRuleRecord heldSelectorBytes
  split
  · have hall := take_drop_eq_map_byteAt (bs := bs) (k := 0) (n := 14) (by omega)
    rw [List.drop_zero, List.take_of_length_le (by omega)] at hall
    rw [hall]
    simp [List.range'_succ, byteAt]
  · have hhead := take_drop_eq_map_byteAt (bs := bs) (k := 0) (n := 6) (by omega)
    rw [List.drop_zero] at hhead
    rw [hhead, htail]
    simp [List.range'_succ]

theorem Rule.valid_iff (r : Rule) :
    r.valid = true ↔ SlotFits r.set ∧ (r.onCommand || r.onQuery || r.onBroadcast) = true ∧ r.low.toNat ≤ r.high.toNat
      ∧ (∀ x, r.selector = some x → x.index ≤ 63) ∧ r.action.valid = true := by
  unfold Rule.valid SlotFits
  cases r.set with
  | none => cases r.selector <;> simp [and_assoc]
  | some k => cases r.selector <;> simp [and_assoc]

theorem ruleRecord_some (r : Rule) :
    ruleRecord (some r) =
      [1, setCode r.set, kindSetByte r, r.low, r.high] ++ selectorBytes r.selector ++ actionBytes r.action := rfl

theorem parseRule_eq {bs : List Byte} (hpresent : byteAt bs 0 = 1) :
    parseRule bs =
      (setOfCode (byteAt bs 1)).bind fun set =>
        (spelledSelector bs).bind fun selector =>
          (parseAction (bs.drop 9)).bind fun action =>
            if (byteAt bs 2).toNat ≤ 7 ∧ (spelledRule bs set selector action).valid then
              some (some (spelledRule bs set selector action))
            else none := by
  unfold parseRule
  rw [hpresent, if_neg (by decide), if_neg (by simp)]
  cases setOfCode (byteAt bs 1) with
  | none => rfl
  | some set =>
    cases hselector : spelledSelector bs with
    | none =>
      unfold spelledSelector at hselector
      dsimp only
      rw [hselector]; rfl
    | some selector =>
      unfold spelledSelector at hselector
      dsimp only
      rw [hselector]
      cases parseAction (bs.drop 9) <;> rfl

/-- A present rule record fails a test of R91 and is refused, or gives the rule it spells. -/
theorem parseRule_present {bs : List Byte} (hlength : bs.length = 14) (hpresent : byteAt bs 0 = 1) :
    (RuleFieldsBad bs ∧ parseRule bs = none)
      ∨ (¬ RuleFieldsBad bs ∧ ∃ r, ruleRecord (some r) = heldRuleRecord bs ∧ parseRule bs = some (some r)) := by
  rw [parseRule_eq hpresent]
  obtain ⟨set, hset, hcode1, hfits, hle1⟩ | ⟨hset, hbad⟩ := slotOfCode_cases (byteAt bs 1)
  case inr => exact .inl ⟨.inl hbad, by rw [setOfCode, hset]; rfl⟩
  obtain ⟨selector, hselector, hcode5, hle5, hindex⟩ | ⟨hselector, hbad⟩ := spelledSelector_cases bs
  case inr => exact .inl ⟨.inr (.inr (.inr (.inr (.inl hbad)))), by rw [hselector, setOfCode, hset]; rfl⟩
  obtain ⟨hbad, haction⟩ | ⟨hgood, action, hvalid, haction, hcode9⟩ := parseAction_cases bs 9
  case inl => exact .inl ⟨by simp [RuleFieldsBad, hbad], by rw [haction, hselector, setOfCode, hset]; rfl⟩
  rw [setOfCode, hset, hselector, haction]
  dsimp only [Option.bind_some]
  have hfields : ¬ RuleFieldsBad bs ↔
      (byteAt bs 2).toNat ≤ 7 ∧ (spelledRule bs set selector action).valid = true := by
    rw [Rule.valid_iff]
    simp only [RuleFieldsBad, spelledRule, hfits, hindex, hvalid, hgood, true_and, and_true, or_false]
    by_cases hkinds : (byteAt bs 2).toNat ≤ 7
    · rw [kinds_nonempty_iff _ hkinds]; omega
    · omega
  split
  · next hgoodRule =>
    refine .inr ⟨hfields.mpr hgoodRule, _, ?_, rfl⟩
    rw [ruleRecord_some, kindSetByte_spelledRule hgoodRule.1, heldRuleRecord_eq hlength, ← hcode5, ← hcode9]
    simp [spelledRule, setCode, hcode1, hpresent, List.range'_succ]
  · next hbadRule => exact .inl ⟨not_not.mp (mt hfields.mp hbadRule), rfl⟩

theorem parseRule_absent {bs : List Byte} (h : byteAt bs 0 = 0) : parseRule bs = some none := if_pos h

theorem parseRule_unknown {bs : List Byte} (h : 1 < (byteAt bs 0).toNat) : parseRule bs = none := by
  unfold parseRule
  rw [if_neg (by bv_omega), if_pos (by bv_omega)]

/-! ### The two requests -/

section
variable {s : State} {tag : Word16} {rest : List TrunkFrame} {i : Nat} {b : Byte} {bs : List Byte}

/-- What the tests of R91 make of a request's index and record: outer `none` is INVALID. -/
def judgedRule (b : Byte) (bs : List Byte) : Option (Option Rule) :=
  if b.toNat < 48 then parseRule bs else none

theorem judgedRule_index (hb : b.toNat < 48) : judgedRule b bs = parseRule bs := if_pos hb

theorem judgedRule_none (hlength : bs.length = 14) (hbad : 47 < b.toNat ∨ 1 < (byteAt bs 0).toNat
    ∨ (byteAt bs 0).toNat = 1 ∧ RuleFieldsBad bs) : judgedRule b bs = none := by
  unfold judgedRule
  obtain hindex | hunknown | ⟨hpresent, hfields⟩ := hbad
  · rw [if_neg (by omega)]
  · rw [parseRule_unknown hunknown, ite_self]
  · obtain ⟨-, hnone⟩ | ⟨hgood, -⟩ := parseRule_present hlength (BitVec.eq_of_toNat_eq hpresent)
    · rw [hnone, ite_self]
    · exact absurd hfields hgood

/-- WRITE RULE in DEPOT refuses, or replaces the rule at its index in the edit copy (R91). -/
theorem State.Asks.exec_writeRule (h : s.Asks .writeRule tag (b :: bs) rest i) (hmode : s.responder.mode = .depot) :
    let t := s.responder.edit
    exec .writeRule s = .next (endCommand
      (match judgedRule b bs with
      | none => s.replies .writeRule tag rest i .invalid []
      | some r =>
        (s.edited { t with rules := t.rules.setIfInBounds b.toNat r }).replies .writeRule tag rest i .done
          (b :: ruleRecord r))) := by
  intro t
  have hact : actWriteRule (asked .writeRule tag (b :: bs) i) (s.reserved rest i) =
      match judgedRule b bs with
      | none => invalid (asked .writeRule tag (b :: bs) i) (s.reserved rest i)
      | some r =>
        done (asked .writeRule tag (b :: bs) i) (b :: ruleRecord r)
          ((s.edited { t with rules := t.rules.setIfInBounds b.toNat r }).reserved rest i) := by
    unfold actWriteRule judgedRule
    by_cases hb : b.toNat < 48
    · rw [if_pos hb]; exact if_pos hb
    · rw [if_neg hb]; exact if_neg hb
  rw [h.runs_act (act := actWriteRule) rfl (fun _ => hmode) rfl, hact]
  cases judgedRule b bs with
  | none => dsimp only; rw [invalid_asked]
  | some r => dsimp only; rw [done_asked]

/-- WRITE DEFAULT in DEPOT refuses, or replaces the default rule of the edit copy (R92). -/
theorem State.Asks.exec_writeDefault (h : s.Asks .writeDefault tag bs rest i) (hmode : s.responder.mode = .depot) :
    exec .writeDefault s = .next (endCommand
      (match parseAction bs with
      | none => s.replies .writeDefault tag rest i .invalid []
      | some a =>
        (s.edited { s.responder.edit with defaultAction := a }).replies .writeDefault tag rest i .done
          (actionBytes a))) := by
  have hact : actWriteDefault (asked .writeDefault tag bs i) (s.reserved rest i) =
      match parseAction bs with
      | none => invalid (asked .writeDefault tag bs i) (s.reserved rest i)
      | some a =>
        done (asked .writeDefault tag bs i) (actionBytes a)
          ((s.edited { s.responder.edit with defaultAction := a }).reserved rest i) := rfl
  rw [h.runs_act (act := actWriteDefault) rfl (fun _ => hmode) rfl, hact]
  cases parseAction bs with
  | none => dsimp only; rw [invalid_asked]
  | some a => dsimp only; rw [done_asked]

/-- WRITE DEFAULT's whole argument is the five action fields. -/
theorem parseAction_args (hlength : bs.length = 5) :
    (ActionFieldsBad bs 0 ∧ parseAction bs = none)
      ∨ (¬ ActionFieldsBad bs 0 ∧ ∃ a, parseAction bs = some a ∧ actionBytes a = bs) := by
  have hall : bs = (List.range' 0 5).map (byteAt bs) := by
    rw [← take_drop_eq_map_byteAt (by omega), List.drop_zero, List.take_of_length_le (by omega)]
  obtain h | ⟨hgood, a, -, hparse, hbytes⟩ := parseAction_cases bs 0
  · exact .inl h
  · exact .inr ⟨hgood, a, hparse, hbytes.trans hall.symm⟩

end

/-- Settles O31: the index and the record are judged, and then the edit copy takes the rule, or the default rule. -/
theorem writeRuleAndDefaultStoreJudgedRecords : Obligations.WriteRuleAndDefaultStoreJudgedRecords := by
  intro s tag rest i b bs depot v t write default held badAction bad
  refine ⟨fun h => ?_, fun h => ?_⟩
  · have hlength : bs.length = 14 := by simpa [argumentsFit] using h.2
    refine ⟨fun hmode => ?_, fun hmode hbad => ?_, fun hmode hb h0 => ?_, fun hmode hb h1 hgood => ?_⟩
    · exact h.answers_mode (act := actWriteRule) rfl rfl hmode
    · refine (h.exec_writeRule hmode).trans ?_
      rw [judgedRule_none hlength hbad]
    · refine (h.exec_writeRule hmode).trans ?_
      rw [judgedRule_index hb, parseRule_absent (BitVec.eq_of_toNat_eq h0)]
      rfl
    · obtain ⟨hfields, -⟩ | ⟨-, r, hheld, hparse⟩ := parseRule_present hlength (BitVec.eq_of_toNat_eq h1)
      · exact absurd (.inr ⟨h1, hfields⟩) hgood
      refine ⟨r, hheld, (h.exec_writeRule hmode).trans ?_⟩
      rw [judgedRule_index hb, hparse]
      dsimp only
      rw [hheld]
      rfl
  · have hlength : bs.length = 5 := by simpa [argumentsFit] using h.2
    refine ⟨fun hmode => ?_, fun hmode hbad => ?_, fun hmode hgood => ?_⟩
    · exact h.answers_mode (act := actWriteDefault) rfl rfl hmode
    · obtain ⟨-, hparse⟩ | ⟨hgood, -⟩ := parseAction_args hlength
      · refine (h.exec_writeDefault hmode).trans ?_
        rw [hparse]
      · exact absurd hbad hgood
    · obtain ⟨hbad, -⟩ | ⟨-, a, hparse, hbytes⟩ := parseAction_args hlength
      · exact absurd hbad hgood
      refine ⟨a, hbytes, (h.exec_writeDefault hmode).trans ?_⟩
      rw [hparse]
      dsimp only
      rw [hbytes]

end Sys2Proof.Machine
end

section
/-! SUPPORT. READ SHADOW (R124): the owner of a pool slot, the slot's position in the owner's replay order list, and the answer
data of a valid and of an invalid slot. -/

namespace Sys2Proof.Machine

/-! ### The owner -/

/-- Only a node address has an active table entry. -/
theorem isAddress_of_entry {s : State} {a : Nat} {e : NodeEntry} (h : s.entry a = some e) : isAddress a = true := by
  have hnode : atNode s.tables.nodes a = some (some e) := Option.join_eq_some_iff.mp h
  rw [atNode] at hnode
  split at hnode
  next => cases hnode
  next hpos =>
    obtain ⟨hlt, -⟩ := Vector.getElem?_eq_some_iff.mp hnode
    exact isAddress_eq_true (by omega) (by omega)

/-- The active range of address `a` holds pool slot `n` (R109). -/
def State.RangeHolds (s : State) (a n : Nat) : Prop :=
  ∃ e, s.entry a = some e ∧ e.shadowBase ≤ n ∧ n < e.shadowBase + e.shadowCount

theorem State.RangeHolds.mem_addresses {s : State} {a n : Nat} (h : s.RangeHolds a n) : a ∈ addresses := by
  obtain ⟨e, he, -⟩ := h
  exact Machine.mem_addresses (isAddress_of_entry he)

/-- The owner search's test of an address. -/
def State.rangeTest (s : State) (n a : Nat) : Bool :=
  (s.entry a).any fun e => decide (e.shadowBase ≤ n ∧ n < e.shadowBase + e.shadowCount)

theorem State.rangeTest_iff {s : State} {a n : Nat} : s.rangeTest n a = true ↔ s.RangeHolds a n := by
  simp only [State.rangeTest, Option.any_eq_true, decide_eq_true_eq, State.RangeHolds]

/-- The owner search's test, case by case on the table entry, is `rangeTest`. -/
theorem State.ownerOf_eq_find (s : State) (n : Nat) : s.ownerOf n = (addresses.find? (s.rangeTest n)).getD 0 := by
  unfold State.ownerOf
  congr 2
  funext a
  unfold State.rangeTest
  cases s.entry a with
  | none => rfl
  | some e => rfl

/-- The owner's range holds the slot; where no range does, the owner is 0. -/
theorem State.ownerOf_cases (s : State) (n : Nat) :
    s.RangeHolds (s.ownerOf n) n ∨ s.ownerOf n = 0 ∧ ∀ a, ¬ s.RangeHolds a n := by
  rw [s.ownerOf_eq_find]
  cases hfind : addresses.find? (s.rangeTest n) with
  | some a => exact .inl (State.rangeTest_iff.mp (List.find?_some hfind))
  | none =>
    refine .inr ⟨rfl, fun a ha => ?_⟩
    exact List.find?_eq_none.mp hfind a ha.mem_addresses (State.rangeTest_iff.mpr ha)

/-- The owner is the node that R124 names: the only one whose range holds the slot, or 0. -/
theorem State.ownerOf_eq {s : State} {n owner : Nat}
    (h : (owner = 0 ∧ ∀ a, ¬ s.RangeHolds a n) ∨ (s.RangeHolds owner n ∧ ∀ a, s.RangeHolds a n → a = owner)) :
    s.ownerOf n = owner := by
  obtain ⟨rfl, hnone⟩ | ⟨howner, honly⟩ := h
  · obtain hheld | ⟨hzero, -⟩ := s.ownerOf_cases n
    · exact absurd hheld (hnone _)
    · exact hzero
  · obtain hheld | ⟨-, hnone⟩ := s.ownerOf_cases n
    · exact honly _ hheld
    · exact absurd howner (hnone owner)

/-! ### The position in the replay order list -/

/-- The position counts from 1 at the head, and a slot's first place is the one answered. -/
theorem State.listPosition_eq {s : State} {a n p : Nat} (hp : (s.replayList a)[p]? = some n)
    (hfirst : ∀ q, q < p → (s.replayList a)[q]? ≠ some n) : s.listPosition a n = p + 1 := by
  have hfound : (s.replayList a).findIdx? (· == n) = some p := by
    obtain ⟨hlt, hat⟩ := List.getElem?_eq_some_iff.mp hp
    refine List.findIdx?_eq_some_iff_getElem.mpr ⟨hlt, beq_iff_eq.mpr hat, fun q hq heq => hfirst q hq ?_⟩
    exact List.getElem?_eq_some_iff.mpr ⟨by omega, beq_iff_eq.mp heq⟩
  rw [State.listPosition, hfound]

/-! ### The request -/

section
variable {s : State} {tag : Word16} {rest : List TrunkFrame} {i : Nat} {b : Byte}

/-- READ SHADOW answers by its slot number, and the state it replies from is otherwise `s` itself (R124). -/
theorem State.Asks.exec_readShadow (h : s.Asks .readShadow tag [b] rest i) :
    exec .readShadow s = .next (endCommand
      (if b.toNat < 96 then s.replies .readShadow tag rest i .done (s.slotBytes b.toNat)
      else s.replies .readShadow tag rest i .invalid [])) := by
  rw [h.runs_act (act := actReadShadow) rfl nofun rfl, ← done_asked (args := [b]), ← invalid_asked (args := [b])]
  rfl

end

theorem slotBytes_invalid {s : State} {n : Nat} (hn : s.slot n = none) :
    s.slotBytes n = [u8 n, 0, u8 (s.ownerOf n)] ++ List.replicate 8 0 := by
  rw [State.slotBytes, hn]

theorem slotBytes_valid {s : State} {n : Nat} {r : ShadowRecord} (hn : s.slot n = some r) :
    s.slotBytes n =
      [u8 n, 1, u8 (s.ownerOf n), u8 r.relative, r.rule.code, r.policy.code, flagByte r.marked,
        u8 (s.listPosition (s.ownerOf n) n), r.kind.segment.code, r.function, u8 r.payload.length] ++ r.payload := by
  rw [State.slotBytes, hn]

/-- Settles O27: the slot number decides, then whether the slot is valid; the owner is the search's result, and the position the
slot's first place in the owner's list. -/
theorem readShadowAnswersSlot : Obligations.ReadShadowAnswersSlot := by
  intro s tag rest i b owner h n holds read howner
  have howned : s.ownerOf b.toNat = owner := State.ownerOf_eq howner
  refine ⟨fun hn => ?_, fun hn hslot => ?_, fun r p hn hslot hp hfirst => ?_⟩
  · refine h.exec_readShadow.trans ?_
    rw [if_neg (by omega)]
  · refine h.exec_readShadow.trans ?_
    rw [if_pos (by omega), slotBytes_invalid hslot, howned, u8_toNat]
  · refine h.exec_readShadow.trans ?_
    rw [if_pos (by omega), slotBytes_valid hslot, howned, State.listPosition_eq hp hfirst, u8_toNat]
    rfl

end Sys2Proof.Machine
end

section
/-! SUPPORT. A valid reply to a restore step (R5, R6, R66, R67): the characters that a node sends are collected and judged as the
reply they carry, and its result goes to the step's own rule; the payload of a STATUS REPORT (R7). -/

namespace Sys2Proof.Machine

/-! ### The characters of a reply -/

/-- The fields that the characters of a node's reply are collected into (R5). -/
def collectedReply (a : Nat) (v : Reply) : RawReply :=
  { destination := 0, source := u8 a, kind := v.kind.code, function := v.function, marker := v.marker, payload := v.payload
    check := check16 ([0, u8 a, v.kind.code, v.function, v.marker, u8 v.payload.length] ++ v.payload) }

theorem collectReply_replyChars (a : Nat) {v : Reply} (hlength : v.payload.length ≤ 64) :
    collectReply (replyChars a v) = some (collectedReply a v) := by
  have hcount : (u8 v.payload.length).toNat = v.payload.length := by
    rw [u8, BitVec.toNat_ofNat]; omega
  simp [collectReply, replyChars, collectedReply, hcount, hlength, check16]

theorem ReplyKind.ofCode_code (k : ReplyKind) : ReplyKind.ofCode k.code = some k := by cases k <;> rfl

theorem judgeReply_collectedReply {a : Nat} (ha : isAddress a = true) {k : SegmentKind} {v : Reply}
    (hkind : replyKindFits k v.kind = true) (hpayload : payloadFits v.kind v.payload = true) :
    judgeReply k a (collectedReply a v) = .valid v := by
  have hsource : (u8 a).toNat = a := by
    have hbounds := of_decide_eq_true ha
    rw [u8, BitVec.toNat_ofNat]; omega
  simp [judgeReply, collectedReply, RawReply.covered, ReplyKind.ofCode_code, hsource, hkind, hpayload]

/-! ### The step it ends -/

/-- A reply that R6 finds valid ends the step's transaction with the line FREE, and the command with it. -/
theorem State.CollectsStep.exec_replyReceived {s : State} {a : Nat} {k : SegmentKind} (h : s.CollectsStep a k) {v : Reply}
    (hlength : v.payload.length ≤ 64) (hkind : replyKindFits k v.kind = true)
    (hpayload : payloadFits v.kind v.payload = true) :
    exec (.replyReceived (replyChars a v)) s = .next (endCommand (stepEnded a (.valid v) s.lineFree)) := by
  obtain ⟨hlow, hhigh, t, hline, hcarries, hdestination, hsent⟩ := h
  have hended : transactionEnded t (.valid v) .free s = stepEnded a (.valid v) s.lineFree := by
    unfold transactionEnded
    rw [hcarries]
    rfl
  have hreceived : Machine.replyReceived (replyChars a v) s = some (stepEnded a (.valid v) s.lineFree) := by
    unfold Machine.replyReceived
    rw [hline]
    dsimp only
    rw [collectReply_replyChars a hlength]
    dsimp only
    rw [hsent, hdestination, judgeReply_collectedReply (isAddress_eq_true hlow hhigh) hkind hpayload, hended]
  show happens (Machine.replyReceived (replyChars a v) s) s = _
  rw [hreceived]
  rfl

/-- The result of a step in flight goes to the rule of its kind, with the step condition NONE (R67). -/
theorem stepEnded_of_inFlight {s : State} {a : Nat} {r : Runtime} {k : StepKind} (hr : s.runtime a = some r)
    (hstep : r.step = .inFlight k) (res : Result) :
    stepEnded a res s = applyStep a k res (s.setRuntime a (some { r with step := .none })) := by
  unfold stepEnded
  rw [hr, mapRuntime_of_runtime hr]
  dsimp only
  rw [hstep]

/-- The end of a command changes the Trunk Port and the moment only. -/
theorem endCommand_eq (s : State) : ∃ x n, endCommand s = { s.withTrunk x with moment := n } := by
  obtain ⟨x, hx, -⟩ := startTransmitter_trunk s
  unfold endCommand
  rw [hx]
  exact ⟨x, _, rfl⟩

/-! ### The STATUS REPORT (R7) -/

theorem word16_bytes (w : Word16) : word16 (w.extractLsb' 0 8) (w.extractLsb' 8 8) = w := by
  refine BitVec.eq_of_getLsbD_eq fun i hi => ?_
  simp only [word16, BitVec.getLsbD_append, BitVec.getLsbD_extractLsb']
  split
  · simp [*]
  · next h => simp [show i - 8 < 8 by omega, show 8 + (i - 8) = i by omega]

theorem parseStatus_payload {code : Byte} {image : ImageState} (hcode : ImageState.ofCode code = some image)
    (running target : Word16) {resume : Nat} (hresume : resume ≤ 4095) (kind : Byte) :
    parseStatus ([code] ++ le16 running ++ le16 target ++ le16n resume ++ [kind]) =
      some { image := image, running := running, target := target, resume := resume, kind := kind } := by
  have hmod : resume % 65536 = resume := Nat.mod_eq_of_lt (by omega)
  simp [parseStatus, le16n, le16, word16At, byteAt, word16_bytes, hcode, hmod, hresume]

end Sys2Proof.Machine
end

section
/-! SUPPORT. The renewal of a node's shadow slots (R118), and the sessions of image transfer (R144 to R148, R159): what asking for a
buffer and the end of a session make of one node's record, and which blocks they leave alone. -/

namespace Sys2Proof.Machine

/-! ### Renewal (R118) -/

/-- What a renewal makes of one slot. -/
def renewed (q : ShadowRecord) : Option ShadowRecord :=
  match q.policy with
  | .forget => none
  | .replay => some { q with marked := true }

/-- A slot that stands twice in the list is renewed as if it stood once. -/
theorem renewed_bind_renewed (o : Option ShadowRecord) : (o.bind renewed).bind renewed = o.bind renewed := by
  cases o with
  | none => rfl
  | some q =>
    cases hpolicy : q.policy with
    | forget => simp [renewed, hpolicy]
    | replay => simp [renewed, hpolicy]

theorem slot_setSlot {s : State} {i : Nat} {q : ShadowRecord} (hq : s.slot i = some q) (x : Option ShadowRecord) (j : Nat) :
    (s.setSlot i x).slot j = if i = j then x else s.slot j := by
  have hi : i < 96 := by
    by_contra hge
    simp [State.slot, Vector.getElem?_eq_none (Nat.le_of_not_lt hge)] at hq
  simp only [State.slot, State.setSlot, State.withShadow_shadow, Vector.getElem?_setIfInBounds]
  split
  · simp
  · rfl

theorem slot_renewSlot (i : Nat) (s : State) (j : Nat) :
    (renewSlot i s).slot j = if i = j then (s.slot j).bind renewed else s.slot j := by
  unfold renewSlot
  cases hq : s.slot i with
  | none =>
    dsimp only
    split
    · next hij => rw [← hij, hq]; rfl
    · rfl
  | some q =>
    dsimp only
    have hset : ∀ x, renewed q = x → (s.setSlot i x).slot j = if i = j then (s.slot j).bind renewed else s.slot j := by
      rintro x rfl
      rw [slot_setSlot hq]
      split
      · next hij => rw [← hij, hq]; rfl
      · rfl
    split
    · next hpolicy => exact hset none (by rw [renewed, hpolicy])
    · next hpolicy => exact hset _ (by rw [renewed, hpolicy])

theorem slot_forNodes_renewSlot (l : List Nat) (s : State) (j : Nat) :
    (forNodes l renewSlot s).slot j = if j ∈ l then (s.slot j).bind renewed else s.slot j := by
  induction l generalizing s with
  | nil => rfl
  | cons i l ih =>
    refine (ih (renewSlot i s)).trans ?_
    rw [slot_renewSlot]
    by_cases hij : i = j
    · simp [hij, renewed_bind_renewed]
    · simp [hij, Ne.symm hij]

/-- `t` differs from `s` at most in the Shadow Store. -/
def OnlyShadow (s t : State) : Prop := ∃ x, t = s.withShadow x

theorem OnlyShadow.trans {s t u : State} (h : OnlyShadow s t) (g : OnlyShadow t u) : OnlyShadow s u := by
  obtain ⟨_, rfl⟩ := h
  obtain ⟨x, rfl⟩ := g
  exact ⟨x, rfl⟩

theorem onlyShadow_renewSlot (i : Nat) (s : State) : OnlyShadow s (renewSlot i s) := by
  unfold renewSlot
  split
  · split <;> exact ⟨_, rfl⟩
  · exact ⟨s.shadow, rfl⟩

theorem onlyShadow_renewShadow (a : Nat) (s : State) : OnlyShadow s (renewShadow a s) := by
  have hwalk : ∀ l u, OnlyShadow u (forNodes l renewSlot u) := by
    intro l
    induction l with
    | nil => exact fun u => ⟨u.shadow, rfl⟩
    | cons i l ih => exact fun u => (onlyShadow_renewSlot i u).trans (ih (renewSlot i u))
  exact (hwalk (s.replayList a) s).trans ⟨_, rfl⟩

/-- Every slot in the node's replay order list is renewed, and no other slot changes. -/
theorem slot_renewShadow (a : Nat) (s : State) (j : Nat) :
    (renewShadow a s).slot j = if j ∈ s.replayList a then (s.slot j).bind renewed else s.slot j :=
  slot_forNodes_renewSlot (s.replayList a) s j

/-! ### One runtime record -/

/-- A record that is replaced is the one read back. -/
theorem runtime_setRuntime_same {s : State} {a : Nat} {r : Runtime} (hr : s.runtime a = some r) (x : Option Runtime) :
    (s.setRuntime a x).runtime a = x := by
  rw [runtime_setRuntime, if_pos ⟨rfl, isAddress_of_runtime hr⟩]

theorem runtime_mapRuntime_same {s : State} {a : Nat} {r : Runtime} (hr : s.runtime a = some r) (f : Runtime → Runtime) :
    (s.mapRuntime a f).runtime a = some (f r) := by
  rw [runtime_mapRuntime, if_pos rfl, hr]; rfl

theorem store_mapRuntime (s : State) (a : Nat) (f : Runtime → Runtime) : (s.mapRuntime a f).store = s.store := by
  unfold State.mapRuntime
  split <;> rfl

theorem waiting_mapRuntime (s : State) (a : Nat) (f : Runtime → Runtime) :
    (s.mapRuntime a f).restore.waiting = s.restore.waiting := by
  unfold State.mapRuntime
  split <;> rfl

theorem session_of_runtime {s : State} {a : Nat} {r : Runtime} (h : s.runtime a = some r) : s.session a = r.session := by
  unfold State.session; rw [h]; rfl

/-! ### Buffers and reads (R148, R169) -/

/-- What a grant of a buffer changes beside runtime records: the read list, the arbiter and the buffers, and neither the blocks
that decide a node move nor the catalogue. -/
structure Grants (s t : State) : Prop where
  blocks : SameBlocks s t
  catalogue : t.store.catalogue = s.store.catalogue

theorem Grants.refl (s : State) : Grants s s := ⟨.refl s, rfl⟩

theorem Grants.trans {s t u : State} (h : Grants s t) (g : Grants t u) : Grants s u :=
  ⟨h.blocks.trans g.blocks, g.catalogue.trans h.catalogue⟩

theorem grants_mapRuntime (s : State) (a : Nat) (f : Runtime → Runtime) : Grants s (s.mapRuntime a f) :=
  ⟨sameBlocks_mapRuntime s a f, congrArg ImageStore.catalogue (store_mapRuntime s a f)⟩

theorem grants_withRestore (s : State) (x : RestoreEngine) : Grants s (s.withRestore x) := ⟨⟨rfl, rfl, rfl, rfl⟩, rfl⟩

theorem requestRead_eq (q : ReadRequest) (s : State) :
    ∃ m, requestRead q s = s.withStore m ∧ m.catalogue = s.store.catalogue := by
  unfold requestRead chooseAccess
  split
  · exact ⟨_, rfl, rfl⟩
  · split
    · exact ⟨_, rfl, rfl⟩
    · split <;> exact ⟨_, rfl, rfl⟩

theorem grants_requestRead (q : ReadRequest) (s : State) : Grants s (requestRead q s) := by
  obtain ⟨m, hm, hcatalogue⟩ := requestRead_eq q s
  rw [hm]
  exact ⟨⟨rfl, rfl, rfl, rfl⟩, hcatalogue⟩

theorem runtime_requestRead (q : ReadRequest) (s : State) (a : Nat) : (requestRead q s).runtime a = s.runtime a := by
  obtain ⟨m, hm, -⟩ := requestRead_eq q s
  rw [hm]
  rfl

/-- A session that is granted buffer `b` waits for its read, and no other node's record changes (R149). -/
theorem startRead_cases (m b : Nat) (s : State) :
    Grants s (startRead m b s) ∧ (∀ a, a ≠ m → (startRead m b s).runtime a = s.runtime a)
      ∧ ∀ r x, s.runtime m = some r → r.session = some x →
          (startRead m b s).runtime m =
            some { r with step := r.step.wait, session := some { x with buffer := some b, request := .reading } } := by
  unfold startRead
  cases hx : s.session m with
  | none =>
    refine ⟨.refl s, fun _ _ => rfl, fun r x hr hsession => ?_⟩
    rw [session_of_runtime hr, hsession] at hx
    cases hx
  | some x =>
    dsimp only
    refine ⟨((grants_mapRuntime s m _).trans (grants_withRestore _ _)).trans (grants_requestRead _ _), fun a ha => ?_,
      fun r y hr hsession => ?_⟩
    · rw [runtime_requestRead]
      exact (runtime_mapRuntime s m a _).trans (if_neg (Ne.symm ha))
    · rw [session_of_runtime hr, hsession] at hx
      cases hx
      rw [runtime_requestRead]
      exact runtime_mapRuntime_same hr _

/-- A buffer that falls FREE changes the record of a waiting node only (R148). -/
theorem freeBuffer_cases (b : Nat) (s : State) :
    Grants s (freeBuffer b s) ∧ ∀ a, a ∉ s.restore.waiting → (freeBuffer b s).runtime a = s.runtime a := by
  unfold freeBuffer
  split
  · exact ⟨grants_withRestore s _, fun _ _ => rfl⟩
  · next m rest hwaiting =>
    obtain ⟨hgrants, hothers, -⟩ :=
      startRead_cases m b ((s.setBuffer b .free).withRestore { (s.setBuffer b .free).restore with waiting := rest })
    refine ⟨(grants_withRestore s _).trans hgrants, fun a ha => ?_⟩
    rw [hwaiting] at ha
    exact hothers a (List.ne_of_not_mem_cons ha)

/-- A buffer that is given up changes no more of the records of nodes that do not wait than the node's session (R148, R159). -/
theorem releaseBuffer_cases (a : Nat) (s : State) (ha : a ∉ s.restore.waiting) :
    Grants s (releaseBuffer a s)
      ∧ ∃ f : Option Session → Option Session,
        (releaseBuffer a s).runtime a = (s.runtime a).map (fun r => { r with session := f r.session }) := by
  unfold releaseBuffer
  split
  · next b _ _ _ =>
    dsimp only
    have hsession : (s.mapSession a fun x => { x with buffer := none, request := .none }).runtime a =
        (s.runtime a).map _ := (runtime_mapRuntime s a a _).trans (if_pos rfl)
    have hmap := grants_mapRuntime s a (fun r =>
      { r with session := r.session.map fun x => { x with buffer := none, request := .none } })
    split
    · exact ⟨hmap.trans (grants_withRestore _ _), _, hsession⟩
    · obtain ⟨hgrants, hkept⟩ := freeBuffer_cases b (s.mapSession a fun x => { x with buffer := none, request := .none })
      exact ⟨hmap.trans hgrants, _, (hkept a ((waiting_mapRuntime s a _).symm ▸ ha)).trans hsession⟩
  · exact ⟨.refl s, id, Option.map_id'.symm⟩

/-- A session that asks for a buffer waits, for a read or for its turn (R148). -/
theorem askBuffer_cases {s : State} {a : Nat} {r : Runtime} {x : Session} (hr : s.runtime a = some r)
    (hx : r.session = some x) :
    Grants s (askBuffer a s)
      ∧ ∃ b q, (askBuffer a s).runtime a =
          some { r with step := r.step.wait, session := some { x with buffer := b, request := q } } := by
  unfold askBuffer
  split
  · next b _ _ =>
    obtain ⟨hgrants, -, hgranted⟩ := startRead_cases a b s
    exact ⟨hgrants, some b, .reading, hgranted r x hr hx⟩
  · refine ⟨(grants_mapRuntime s a _).trans (grants_withRestore _ _), none, .waitingList, ?_⟩
    refine (runtime_mapRuntime_same hr _).trans ?_
    rw [hx]
    rfl

/-! ### The end of a session (R159) -/

theorem dropReader_cases (n : Nat) (s : State) :
    SameBlocks s (dropReader n s) ∧ ∀ a, (dropReader n s).runtime a = s.runtime a := by
  unfold dropReader
  split <;> exact ⟨⟨rfl, rfl, rfl, rfl⟩, fun _ => rfl⟩

theorem StepCondition.cancel_cancel (c : StepCondition) : c.cancel.cancel = c.cancel := by cases c <;> rfl

/-- A node whose step is cancelled as its session ends has no session, whether it had one or not. -/
theorem endSession_of_cancelled {s : State} {a : Nat} {r : Runtime} (hr : s.runtime a = some r)
    (hstep : r.step.cancel = r.step) :
    SameBlocks s (endSession a s) ∧ (endSession a s).runtime a = some { r with session := none } := by
  unfold endSession
  rw [session_of_runtime hr]
  cases hx : r.session with
  | none => exact ⟨.refl s, by rw [hr, ← hx]⟩
  | some x =>
    dsimp only
    have hcancel : (cancelStep a s).runtime a = some r := by
      refine (runtime_mapRuntime_same hr _).trans ?_
      rw [hstep]
    have hleft : a ∉ (leaveWaiting a (cancelStep a s)).restore.waiting := fun h => by
      simpa using (List.mem_filter.mp h).2
    have hwithdrawn : Grants s (leaveWaiting a (cancelStep a s)) :=
      (grants_mapRuntime s a (fun r => { r with step := r.step.cancel })).trans (grants_withRestore _ _)
    have hrecord : (leaveWaiting a (cancelStep a s)).runtime a = some r := hcancel
    generalize leaveWaiting a (cancelStep a s) = u at hleft hwithdrawn hrecord ⊢
    obtain ⟨hgrants, f, hreleased⟩ := releaseBuffer_cases a u hleft
    obtain ⟨hblocks, hkept⟩ := dropReader_cases x.entry (releaseBuffer a u)
    rw [hrecord] at hreleased
    exact ⟨((hwithdrawn.trans hgrants).blocks.trans hblocks).trans (sameBlocks_mapRuntime _ a _),
      runtime_mapRuntime_same ((hkept a).trans hreleased) _⟩

end Sys2Proof.Machine
end

section
/-! SUPPORT. The moves that a reconciliation makes (R43, R47, R53, R146, R147, R157): what each entry makes of the node's record. -/

namespace Sys2Proof.Machine

/-! ### Entry to FAILED (R53) -/

theorem reports_makeReport (e : HoldEntry) (c : AnswerCode) (rest : List Byte) (s : State) :
    Reports s (makeReport e c rest s) := by
  unfold makeReport
  split
  · exact .refl s
  · split
    · exact reports_withTrunk s _
    · exact reports_offerFrame _ s

theorem reports_reportDiscarded (l : List HoldEntry) (s : State) : Reports s (reportDiscarded l s) := by
  unfold reportDiscarded
  induction l generalizing s with
  | nil => exact .refl s
  | cons e l ih => exact (reports_makeReport e .discarded [] s).trans (ih _)

theorem reports_walkRefused (a : Nat) (c : AnswerCode) (l : List PassEntry) (s : State) :
    Reports s (walkRefused a c l s).2 := by
  induction l generalizing s with
  | nil => exact .refl s
  | cons e l ih =>
    unfold walkRefused
    split
    · exact ih s
    · split
      · exact (reports_withTrunk s _).trans (ih _)
      · exact ih s

/-- Refused pass frames are answered: the pass queues and the egress queue change, and no record of a node does. -/
theorem refusePasses_cases (a : Nat) (c : AnswerCode) (s : State) :
    SameBlocks s (refusePasses a c s) ∧ ∀ b, (refusePasses a c s).runtime b = s.runtime b := by
  have hreports := (reports_walkRefused a c s.segment.urgent s).trans
    (reports_walkRefused a c s.segment.normal (walkRefused a c s.segment.urgent s).2)
  exact ⟨hreports.sameBlocks.trans ⟨rfl, rfl, rfl, rfl⟩, hreports.runtime⟩

/-- A discard empties the node's queue and reports its entries; no shadow slot and no record changes. -/
theorem discardQueue_cases (a : Nat) (s : State) :
    (discardQueue a s).shadow = s.shadow ∧ (∀ b, (discardQueue a s).runtime b = s.runtime b)
      ∧ (isAddress a = true → (discardQueue a s).queue a = []) := by
  have hreports := reports_reportDiscarded (s.queue a) s
  refine ⟨hreports.sameBlocks.shadow, hreports.runtime, fun ha => ?_⟩
  unfold discardQueue State.queue State.setQueue
  rw [State.withHold_hold, atNode_putNode, if_pos ⟨rfl, ha⟩]
  rfl

/-- The record of a node that enters FAILED (R53). -/
def failedRecord (r : Runtime) : Runtime :=
  { r.move .failed with step := r.step.cancel, session := none, bootCount := none, expected := none }

/-- Entry to FAILED ends the node's session and empties its queue; its shadow slots stay (R53). -/
theorem enterFailed_cases {s : State} {a : Nat} {r : Runtime} (hr : s.runtime a = some r) :
    (enterFailed a s).runtime a = some (failedRecord r) ∧ (enterFailed a s).queue a = []
      ∧ (enterFailed a s).shadow = s.shadow := by
  obtain ⟨hended, hrecord⟩ :=
    endSession_of_cancelled (runtime_mapRuntime_same hr fun r => { r with step := r.step.cancel }) r.step.cancel_cancel
  unfold enterFailed cancelStep
  dsimp only
  generalize hu : endSession a _ = u at hended hrecord ⊢
  have hmove := rewrites_mapRuntime a (fun r => { r.move .failed with bootCount := none, expected := none }) u
  generalize u.mapRuntime a _ = v at hmove ⊢
  obtain ⟨hrefused, hkept⟩ := refusePasses_cases a .nodeFailed v
  generalize refusePasses a .nodeFailed v = w at hrefused hkept ⊢
  obtain ⟨hshadow, hkept', hqueue⟩ := discardQueue_cases a w
  have hnotice := reports_offerNodeState a .failed (discardQueue a w)
  refine ⟨?_, ?_, ?_⟩
  · rw [hnotice.runtime, hkept', hkept, hmove.runtime_same hrecord]
    rfl
  · rw [hnotice.sameBlocks.queue, hqueue (isAddress_of_runtime hr)]
  · rw [hnotice.sameBlocks.shadow, hshadow, hrefused.shadow, hmove.blocks.shadow, hended.shadow]
    exact (sameBlocks_mapRuntime s a _).shadow

/-! ### The catalogue (R145, R146) -/

theorem place_congr {s t : State} (h : t.store.catalogue = s.store.catalogue) (n : Nat) : t.place n = s.place n := by
  unfold State.place; rw [h]

/-- The entry `c` in catalogue place `n` is the one that a lookup of the kind `k` finds: a DAMAGED entry is none (R146). -/
def State.Finds (s : State) (k : Byte) (n : Nat) (c : CatalogueEntry) : Prop :=
  s.placeOfKind k = some n ∧ s.place n = some c ∧ c.image.damaged = false

/-- A lookup finds exactly the undamaged entry of the kind (R146, R157). -/
theorem lookupImage_eq_some {s : State} {k : Byte} {n : Nat} {c : CatalogueEntry} (h : s.Finds k n c) :
    s.lookupImage k = some (n, c.image) := by
  obtain ⟨hn, hc, hgood⟩ := h
  unfold State.lookupImage
  rw [hn]
  dsimp only
  rw [hc]
  dsimp only
  rw [hgood]
  rfl

theorem lookupImage_eq_none {s : State} {k : Byte} (h : ∀ n c, ¬ s.Finds k n c) : s.lookupImage k = none := by
  unfold State.lookupImage
  split
  · next n hn =>
    split
    · next c hc =>
      split
      · rfl
      · next hgood => exact absurd ⟨hn, hc, Bool.eq_false_of_not_eq_true hgood⟩ (h n c)
    · rfl
  · rfl

theorem lookupImage_congr {s t : State} (h : t.store = s.store) (k : Byte) : t.lookupImage k = s.lookupImage k := by
  unfold State.lookupImage State.placeOfKind State.place
  rw [h]

theorem lookupImage_setRuntime (s : State) (a : Nat) (x : Option Runtime) (k : Byte) :
    (s.setRuntime a x).lookupImage k = s.lookupImage k :=
  lookupImage_congr rfl k

theorem place_addReader {s : State} {n : Nat} {c : CatalogueEntry} (hc : s.place n = some c) :
    (addReader n s).place n = some { c with readers := c.readers + 1 } := by
  have hn : n < 12 := by
    by_contra hge
    simp [State.place, Vector.getElem?_eq_none (Nat.le_of_not_lt hge)] at hc
  unfold addReader
  rw [hc]
  simp [State.place, State.setPlace, hn]

theorem addReader_cases (n : Nat) (s : State) :
    SameBlocks s (addReader n s) ∧ ∀ a, (addReader n s).runtime a = s.runtime a := by
  unfold addReader
  split <;> exact ⟨⟨rfl, rfl, rfl, rfl⟩, fun _ => rfl⟩

/-! ### Entry to IMAGE (R147) -/

/-- Entry to IMAGE makes a fresh session, which waits for its first block, and counts one reader (R145, R147). -/
theorem enterImage_cases {s : State} {a : Nat} {r : Runtime} (hr : s.runtime a = some r) (k n : Nat) (e : ImageEntry)
    (reported : Option ImageState) :
    SameBlocks s (enterImage a k n e reported s)
      ∧ (∃ b q, (enterImage a k n e reported s).runtime a =
          some
            { r.move .image with
              misses := 0, step := r.step.wait
              session := some { newSession n e.length k reported with buffer := b, request := q } })
      ∧ ∀ c, s.place n = some c → (enterImage a k n e reported s).place n = some { c with readers := c.readers + 1 } := by
  unfold enterImage
  dsimp only
  have hopened := grants_mapRuntime s a (fun r => { r.move .image with session := some (newSession n e.length k reported) })
  have hopened' := runtime_mapRuntime_same hr fun r =>
    { r.move .image with session := some (newSession n e.length k reported) }
  generalize s.mapRuntime a _ = u at hopened hopened' ⊢
  obtain ⟨hcounted, hkept⟩ := addReader_cases n u
  have hcleared := grants_mapRuntime (addReader n u) a fun r => { r with misses := 0 }
  have hcleared' := runtime_mapRuntime_same ((hkept a).trans hopened') fun r => { r with misses := 0 }
  generalize (addReader n u).mapRuntime a _ = v at hcleared hcleared' ⊢
  obtain ⟨hasked, b, q, hrecord⟩ := askBuffer_cases hcleared' rfl
  refine ⟨((hopened.blocks.trans hcounted).trans hcleared.blocks).trans hasked.blocks, ⟨b, q, hrecord⟩, fun c hc => ?_⟩
  rw [place_congr (hcleared.trans hasked).catalogue]
  exact place_addReader ((place_congr hopened.catalogue n).trans hc)

end Sys2Proof.Machine
end

section
/-! SUPPORT. Reconciliation (R45, R46) on a node without a step: the onward choice, the boot window and the attempt failure of an
unchanged count; the recount, the renewal and the image decision of a changed one. -/

namespace Sys2Proof.Machine

/-! ### An unchanged count (R43, R45, R47) -/

theorem onward_of_onwardState_online {s : State} {a : Nat} (h : s.onwardState a = .online) : onward a s = enterOnline a s := by
  unfold State.onwardState at h
  unfold onward
  split at h
  · cases h
  · next hpending =>
    split at h
    · next hqueue => rw [if_neg hpending, hqueue]; rfl
    · cases h

/-- The onward choice keeps the boot count; a restore that it ends in ONLINE is counted (R47). -/
theorem onward_cases {s : State} {a : Nat} {r : Runtime} (hr : s.runtime a = some r) (hrestore : r.state.endsRestore = true) :
    SameBlocks s (onward a s) ∧ ∃ x, (onward a s).runtime a = some x ∧ x.bootCount = r.bootCount
      ∧ x.state = s.onwardState a ∧ (x.state = .online → x.attempts = 0 ∧ x.noReply = 0 ∧ x.restores = r.restores + 1) := by
  obtain ⟨g, hg, hmove⟩ := onward_rewrites a s
  obtain ⟨hstate, hcounts⟩ := hmove r
  refine ⟨hg.blocks, g r, hg.runtime_same hr, hcounts.bootCount, hstate, fun honline => ?_⟩
  have hx : (enterOnline a s).runtime a = some (g r) := by
    rw [← onward_of_onwardState_online (hstate.symm.trans honline)]
    exact hg.runtime_same hr
  have hentered : (enterOnline a s).runtime a = some _ :=
    (reports_offerNodeState a .online _).runtime a |>.trans (runtime_mapRuntime_same hr _)
  rw [hrestore] at hentered
  rw [← Option.some.inj (hentered.symm.trans hx)]
  exact ⟨rfl, rfl, rfl⟩

/-- Entry to MISSING without a step in flight: the next probe is due after the missing interval (R43, R44). -/
theorem enterMissing_of_idle {s : State} {a : Nat} {r : Runtime} (hr : s.runtime a = some r) (hstep : r.step = .none) :
    SameBlocks s (enterMissing a s) ∧ (enterMissing a s).runtime a =
      some { r.move .missing with nextProbe := some (after s.now (s.params.missingInterval * 1000)), step := .waiting } := by
  have hnotice : ∀ u, Reports u (offerNodeState a .missing u) := reports_offerNodeState a .missing
  refine ⟨(sameBlocks_mapRuntime s a _).trans (hnotice _).sameBlocks, ((hnotice _).runtime a).trans ?_⟩
  refine (runtime_mapRuntime_same hr _).trans ?_
  rw [hstep]
  rfl

/-- Entry to AWAIT_BOOT without a step in flight: the probe is READY or waits for the opening, or the node is MISSING at once (R43). -/
theorem enterAwaitBoot_cases {s : State} {a : Nat} {r : Runtime} {e : NodeEntry} (he : s.entry a = some e)
    (hr : s.runtime a = some r) (hstep : r.step = .none) (base : Time) :
    let opens := after base (e.bootMin * 10)
    let closes := after base (e.bootMax * 10)
    SameBlocks s (enterAwaitBoot a base s) ∧ ∃ x, (enterAwaitBoot a base s).runtime a = some x
      ∧ x.expected = r.expected ∧ x.bootCount = r.bootCount ∧ x.misses = 0
      ∧ (reached s.now closes = false →
          x.state = .awaitBoot ∧ x.window = some (opens, closes)
            ∧ x.step = (if reached s.now opens then .ready .probe else .waiting)
            ∧ (reached s.now opens = false → x.nextProbe = some opens))
      ∧ (reached s.now closes = true →
          x.state = .missing ∧ x.window = none ∧ x.step = .waiting
            ∧ x.nextProbe = some (after s.now (s.params.missingInterval * 1000))) := by
  intro opens closes
  rw [enterAwaitBoot_of_entry a base s he]
  dsimp only
  have hwait := rewrites_mapRuntime a (awaitingBoot s.now opens closes) s
  have hrecord := hwait.runtime_same hr
  have hfields : (awaitingBoot s.now opens closes r).expected = r.expected
      ∧ (awaitingBoot s.now opens closes r).bootCount = r.bootCount
      ∧ (awaitingBoot s.now opens closes r).misses = 0 := by
    unfold awaitingBoot
    dsimp only
    split <;> exact ⟨rfl, rfl, rfl⟩
  obtain ⟨hexpected, hboot, hmisses⟩ := hfields
  split
  · next hclosed =>
    have hcancel := hwait.trans (rewrites_mapRuntime a (fun r => { r with step := r.step.cancel }) _)
    have hidle : (awaitingBoot s.now opens closes r).step.cancel = .none := by
      unfold awaitingBoot
      rw [hstep]
      cases reached s.now opens <;> rfl
    obtain ⟨hblocks, hmissing⟩ := enterMissing_of_idle (hcancel.runtime_same hr) hidle
    have hnow := hcancel.blocks.now
    have hparams := congrArg Tables.params hcancel.blocks.tables
    refine ⟨hcancel.blocks.trans hblocks, _, hmissing, hexpected, hboot, hmisses,
      fun h => absurd (h.symm.trans hclosed) nofun, fun _ => ⟨rfl, rfl, rfl, ?_⟩⟩
    unfold State.params
    rw [hnow, hparams]
  · next hopen =>
    refine ⟨hwait.blocks, _, hrecord, hexpected, hboot, hmisses, fun _ => ?_, fun h => absurd h hopen⟩
    unfold awaitingBoot
    rw [hstep]
    cases reached s.now opens
    · exact ⟨rfl, rfl, rfl, fun _ => rfl⟩
    · exact ⟨rfl, rfl, rfl, nofun⟩

/-! ### An attempt failure outside IMAGE (R156, R157) -/

/-- The record with the failed attempt counted and the expected version dropped. -/
def Runtime.attemptFailed (r : Runtime) : Runtime := { r with attempts := r.attempts + 1, expected := none }

theorem setRuntime_setRuntime (s : State) (a : Nat) (x y : Option Runtime) :
    (s.setRuntime a x).setRuntime a y = s.setRuntime a y := by
  have hput : putNode (putNode s.restore.nodes a x) a y = putNode s.restore.nodes a y := by
    unfold putNode
    split
    · rfl
    · simp
  unfold State.setRuntime
  rw [State.withRestore_restore]
  dsimp only
  rw [hput]
  rfl

section
variable {s : State} {a : Nat} {r : Runtime} {e : NodeEntry} (hr : s.runtime a = some r) (he : s.entry a = some e)
  (reported : Option ImageState)
include hr

theorem countAttempt_eq :
    countAttempt a (s.mapRuntime a fun r => { r with expected := none }) = s.setRuntime a (some r.attemptFailed) := by
  unfold countAttempt
  rw [mapRuntime_of_runtime (runtime_mapRuntime_same hr _), mapRuntime_of_runtime hr, setRuntime_setRuntime]
  rfl

theorem attemptsSpent_attemptFailed :
    (s.setRuntime a (some r.attemptFailed)).attemptsSpent a = decide (s.params.imageAttempts ≤ r.attempts + 1) := by
  unfold State.attemptsSpent
  rw [runtime_setRuntime_same hr]
  rfl

include he

/-- At the limit, or with no image for the node's kind, an attempt failure is the last (R156, R157). -/
theorem attemptFailureOutside_last
    (hlast : s.params.imageAttempts ≤ r.attempts + 1 ∨ s.lookupImage e.kind = none) :
    attemptFailureOutside a reported s = enterFailed a (s.setRuntime a (some r.attemptFailed)) := by
  have hentry : (s.setRuntime a (some r.attemptFailed)).entry a = some e := he
  unfold attemptFailureOutside
  dsimp only
  rw [countAttempt_eq hr, attemptsSpent_attemptFailed hr, hentry, Option.bind_some, lookupImage_setRuntime]
  split
  · rfl
  · next hlimit => rw [hlast.resolve_left (fun h => hlimit (decide_eq_true h))]

/-- Below the limit the node is loaded again from block 0 (R157). -/
theorem attemptFailureOutside_again (hlimit : r.attempts + 1 < s.params.imageAttempts) {n : Nat} {i : ImageEntry}
    (hfound : s.lookupImage e.kind = some (n, i)) :
    attemptFailureOutside a reported s = enterImage a 0 n i reported (s.setRuntime a (some r.attemptFailed)) := by
  have hentry : (s.setRuntime a (some r.attemptFailed)).entry a = some e := he
  unfold attemptFailureOutside
  dsimp only
  rw [countAttempt_eq hr, attemptsSpent_attemptFailed hr, hentry, Option.bind_some, lookupImage_setRuntime, hfound,
    decide_eq_false (Nat.not_le_of_lt hlimit)]
  rfl

end

/-- What an attempt failure outside IMAGE leaves of a node of kind `k` (R156, R157): `r` is its record before, `x` after. -/
structure Retried (a : Nat) (k : Byte) (reported : Option ImageState) (s u : State) (r x : Runtime) : Prop where
  attempts : x.attempts = r.attempts + 1
  expected : x.expected = none
  failed : (s.params.imageAttempts ≤ r.attempts + 1 ∨ ∀ n c, ¬ s.Finds k n c) →
    x.state = .failed ∧ x.step = .none ∧ x.bootCount = none ∧ u.queue a = []
  again : ∀ n c, r.attempts + 1 < s.params.imageAttempts → s.Finds k n c →
    x.state = .image ∧ x.bootCount = r.bootCount ∧ u.place n = some { c with readers := c.readers + 1 }
      ∧ ∃ y, x.session = some y ∧ y.entry = n ∧ y.next = 0 ∧ y.remaining = c.image.length ∧ y.retries = 0
          ∧ y.reported = reported ∧ y.lastSent = .none

/-- What an attempt failure reads beside the node's record: the catalogue's entries and the image attempts parameter. -/
theorem Retried.from_state {a : Nat} {k : Byte} {reported : Option ImageState} {s t u : State} {r x : Runtime}
    (h : Retried a k reported t u r x) (hstore : t.store = s.store) (htables : t.tables = s.tables) :
    Retried a k reported s u r x := by
  have hfinds : ∀ n c, t.Finds k n c ↔ s.Finds k n c := by
    intro n c
    unfold State.Finds State.placeOfKind State.place
    rw [hstore]
  have hparams : t.params = s.params := congrArg Tables.params htables
  obtain ⟨hattempts, hexpected, hfailed, hagain⟩ := h
  simp only [hfinds, hparams] at hfailed hagain
  exact ⟨hattempts, hexpected, hfailed, hagain⟩

theorem attemptFailureOutside_retries {s : State} {a : Nat} {r : Runtime} {e : NodeEntry} (hr : s.runtime a = some r)
    (he : s.entry a = some e) (hstep : r.step = .none) (reported : Option ImageState) :
    (attemptFailureOutside a reported s).shadow = s.shadow
      ∧ ∃ x, (attemptFailureOutside a reported s).runtime a = some x
        ∧ Retried a e.kind reported s (attemptFailureOutside a reported s) r x := by
  have hcounted := runtime_setRuntime_same hr (some r.attemptFailed)
  have hidle : (failedRecord r.attemptFailed).step = .none := by
    show r.step.cancel = .none
    rw [hstep]; rfl
  by_cases hagain : r.attempts + 1 < s.params.imageAttempts ∧ ∃ n c, s.Finds e.kind n c
  · obtain ⟨hlimit, n, c, hfinds⟩ := hagain
    have ⟨hn, hc, _⟩ := hfinds
    have heq := attemptFailureOutside_again hr he reported hlimit (lookupImage_eq_some hfinds)
    obtain ⟨hblocks, ⟨b, q, hx⟩, hplace⟩ := enterImage_cases hcounted 0 n c.image reported
    rw [heq]
    refine ⟨hblocks.shadow, _, hx, rfl, rfl, ?_, ?_⟩
    · rintro (hspent | hnone)
      · exact absurd hspent (Nat.not_le_of_lt hlimit)
      · exact absurd hfinds (hnone n c)
    · rintro n' c' - ⟨hn', hc', -⟩
      cases hn.symm.trans hn'
      cases hc.symm.trans hc'
      exact ⟨rfl, rfl, hplace c hc, _, rfl, rfl, rfl, rfl, rfl, rfl, rfl⟩
  · have hlast : s.params.imageAttempts ≤ r.attempts + 1 ∨ s.lookupImage e.kind = none :=
      (Nat.lt_or_ge (r.attempts + 1) s.params.imageAttempts).symm.imp_right fun hlimit =>
        lookupImage_eq_none fun n c h => hagain ⟨hlimit, n, c, h⟩
    have heq := attemptFailureOutside_last hr he reported hlast
    obtain ⟨hx, hqueue, hshadow⟩ := enterFailed_cases hcounted
    rw [heq]
    exact ⟨hshadow, _, hx, rfl, rfl, fun _ => ⟨rfl, hidle, rfl, hqueue⟩, fun n c hlimit h => absurd ⟨hlimit, n, c, h⟩ hagain⟩

/-! ### A changed or unknown count (R46, R118) -/

/-- The record with the reported boot count (R46, steps 1 and 2). -/
def Runtime.recounted (marker : Byte) (r : Runtime) : Runtime :=
  { r with bootCount := some marker, noReply := 0, attempts := if r.expected = none then 0 else r.attempts }

/-- The state with the reported boot count recorded and the shadow slots renewed (R46, steps 1 to 3). -/
def State.recounted (s : State) (a : Nat) (marker : Byte) : State :=
  renewShadow a (s.mapRuntime a (Runtime.recounted marker))

/-- Every valid slot in the node's replay order list of `s` is renewed in `u` (R118). -/
def State.Renews (s : State) (a : Nat) (u : State) : Prop :=
  ∀ i ∈ s.replayList a, ∀ q, s.slot i = some q → u.slot i = renewed q

theorem renewShadow_renews (a : Nat) (s : State) : s.Renews a (renewShadow a s) := by
  intro i hi q hq
  rw [slot_renewShadow, if_pos hi, hq, Option.bind_some]

theorem State.Renews.from_shadow {s t u : State} {a : Nat} (h : t.Renews a u) (hshadow : t.shadow = s.shadow) :
    s.Renews a u := by
  unfold State.Renews State.replayList State.slot at h ⊢
  rwa [hshadow] at h

theorem State.Renews.of_shadow {s t u : State} {a : Nat} (h : s.Renews a t) (hshadow : u.shadow = t.shadow) :
    s.Renews a u := by
  intro i hi q hq
  refine Eq.trans ?_ (h i hi q hq)
  unfold State.slot
  rw [hshadow]

/-- What the recount of a node leaves in `t`: only the node's record and the Shadow Store change. -/
structure Recounts (s t : State) (a : Nat) (r : Runtime) (marker : Byte) : Prop where
  runtime : t.runtime a = some (r.recounted marker)
  renews : s.Renews a t
  store : t.store = s.store
  tables : t.tables = s.tables

section
variable {s : State} {a : Nat} {r : Runtime} {e : NodeEntry} (hr : s.runtime a = some r) (he : s.entry a = some e)
  (marker : Byte)
include hr

theorem recounts_recounted : Recounts s (s.recounted a marker) a r marker := by
  have hrecord := runtime_mapRuntime_same hr (Runtime.recounted marker)
  have hblocks := sameBlocks_mapRuntime s a (Runtime.recounted marker)
  have hstore := store_mapRuntime s a (Runtime.recounted marker)
  unfold State.recounted
  generalize s.mapRuntime a (Runtime.recounted marker) = u at hrecord hblocks hstore ⊢
  obtain ⟨x, hx⟩ := onlyShadow_renewShadow a u
  refine ⟨?_, (renewShadow_renews a u).from_shadow hblocks.shadow, ?_, ?_⟩ <;> rw [hx]
  · exact hrecord
  · exact hstore
  · exact hblocks.tables

include he

theorem entry_recounted : (s.recounted a marker).entry a = some e := by
  unfold State.entry
  rw [(recounts_recounted hr marker).tables]
  exact he

variable {rep : StatusReport}

/-- A node of another kind than the table's fails (R46, step 4). -/
theorem reconcileChanged_otherKind (hkind : rep.kind ≠ e.kind) :
    reconcileChanged a r marker rep s = enterFailed a (s.recounted a marker) := by
  have hentry := entry_recounted hr he marker
  unfold State.recounted Runtime.recounted at hentry ⊢
  unfold reconcileChanged
  dsimp only
  rw [hentry]
  exact if_pos hkind

/-- An expected version is met, or the attempt has failed (R46, step 5). -/
theorem reconcileChanged_expected (hkind : rep.kind = e.kind) {version : Word16} (hexpected : r.expected = some version) :
    reconcileChanged a r marker rep s =
      if rep.image = .intact ∧ rep.running = version then
        enterConfig a ((s.recounted a marker).mapRuntime a (fun r => { r with expected := none }))
      else attemptFailureOutside a (some rep.image) (s.recounted a marker) := by
  have hentry := entry_recounted hr he marker
  unfold State.recounted Runtime.recounted at hentry ⊢
  unfold reconcileChanged
  dsimp only
  rw [hentry]
  dsimp only
  rw [if_neg (not_not_intro hkind), hexpected]

/-- Without one the image decision is made (R46, step 6). -/
theorem reconcileChanged_unexpecting (hkind : rep.kind = e.kind) (hexpected : r.expected = none) :
    reconcileChanged a r marker rep s = decideImage a e rep (s.recounted a marker) := by
  have hentry := entry_recounted hr he marker
  unfold State.recounted Runtime.recounted at hentry ⊢
  unfold reconcileChanged
  dsimp only
  rw [hentry]
  dsimp only
  rw [if_neg (not_not_intro hkind), hexpected]

end

end Sys2Proof.Machine
end

section
/-! SUPPORT. The image decision (R146), row by row, and what its result enters. -/

namespace Sys2Proof.Machine

/-! ### The table of the image decision (R146) -/

section
variable {policy : ImagePolicy} {rep : StatusReport} {i : ImageEntry}

/-- The report says that the node holds a part of the catalogue's image, and where to go on (R146). -/
def Resumes (rep : StatusReport) (i : ImageEntry) : Prop :=
  rep.image = .incomplete ∧ rep.target = i.version ∧ rep.resume < i.length

theorem imageDecision_intact_none (h : rep.image = .intact) : imageDecision policy rep none = .config := by
  unfold imageDecision
  rw [h]

theorem imageDecision_not_intact_none (h : rep.image ≠ .intact) : imageDecision policy rep none = .failed := by
  unfold imageDecision
  cases himage : rep.image with
  | intact => exact absurd himage h
  | incomplete | absent | corrupt => rfl

theorem imageDecision_intact_kept (h : rep.image = .intact) (hkept : rep.running = i.version ∨ policy ≠ .follow) :
    imageDecision policy rep (some i) = .config := by
  unfold imageDecision
  rw [h]
  dsimp only
  split
  · rfl
  · next hversion =>
    cases policy with
    | follow => exact (hkept.elim hversion (fun h => h rfl)).elim
    | keep | none => rfl

theorem imageDecision_intact_follow (h : rep.image = .intact) (hversion : rep.running ≠ i.version) :
    imageDecision .follow rep (some i) = .image 0 := by
  unfold imageDecision
  rw [h]
  exact if_neg hversion

theorem imageDecision_policy_none (h : rep.image ≠ .intact) : imageDecision .none rep (some i) = .failed := by
  unfold imageDecision
  cases himage : rep.image with
  | intact => exact absurd himage h
  | incomplete | absent | corrupt => rfl

/-- A node that is not intact and may be loaded gets the image, from its resume block where it can go on. -/
theorem imageDecision_loads (h : rep.image ≠ .intact) (hpolicy : policy ≠ .none) :
    (Resumes rep i → imageDecision policy rep (some i) = .image rep.resume)
      ∧ (¬ Resumes rep i → imageDecision policy rep (some i) = .image 0) := by
  have htable : imageDecision policy rep (some i) =
      if rep.image = .incomplete ∧ rep.target = i.version ∧ rep.resume < i.length then .image rep.resume else .image 0 := by
    unfold imageDecision
    cases himage : rep.image with
    | intact => exact absurd himage h
    | incomplete | absent | corrupt =>
      cases policy with
      | none => exact absurd rfl hpolicy
      | follow | keep => rfl
  rw [htable]
  exact ⟨fun h => if_pos h, fun h => if_neg h⟩

end

/-! ### What the decision enters -/

section
variable {s : State} {a : Nat} {e : NodeEntry} {rep : StatusReport}

theorem decideImage_of_config (h : imageDecision e.policy rep ((s.lookupImage rep.kind).map (·.2)) = .config) :
    decideImage a e rep s = enterConfig a s := by
  unfold decideImage
  dsimp only
  rw [h]

theorem decideImage_of_failed (h : imageDecision e.policy rep ((s.lookupImage rep.kind).map (·.2)) = .failed) :
    decideImage a e rep s = enterFailed a s := by
  unfold decideImage
  dsimp only
  rw [h]

theorem decideImage_of_image {n k : Nat} {i : ImageEntry} (hfound : s.lookupImage rep.kind = some (n, i))
    (h : imageDecision e.policy rep (some i) = .image k) :
    decideImage a e rep s = enterImage a k n i (some rep.image) s := by
  unfold decideImage
  rw [hfound]
  dsimp only [Option.map_some]
  rw [h]

theorem enterConfig_of_idle {r : Runtime} (hr : s.runtime a = some r) (hstep : r.step = .none) :
    (enterConfig a s).shadow = s.shadow
      ∧ (enterConfig a s).runtime a = some { r.move .config with misses := 0, step := .ready .config } := by
  refine ⟨(sameBlocks_mapRuntime s a _).shadow, (runtime_mapRuntime_same hr _).trans ?_⟩
  rw [hstep]
  rfl

end

end Sys2Proof.Machine
end

section
/-! SUPPORT. The STATUS REPORT that ends a probe (R45, R46): each way on of a reconciliation, as what the command ends with. -/

namespace Sys2Proof.Machine

/-! ### The command and its reconciliation -/

/-- The reply `v`, a STATUS REPORT with the fields `rep`, ends the probe of node `a` in PROBE, AWAIT_BOOT or MISSING. -/
structure ProbeAnswered (s : State) (a : Nat) (e : NodeEntry) (r : Runtime) (v : Reply) (rep : StatusReport) : Prop where
  collects : s.CollectsStep a .statusQuery
  entry : s.entry a = some e
  runtime : s.runtime a = some r
  step : r.step = .inFlight .probe
  state : r.state ∈ [NodeState.probe, .awaitBoot, .missing]
  kind : v.kind = .statusReport
  parse : parseStatus v.payload = some rep

/-- The state that a reconciliation starts from: the line FREE and the node without a step (R67). -/
def State.probeEnded (s : State) (a : Nat) (r : Runtime) : State :=
  s.lineFree.setRuntime a (some { r with step := .none })

/-- The reply ends its command in a state and a record of node `a` of which `P` holds, with the line FREE. -/
def State.EndsWith (s : State) (a : Nat) (v : Reply) (P : State → Runtime → Prop) : Prop :=
  ∃ u x, exec (.replyReceived (replyChars a v)) s = .next u ∧ u.runtime a = some x ∧ u.segment.line = .free ∧ P u x

theorem State.EndsWith.mono {s : State} {a : Nat} {v : Reply} {P Q : State → Runtime → Prop} (h : s.EndsWith a v P)
    (hPQ : ∀ u x, P u x → Q u x) : s.EndsWith a v Q := by
  obtain ⟨u, x, hexec, hx, hline, hPx⟩ := h
  exact ⟨u, x, hexec, hx, hline, hPQ u x hPx⟩

/-- A predicate that the end of a command cannot change. -/
def EndKeeps (P : State → Runtime → Prop) : Prop := ∀ t y n x, P t x → P { t.withTrunk y with moment := n } x

/-- From `s`, with its slots renewed, the node has entered FAILED (R46, R53). -/
def State.FailedAfresh (s : State) (a : Nat) (u : State) (x : Runtime) : Prop :=
  x.state = .failed ∧ x.step = .none ∧ x.bootCount = none ∧ u.queue a = [] ∧ s.Renews a u

/-- From `s`, with the count recorded and its slots renewed, the node has entered CONFIG (R46, R50). -/
def State.Configured (s : State) (a : Nat) (marker : Byte) (u : State) (x : Runtime) : Prop :=
  x.state = .config ∧ x.step = .ready .config ∧ x.bootCount = some marker ∧ x.expected = none ∧ x.noReply = 0
    ∧ s.Renews a u

theorem endsRestore_of_probed {st : NodeState} (h : st ∈ [NodeState.probe, .awaitBoot, .missing]) :
    st.endsRestore = true := by
  revert h
  cases st <;> decide

theorem reconcile_eq {s : State} {a : Nat} {r : Runtime} (hr : s.runtime a = some r)
    (hstate : r.state ∈ [NodeState.probe, .awaitBoot, .missing]) (marker : Byte) (rep : StatusReport) :
    reconcile a marker rep s =
      if r.bootCount = some marker then reconcileKept a r s else reconcileChanged a r marker rep s := by
  have hprobed : r.state = .probe ∨ r.state = .awaitBoot ∨ r.state = .missing := by simpa using hstate
  unfold reconcile
  rw [hr]
  dsimp only
  rcases hprobed with h | h | h <;> rw [h]

namespace ProbeAnswered

variable {s : State} {a : Nat} {e : NodeEntry} {r : Runtime} {v : Reply} {rep : StatusReport}
  (h : ProbeAnswered s a e r v rep)
include h

theorem runtime_probeEnded : (s.probeEnded a r).runtime a = some { r with step := .none } :=
  runtime_setRuntime_same (s := s.lineFree) h.runtime _

theorem exec_eq :
    exec (.replyReceived (replyChars a v)) s = .next (endCommand (reconcile a v.marker rep (s.probeEnded a r))) := by
  have hlength : v.payload.length ≤ 64 := by
    have hparse := h.parse
    unfold parseStatus at hparse
    split at hparse
    · omega
    · cases hparse
  have hpayload : payloadFits v.kind v.payload = true := by
    rw [h.kind]
    exact Option.isSome_of_eq_some h.parse
  rw [h.collects.exec_replyReceived hlength (by rw [h.kind]; rfl) hpayload,
    stepEnded_of_inFlight (s := s.lineFree) h.runtime h.step]
  show Host.Outcome.next (endCommand (probeResult a (.valid v) (s.probeEnded a r))) = _
  unfold probeResult
  dsimp only
  rw [h.parse]

/-- What a reconciliation leaves, the command ends with. -/
theorem endsWith {P : State → Runtime → Prop} (hP : EndKeeps P) {t : State} {x : Runtime}
    (ht : reconcile a v.marker rep (s.probeEnded a r) = t) (hx : t.runtime a = some x) (hPx : P t x) :
    s.EndsWith a v P := by
  obtain ⟨y, n, hend⟩ := endCommand_eq t
  have hline : t.segment.line = .free := by
    rw [← ht]
    exact line_of_quiet (reconcile_quiet (s.probeEnded a r) a v.marker rep)
  refine ⟨_, x, h.exec_eq, ?_⟩
  rw [ht, hend]
  exact ⟨hx, hline, hP t y n x hPx⟩

/-! #### An unchanged count (R45) -/

section
variable (hkept : r.bootCount = some v.marker)
include hkept

theorem reconcile_kept :
    reconcile a v.marker rep (s.probeEnded a r) = reconcileKept a { r with step := .none } (s.probeEnded a r) :=
  (reconcile_eq h.runtime_probeEnded h.state v.marker rep).trans (if_pos hkept)

/-- Without an expected version the node leaves by the onward choice. -/
theorem kept_onward (hexpected : r.expected = none) :
    s.EndsWith a v fun u x => x.bootCount = some v.marker ∧ x.state = s.onwardState a
      ∧ (x.state = .online → x.attempts = 0 ∧ x.noReply = 0 ∧ x.restores = r.restores + 1)
      ∧ u.shadow = s.shadow ∧ u.hold = s.hold := by
  obtain ⟨hblocks, x, hx, hboot, hstate, honline⟩ := onward_cases h.runtime_probeEnded (endsRestore_of_probed h.state)
  have heq : reconcile a v.marker rep (s.probeEnded a r) = onward a (s.probeEnded a r) := by
    rw [h.reconcile_kept hkept, reconcileKept, hexpected]
  exact h.endsWith (fun _ _ _ _ h => h) heq hx ⟨hboot.trans hkept, hstate, honline, hblocks.shadow, hblocks.hold⟩

/-- With one, AWAIT_BOOT goes on in its window (R43). -/
theorem kept_awaitBoot {version : Word16} (hexpected : r.expected = some version) (hstate : r.state = .awaitBoot) :
    let next := after s.now s.params.callInterval
    s.EndsWith a v fun _ x => x.state = .awaitBoot ∧ x.window = r.window ∧ x.expected = some version
      ∧ x.bootCount = some v.marker
      ∧ ∀ o w, r.window = some (o, w) → x.nextProbe = some next ∧ x.step = (if reached next w then .none else .waiting) := by
  intro next
  have heq : reconcile a v.marker rep (s.probeEnded a r) = nextProbeInWindow a (s.probeEnded a r) := by
    rw [h.reconcile_kept hkept, reconcileKept, hexpected]
    dsimp only
    rw [hstate]
  refine h.endsWith (fun _ _ _ _ h => h) heq (runtime_mapRuntime_same h.runtime_probeEnded _) ?_
  cases hwindow : r.window with
  | none => exact ⟨hstate, rfl, hexpected, hkept, nofun⟩
  | some window =>
    refine ⟨hstate, rfl, hexpected, hkept, ?_⟩
    rintro o w ⟨⟩
    exact ⟨rfl, rfl⟩

/-- With one, PROBE opens a window measured from now (R43). -/
theorem kept_probe {version : Word16} (hexpected : r.expected = some version) (hstate : r.state = .probe) :
    let opens := after s.now (e.bootMin * 10)
    let closes := after s.now (e.bootMax * 10)
    s.EndsWith a v fun u x => x.expected = some version ∧ x.bootCount = some v.marker ∧ x.misses = 0 ∧ u.shadow = s.shadow
      ∧ (reached s.now closes = false →
          x.state = .awaitBoot ∧ x.window = some (opens, closes)
            ∧ x.step = (if reached s.now opens then .ready .probe else .waiting)
            ∧ (reached s.now opens = false → x.nextProbe = some opens))
      ∧ (reached s.now closes = true →
          x.state = .missing ∧ x.window = none ∧ x.step = .waiting
            ∧ x.nextProbe = some (after s.now (s.params.missingInterval * 1000))) := by
  intro opens closes
  have heq : reconcile a v.marker rep (s.probeEnded a r) = enterAwaitBoot a s.now (s.probeEnded a r) := by
    rw [h.reconcile_kept hkept, reconcileKept, hexpected]
    dsimp only
    rw [hstate]
    rfl
  obtain ⟨hblocks, x, hx, hexpected', hboot, hmisses, hopen, hclosed⟩ :=
    enterAwaitBoot_cases (s := s.probeEnded a r) h.entry h.runtime_probeEnded rfl s.now
  exact h.endsWith (fun _ _ _ _ h => h) heq hx
    ⟨hexpected'.trans hexpected, hboot.trans hkept, hmisses, hblocks.shadow, hopen, hclosed⟩

/-- With one, MISSING is an attempt failure (R157). -/
theorem kept_missing {version : Word16} (hexpected : r.expected = some version) (hstate : r.state = .missing) :
    s.EndsWith a v fun u x =>
      Retried a e.kind none s u { r with bootCount := some v.marker } x ∧ u.shadow = s.shadow := by
  rw [← hkept]
  have heq : reconcile a v.marker rep (s.probeEnded a r) = attemptFailureOutside a none (s.probeEnded a r) := by
    rw [h.reconcile_kept hkept, reconcileKept, hexpected]
    dsimp only
    rw [hstate]
  obtain ⟨hshadow, x, hx, hretried⟩ :=
    attemptFailureOutside_retries (s := s.probeEnded a r) h.runtime_probeEnded h.entry rfl none
  exact h.endsWith (fun _ _ _ _ ⟨h, h'⟩ => ⟨⟨h.attempts, h.expected, h.failed, h.again⟩, h'⟩) heq hx
    ⟨⟨hretried.attempts, hretried.expected, hretried.failed, hretried.again⟩, hshadow⟩

end

/-! #### A changed or unknown count (R46, R146) -/

theorem recounts : Recounts (s.probeEnded a r) ((s.probeEnded a r).recounted a v.marker) a { r with step := .none } v.marker :=
  recounts_recounted h.runtime_probeEnded v.marker

theorem lookupImage_recounted (k : Byte) :
    ((s.probeEnded a r).recounted a v.marker).lookupImage k = s.lookupImage k :=
  lookupImage_congr h.recounts.store k

theorem endsWith_failed (heq : reconcile a v.marker rep (s.probeEnded a r) =
      enterFailed a ((s.probeEnded a r).recounted a v.marker)) : s.EndsWith a v (s.FailedAfresh a) := by
  obtain ⟨hx, hqueue, hshadow⟩ := enterFailed_cases h.recounts.runtime
  exact h.endsWith (fun _ _ _ _ h => h) heq hx ⟨rfl, rfl, rfl, hqueue, h.recounts.renews.of_shadow hshadow⟩

section
variable (hchanged : r.bootCount ≠ some v.marker)
include hchanged

theorem reconcile_changed :
    reconcile a v.marker rep (s.probeEnded a r) = reconcileChanged a { r with step := .none } v.marker rep (s.probeEnded a r) :=
  (reconcile_eq h.runtime_probeEnded h.state v.marker rep).trans (if_neg hchanged)

theorem changed_otherKind (hkind : rep.kind ≠ e.kind) : s.EndsWith a v (s.FailedAfresh a) :=
  h.endsWith_failed ((h.reconcile_changed hchanged).trans
    (reconcileChanged_otherKind (s := s.probeEnded a r) h.runtime_probeEnded h.entry v.marker hkind))

section
variable (hkind : rep.kind = e.kind)
include hkind

/-- A node that should run the version it was loaded with and does not is an attempt failure (R46, R157). -/
theorem changed_unexpected {version : Word16} (hexpected : r.expected = some version)
    (hother : rep.image ≠ .intact ∨ rep.running ≠ version) :
    s.EndsWith a v fun u x => Retried a e.kind (some rep.image) s u { r with bootCount := some v.marker } x ∧ s.Renews a u := by
  have heq := (h.reconcile_changed hchanged).trans
    (reconcileChanged_expected (s := s.probeEnded a r) h.runtime_probeEnded h.entry v.marker hkind hexpected)
  rw [if_neg (fun hboth => hother.elim (absurd hboth.1) (absurd hboth.2))] at heq
  have hentry := entry_recounted (s := s.probeEnded a r) h.runtime_probeEnded h.entry v.marker
  obtain ⟨hshadow, x, hx, hretried⟩ := attemptFailureOutside_retries h.recounts.runtime hentry rfl (some rep.image)
  have hretried := hretried.from_state h.recounts.store h.recounts.tables
  have hattempts : (({ r with step := .none } : Runtime).recounted v.marker).attempts = r.attempts :=
    if_neg (by rw [hexpected]; nofun)
  obtain ⟨hcount, hdropped, hfailed, hagain⟩ := hretried
  rw [hattempts] at hcount hfailed hagain
  exact h.endsWith (fun _ _ _ _ ⟨h, h'⟩ => ⟨⟨h.attempts, h.expected, h.failed, h.again⟩, h'⟩) heq hx
    ⟨⟨hcount, hdropped, hfailed, hagain⟩, h.recounts.renews.of_shadow hshadow⟩

/-- A node that runs the version it was loaded with goes to CONFIG, with the attempt count kept (R46). -/
theorem changed_expected (hexpected : r.expected = some rep.running) (hintact : rep.image = .intact) :
    s.EndsWith a v fun u x => s.Configured a v.marker u x ∧ x.attempts = r.attempts := by
  have heq := (h.reconcile_changed hchanged).trans
    (reconcileChanged_expected (s := s.probeEnded a r) h.runtime_probeEnded h.entry v.marker hkind hexpected)
  rw [if_pos ⟨hintact, rfl⟩] at heq
  have hrecord := runtime_mapRuntime_same h.recounts.runtime fun r => { r with expected := none }
  obtain ⟨hshadow, hx⟩ := enterConfig_of_idle hrecord rfl
  have hrenews := h.recounts.renews.of_shadow (sameBlocks_mapRuntime _ a fun r => { r with expected := none }).shadow
  exact h.endsWith (fun _ _ _ _ h => h) heq hx
    ⟨⟨rfl, rfl, rfl, rfl, rfl, hrenews.of_shadow hshadow⟩, if_neg (by rw [hexpected]; nofun)⟩

/-! #### The image decision (R146) -/

section
variable (hexpected : r.expected = none)
include hexpected

theorem reconcile_decides :
    reconcile a v.marker rep (s.probeEnded a r) = decideImage a e rep ((s.probeEnded a r).recounted a v.marker) :=
  (h.reconcile_changed hchanged).trans
    (reconcileChanged_unexpecting (s := s.probeEnded a r) h.runtime_probeEnded h.entry v.marker hkind hexpected)

/-- The rows of the table that lead to CONFIG, taken. -/
theorem decided_config (hdecision : imageDecision e.policy rep ((s.lookupImage rep.kind).map (·.2)) = .config) :
    s.EndsWith a v (s.Configured a v.marker) := by
  rw [← h.lookupImage_recounted] at hdecision
  have heq := (h.reconcile_decides hchanged hkind hexpected).trans (decideImage_of_config hdecision)
  obtain ⟨hshadow, hx⟩ := enterConfig_of_idle h.recounts.runtime rfl
  exact h.endsWith (fun _ _ _ _ h => h) heq hx ⟨rfl, rfl, rfl, hexpected, rfl, h.recounts.renews.of_shadow hshadow⟩

/-- The rows that lead to FAILED, taken. -/
theorem decided_failed (hdecision : imageDecision e.policy rep ((s.lookupImage rep.kind).map (·.2)) = .failed) :
    s.EndsWith a v (s.FailedAfresh a) := by
  rw [← h.lookupImage_recounted] at hdecision
  exact h.endsWith_failed ((h.reconcile_decides hchanged hkind hexpected).trans (decideImage_of_failed hdecision))

/-- The rows that lead to IMAGE, taken: a fresh session from block `k` of the entry found. -/
theorem decided_image {n k : Nat} {i : ImageEntry} (hfound : s.lookupImage rep.kind = some (n, i))
    (hdecision : imageDecision e.policy rep (some i) = .image k) :
    s.EndsWith a v fun u x => x.state = .image ∧ x.bootCount = some v.marker ∧ x.attempts = 0 ∧ s.Renews a u
      ∧ ∃ y, x.session = some y ∧ y.entry = n ∧ y.next = k ∧ y.remaining = i.length - k ∧ y.retries = 0
          ∧ y.reported = some rep.image ∧ y.lastSent = .none := by
  rw [← h.lookupImage_recounted] at hfound
  have heq := (h.reconcile_decides hchanged hkind hexpected).trans (decideImage_of_image hfound hdecision)
  obtain ⟨hblocks, ⟨b, q, hx⟩, -⟩ := enterImage_cases h.recounts.runtime k n i (some rep.image)
  exact h.endsWith (fun _ _ _ _ h => h) heq hx
    ⟨rfl, rfl, if_pos hexpected, h.recounts.renews.of_shadow hblocks.shadow, _, rfl, rfl, rfl, rfl, rfl, rfl, rfl⟩

end

end

end

end ProbeAnswered

/-- Settles O56: the reply is a `ProbeAnswered`, and each clause is the way on that its own conditions choose. -/
theorem statusReportIsReconciled : Obligations.StatusReportIsReconciled := by
  intro s a e r image running target resume kind function marker hcollects he hr hstep hstate hresume code report
  have hcode : ImageState.ofCode code = some image := by cases image <;> rfl
  have h : ProbeAnswered s a e r report
      { image := image, running := running, target := target, resume := resume, kind := kind } :=
    ⟨hcollects, he, hr, hstep, hstate, rfl, parseStatus_payload hcode running target hresume kind⟩
  intro ends kept stands entry renewed decided configured failed now next opens closes limit retried fresh resumes
  refine ⟨fun hkept hexpected => h.kept_onward hkept hexpected,
    fun v hkept hexpected hst => h.kept_awaitBoot hkept hexpected hst,
    fun v hkept hexpected hst => h.kept_probe hkept hexpected hst,
    fun v hkept hexpected hst => ?_,
    fun hchanged hother => ?_,
    fun v hchanged hkind hexpected hother => ?_,
    fun hchanged hkind hexpected hintact => ?_,
    fun ⟨hchanged, hkind, hexpected⟩ hnone hintact => ?_,
    fun ⟨hchanged, hkind, hexpected⟩ hnone hintact => ?_,
    fun n c ⟨hchanged, hkind, hexpected⟩ hfinds => ?_⟩
  · exact (h.kept_missing hkept hexpected hst).mono fun u x ⟨hretried, hshadow⟩ =>
      ⟨⟨hretried.attempts, hretried.expected, hretried.failed, hretried.again⟩, hshadow⟩
  · exact h.changed_otherKind hchanged hother
  · exact (h.changed_unexpected hchanged hkind hexpected hother).mono fun u x ⟨hretried, hrenews⟩ =>
      ⟨⟨hretried.attempts, hretried.expected, hretried.failed, hretried.again⟩, hrenews⟩
  · exact h.changed_expected hchanged hkind hexpected hintact
  · refine h.decided_config hchanged hkind hexpected ?_
    rw [lookupImage_eq_none hnone]
    exact imageDecision_intact_none hintact
  · refine h.decided_failed hchanged hkind hexpected ?_
    rw [lookupImage_eq_none hnone]
    exact imageDecision_not_intact_none hintact
  · have hfound : s.lookupImage kind = some (n, c.image) := lookupImage_eq_some hfinds
    have hloads := fun k => h.decided_image (k := k) hchanged hkind hexpected hfound
    refine ⟨fun hintact hkeeps => h.decided_config hchanged hkind hexpected ?_,
      fun hintact hversion hfollow => hloads 0 (hfollow ▸ imageDecision_intact_follow hintact hversion),
      fun hintact hnever => h.decided_failed hchanged hkind hexpected ?_,
      fun hresumes hpolicy => hloads resume ((imageDecision_loads (by rw [hresumes.1]; nofun) hpolicy).1 hresumes),
      fun hintact hafresh hpolicy => hloads 0 ((imageDecision_loads hintact hpolicy).2 hafresh)⟩
    · rw [hfound]
      exact imageDecision_intact_kept hintact hkeeps
    · rw [hfound, hnever]
      exact imageDecision_policy_none hintact

end Sys2Proof.Machine
end

section
/-! SUPPORT. READ STATUS (R184): the counts that its 40 bytes show. -/

namespace Sys2Proof.Machine

section
variable {s : State} {rest : List TrunkFrame} {i : Nat}

/-! ### The entry reserved for an answer is not FREE (R94, R181) -/

theorem freeEntry_eq_some (h : s.freeEntry = some i) : i < 24 ∧ s.trunk.egress[i]? = some .free :=
  ⟨List.mem_range.mp (List.mem_of_find?_eq_some h), by simpa using List.find?_some h⟩

theorem free_reserved (j : Nat) :
    (s.reserved rest i).trunk.egress[j]? = some .free ↔ j ≠ i ∧ s.trunk.egress[j]? = some .free := by
  simp only [State.reserved, Vector.getElem?_setIfInBounds]
  split
  · next hij => split <;> simp [hij]
  · next hij => simp [Ne.symm hij]

/-- The FREE entries of egress (R181). -/
def State.freeEntries (s : State) : List Nat := (List.range 24).filter fun j => s.trunk.egress[j]? == some .free

theorem mem_freeEntries (h : s.freeEntry = some i) : i ∈ s.freeEntries := by
  obtain ⟨hi, hfree⟩ := freeEntry_eq_some h
  exact List.mem_filter.mpr ⟨List.mem_range.mpr hi, by simp [hfree]⟩

theorem freeEntries_reserved : (s.reserved rest i).freeEntries = s.freeEntries.erase i := by
  unfold State.freeEntries
  rw [(List.nodup_range.filter _).erase_eq_filter, List.filter_filter]
  refine List.filter_congr fun j _ => ?_
  rw [Bool.eq_iff_iff]
  simpa using free_reserved j

/-- The take of a frame leaves one FREE entry fewer. -/
theorem egressFree_reserved (h : s.freeEntry = some i) : (s.reserved rest i).egressFree = s.egressFree - 1 := by
  change (s.reserved rest i).freeEntries.length = s.freeEntries.length - 1
  rw [freeEntries_reserved, List.length_erase_of_mem (mem_freeEntries h)]

/-! ### Every address is in one of the twelve states -/

theorem NodeState.code_lt (c : NodeState) : c.code < 12 := by cases c <;> decide

/-- The state codes of the addresses 1..30. -/
def State.nodeCodes (s : State) : List Nat := addresses.map fun a => (s.nodeState a).code

theorem nodesIn_eq_count (s : State) (n : Nat) : s.nodesIn n = s.nodeCodes.count n := by
  rw [State.nodeCodes, List.count, List.countP_map, List.countP_eq_length_filter]
  rfl

theorem nodeCodes_lt {n : Nat} (h : n ∈ s.nodeCodes) : n < 12 := by
  obtain ⟨a, -, rfl⟩ := List.mem_map.mp h
  exact NodeState.code_lt _

/-- The twelve counts of R184 add up to 30. -/
theorem sum_nodesIn (s : State) : ((List.range 12).map s.nodesIn).sum = 30 := by
  calc ((List.range 12).map s.nodesIn).sum
    _ = ∑ n ∈ (List.range 12).toFinset, s.nodesIn n := (List.sum_toFinset _ List.nodup_range).symm
    _ = ∑ n ∈ Finset.range 12, (s.nodeCodes : Multiset Nat).count n := by
      simp only [List.toFinset_range, nodesIn_eq_count, Multiset.coe_count]
    _ = s.nodeCodes.length := Multiset.sum_count_eq_card fun _ hn => Finset.mem_range.mpr (nodeCodes_lt hn)
    _ = 30 := List.length_map _

/-! ### The 40 bytes -/

theorem le16_flags (w : BitVec 10) : le16 (w.setWidth 16) = [w.setWidth 8, (w.extractLsb' 8 2).setWidth 8] := by
  have hhigh : (w.setWidth 16).extractLsb' 8 8 = (w.extractLsb' 8 2).setWidth 8 := by
    apply BitVec.eq_of_toNat_eq
    simp only [BitVec.extractLsb'_toNat, BitVec.toNat_setWidth, Nat.shiftRight_eq_div_pow]
    omega
  rw [le16, hhigh]
  rfl

theorem length_statusBytes (s : State) : s.statusBytes.length = 40 := by
  simp [State.statusBytes, le16, le16n, le32]

/-- READ STATUS is answered with the status bytes of the state its take leaves, in either mode (R184). -/
theorem State.Asks.exec_readStatus {tag : Word16} (h : s.Asks .readStatus tag [] rest i) :
    exec .readStatus s = .next (endCommand (s.replies .readStatus tag rest i .done (s.reserved rest i).statusBytes)) := by
  rw [h.runs_act (act := actReadStatus) rfl nofun rfl, actReadStatus, done_asked]

end

/-- Settles O23: the data are the status bytes of the state after the take, where one FREE egress entry is reserved. -/
theorem readStatusAnswersEveryBlock : Obligations.ReadStatusAnswersEveryBlock := by
  intro s tag rest i h nodes data
  have hdata : (s.reserved rest i).statusBytes = data := by
    unfold State.statusBytes
    rw [egressFree_reserved h.1.2, le16_flags]
    rfl
  refine ⟨?_, sum_nodesIn s, ?_⟩
  · rw [← hdata]
    exact length_statusBytes _
  · rw [← hdata]
    exact h.exec_readStatus

end Sys2Proof.Machine
end

section
/-! SUPPORT. What a step keeps: the commands other than SET MODE and the two resets by `Allowed`, the table switch and the resets
by what they do to the records of every node. -/

namespace Sys2Proof.Machine

/-! ### Commands that are neither a reset nor SET MODE -/

/-- What a command other than the two resets may change besides what every command may. -/
def commandChange : Instr → Change
  | .clearFlags => .clearing
  | .writeRule | .writeDefault | .writeSet | .writeNode | .writeConfigRecord | .writeParameters => .editing
  | .blockProgramEnd _ => .programming
  | .setMode => { tables := true }
  | _ => {}

theorem allowed_exec {c : Instr} {s t : State} (hreset : isReset c = false) (hmode : c ≠ .setMode)
    (h : exec c s = .next t) : Allowed (commandChange c) s t := by
  have acts := fun q u => allowed_acts {} q u
  have writes := fun q u => allowed_writes q u
  simp only [forall_and] at acts writes
  obtain ⟨hstatus, hnode, hcounters, hclear, hrule, hset, hshadow, hparams, hident, hstore, -, -, -, -, -, hrestart, hmask⟩ := acts
  obtain ⟨hwrule, hwdefault, hwset, hwnode, hwconfig, hwparams⟩ := writes
  cases c with
  | powerOn => exact nomatch hreset
  | reset => exact nomatch hreset
  | setMode => exact absurd rfl hmode
  | goodFrame chars =>
    refine allowed_happens h fun u hu => ?_
    simp only [goodFrame] at hu
    split at hu
    · cases hu; exact (allowed_setReceiver _ _ _).trans (allowed_acceptFrame _ _ _)
    · cases hu
  | badFrame chars =>
    refine allowed_happens h fun u hu => ?_
    simp only [badFrame] at hu
    split at hu
    · cases hu; exact (allowed_setReceiver _ _ _).trans (allowed_raiseFlag _ _ _)
    · cases hu
  | trunkCharacterGap ender =>
    refine allowed_happens h fun u hu => ?_
    simp only [trunkCharacterGap] at hu
    split at hu
    · cases hu
    · cases hu; exact (allowed_setReceiver _ _ _).trans (allowed_raiseFlag _ _ _)
  | trunkFrameSent =>
    refine allowed_happens h fun u hu => ?_
    obtain ⟨i, -, rfl⟩ := Option.map_eq_some_iff.mp hu
    exact allowed_setEgress _ _ _ _
  | trunkFrameStart =>
    refine allowed_happens h fun u hu => ?_
    simp only [trunkFrameStart] at hu
    split at hu
    · cases hu; exact allowed_setReceiver _ _ _
    · cases hu
  | segmentRequest => exact allowed_happens h fun u => allowed_segmentRequest _
  | unknownRequest => exact allowed_happens h fun u => allowed_unknownRequest _
  | nonRequestFrame => exact allowed_happens h fun u => allowed_nonRequestFrame _
  | readStatus => exact allowed_happens h fun u => allowed_takeRequest hstatus
  | readNode => exact allowed_happens h fun u => allowed_takeRequest hnode
  | readCounters => exact allowed_happens h fun u => allowed_takeRequest hcounters
  | clearCounters => exact allowed_happens h fun u => allowed_takeRequest hclear
  | readRule => exact allowed_happens h fun u => allowed_takeRequest hrule
  | readSet => exact allowed_happens h fun u => allowed_takeRequest hset
  | readShadow => exact allowed_happens h fun u => allowed_takeRequest hshadow
  | readParameters => exact allowed_happens h fun u => allowed_takeRequest hparams
  | readIdentity => exact allowed_happens h fun u => allowed_takeRequest hident
  | storeTables => exact allowed_happens h fun u => allowed_takeRequest hstore
  | imageOpen => exact allowed_happens h fun u => allowed_takeRequest fun q v => allowed_join _ _ _
  | imageBlock => exact allowed_happens h fun u => allowed_takeRequest fun q v => allowed_join _ _ _
  | imageClose => exact allowed_happens h fun u => allowed_takeRequest fun q v => allowed_join _ _ _
  | imageDiscard => exact allowed_happens h fun u => allowed_takeRequest fun q v => allowed_join _ _ _
  | imageDrop => exact allowed_happens h fun u => allowed_takeRequest fun q v => allowed_join _ _ _
  | restartEngine => exact allowed_happens h fun u => allowed_takeRequest hrestart
  | setNoticeMask => exact allowed_happens h fun u => allowed_takeRequest hmask
  | writeRule => exact allowed_happens h fun u => allowed_takeRequest hwrule
  | writeDefault => exact allowed_happens h fun u => allowed_takeRequest hwdefault
  | writeSet => exact allowed_happens h fun u => allowed_takeRequest hwset
  | writeNode => exact allowed_happens h fun u => allowed_takeRequest hwnode
  | writeConfigRecord => exact allowed_happens h fun u => allowed_takeRequest hwconfig
  | writeParameters => exact allowed_happens h fun u => allowed_takeRequest hwparams
  | isolateNode => exact allowed_happens h fun u => allowed_takeRequest fun q v => allowed_actIsolateNode _ q v
  | restoreNode => exact allowed_happens h fun u => allowed_takeRequest fun q v => allowed_actRestoreNode _ q v
  | setIdentity => exact allowed_happens h fun u => allowed_takeRequest fun q v => allowed_actSetIdentity _ q v
  | clearFlags => exact allowed_happens h fun u => allowed_takeRequest fun q v => allowed_actClearFlags q v
  | engineRestartEffect => exact allowed_happens h fun u => allowed_engineRestartEffect _
  | operationStart => exact allowed_happens h fun u => allowed_operationStart _
  | blockProgramEnd b => exact allowed_withinStore h fun u => allowed_blockProgramEnd
  | checkReadEnd b => exact allowed_withinStore h fun u => allowed_checkReadEnd _
  | directoryWriteEnd b => exact allowed_withinStore h fun u => allowed_directoryWriteEnd _
  | tableWriteEnd b => exact allowed_withinStore h fun u => allowed_tableWriteEnd _
  | storeReadEnd b => exact allowed_withinStore h fun u => allowed_storeReadEnd _
  | gapEdgeAbsent => exact allowed_happens h fun u => allowed_gapEdgeAbsent _
  | gapEdgePresent => exact allowed_happens h fun u => allowed_gapEdgePresent _
  | gapStart => exact allowed_happens h fun u => allowed_gapStart _
  | gapEnd => exact allowed_happens h fun u => allowed_gapEnd _
  | gapAgedExpiry => exact allowed_happens h fun u => allowed_gapAgedExpiry _
  | originAgedExpiry a => exact allowed_happens h fun u => allowed_originAgedExpiry _
  | transactionStart => exact allowed_happens h fun u => allowed_transactionStart _
  | segmentFrameSent => exact allowed_happens h fun u => allowed_segmentFrameSent _
  | replyTimeout => exact allowed_happens h fun u => allowed_replyTimeout _
  | replyReceived chars => exact allowed_happens h fun u => allowed_replyReceived _
  | replyCharacterGap => exact allowed_happens h fun u => allowed_replyCutShort _
  | replyLengthAbove64 b => exact allowed_happens h fun u => allowed_replyTooLong _
  | replyStart => exact allowed_happens h fun u => allowed_replyStart _
  | settlingEnd => exact allowed_happens h fun u => allowed_settlingEnd _
  | nextProbeTime a => exact allowed_happens h fun u => allowed_nextProbeTime _
  | bootWindowClose a => exact allowed_happens h fun u => allowed_bootWindowClose _
  | busyPollTime a => exact allowed_happens h fun u => allowed_busyPollTime _
  | holdExpiry a i => exact allowed_happens h fun u => allowed_holdExpiry _


/-! ### A walk in which every node is treated on its own -/

/-- A walk that turns `P a` into `Q a` at the address `a` and disturbs neither for any other address. -/
theorem forNodes_each {P Q : Nat → State → Prop} {f : Nat → State → State} (hself : ∀ a s, P a s → Q a (f a s))
    (hP : ∀ a b s, a ≠ b → P a s → P a (f b s)) (hQ : ∀ a b s, a ≠ b → Q a s → Q a (f b s)) (l : List Nat)
    (hl : l.Nodup) (s : State) (h : ∀ a ∈ l, P a s) : ∀ a ∈ l, Q a (forNodes l f s) := by
  have keep : ∀ (l : List Nat) (a : Nat), a ∉ l → ∀ s, Q a s → Q a (forNodes l f s) := by
    intro l a
    induction l with
    | nil => exact fun _ _ h => h
    | cons b l ih =>
      intro ha s hs
      rw [List.mem_cons, not_or] at ha
      exact ih ha.2 _ (hQ a b s ha.1 hs)
  induction l generalizing s with
  | nil => exact fun a ha => absurd ha List.not_mem_nil
  | cons b l ih =>
    obtain ⟨hb, hl⟩ := List.nodup_cons.mp hl
    have hne : ∀ a ∈ l, a ≠ b := fun a ha e => hb (e ▸ ha)
    intro a ha
    rcases List.mem_cons.mp ha with rfl | ha
    · exact keep l a hb _ (hself a s (h a List.mem_cons_self))
    · exact ih hl (f b s) (fun c hc => hP c b s (hne c hc) (h c (List.mem_cons_of_mem _ hc))) a ha

/-- A property that one node's treatment keeps is kept by the walk. -/
theorem forNodes_keeps {P : State → Prop} {f : Nat → State → State} (hf : ∀ a s, P s → P (f a s)) (l : List Nat)
    {s : State} (h : P s) : P (forNodes l f s) := by
  unfold forNodes
  induction l generalizing s with
  | nil => exact h
  | cons a l ih => exact ih (hf a s h)

/-- A part of the state that one node's treatment leaves alone is left alone by the walk. -/
theorem forNodes_same {α : Type} (g : State → α) {f : Nat → State → State} (hf : ∀ a s, g (f a s) = g s) (l : List Nat)
    (s : State) : g (forNodes l f s) = g s :=
  forNodes_keeps (P := fun t => g t = g s) (fun a t ht => (hf a t).trans ht) l rfl

/-! ### The table switch (R189) -/

/-- The quiet part of a state without what a table switch may change: the tables and the mode, the records of the nodes, the staged
image, and the line but for whether it carries a pass entry. -/
def Quiet.unswitched (q : Quiet) : Quiet :=
  { q with tables := Tables.empty, mode := .depot, reserves := Vector.replicate 30 none, configured := fun _ => false
           line := .free, staged := none }

/-- What a table switch leaves alone. -/
def State.kept (s : State) : Quiet × Nat := (s.quiet.unswitched, s.passInFlight)

theorem kept_of_quiet {s t : State} (h : t.quiet = s.quiet) : t.kept = s.kept :=
  Prod.ext (congrArg Quiet.unswitched h) (passInFlight_of (line_of_quiet h))

theorem setRuntime_kept (s : State) (a : Nat) (r : Option Runtime) : (s.setRuntime a r).kept = s.kept := rfl

theorem setReserve_kept (s : State) (a : Nat) (r : Option Reserve) : (s.setReserve a r).kept = s.kept := rfl

theorem setReserve_within {F : BitVec 10} {n : Nat} {p q : Bool} {s : State} (a : Nat) (r : Option Reserve)
    (h : s.Within F n p q) : (s.setReserve a r).Within F n p q := ⟨h.flags, h.queued, h.named, h.members⟩

theorem setRuntime_within {F : BitVec 10} {n : Nat} {p q : Bool} {s : State} (a : Nat) (x : Option Runtime)
    (hx : ∀ r, x = some r → r.state ≠ .unconfigured) (h : s.Within F n p q) : (s.setRuntime a x).Within F n p q := by
  refine ⟨h.flags, h.queued, fun hp b r hr => ?_, h.members⟩
  rw [runtime_setRuntime] at hr
  split at hr
  · exact hx r hr
  · exact h.named hp b r hr

theorem switchReserve_kept (old new : Tables) (a : Nat) (s : State) : (switchReserve old new a s).kept = s.kept := by
  unfold switchReserve
  split
  · rfl
  · exact (kept_of_quiet (leaveGapSet_quiet _ a)).trans (setReserve_kept s a none)
  · split <;> rfl
  · rfl

theorem switchReserve_within {F : BitVec 10} {n : Nat} {p q : Bool} (old new : Tables) (a : Nat) {s : State}
    (h : s.Within F n p q) : (switchReserve old new a s).Within F n p q := by
  unfold switchReserve
  split
  · exact setReserve_within a _ h
  · exact leaveGapSet_within a (setReserve_within a _ h)
  · split
    · exact setReserve_within a _ h
    · exact h
  · exact h

theorem addNode_kept (a : Nat) (s : State) : (addNode a s).kept = s.kept := by
  unfold addNode
  dsimp only
  split
  · exact (kept_of_quiet ((joinGapSet_quiet _ a).trans (enterSuspect_quiet _ a _))).trans (setRuntime_kept s a _)
  · exact (kept_of_quiet (enterProbe_quiet _ a)).trans (setRuntime_kept s a _)

theorem removeNode_kept (a : Nat) (s : State) : (removeNode a s).kept = s.kept :=
  (setRuntime_kept _ a none).trans (kept_of_quiet ((endSession_quiet _ a).trans (cancelStep_quiet s a)))

theorem switchRuntime_kept (old new : Tables) (a : Nat) (s : State) : (switchRuntime old new a s).kept = s.kept := by
  unfold switchRuntime
  split
  · exact addNode_kept a s
  · exact removeNode_kept a s
  · rfl

theorem switchRuntime_within {F : BitVec 10} {n : Nat} {p q : Bool} (old new : Tables) (a : Nat) {s : State}
    (h : s.Within F n p q) : (switchRuntime old new a s).Within F n p q := by
  unfold switchRuntime
  split
  · have hfresh := setRuntime_within a (some (freshRuntime (s.carriesStep a)))
      (fun r e => by cases e; exact NodeState.noConfusion) h
    unfold addNode
    dsimp only
    split
    · exact joinGapSet_within a (enterSuspect_within a _ hfresh)
    · exact enterProbe_within a hfresh
  · have hnone : ∀ r, (none : Option Runtime) = some r → r.state ≠ .unconfigured := fun _ h => nomatch h
    exact setRuntime_within a none hnone (endSession_within a (cancelStep_within a h))
  · exact h

/-- Whether a pass entry is in flight shows in what the transaction carries. -/
theorem passInFlight_congr {s t : State} (h : t.transaction.map (·.carries) = s.transaction.map (·.carries)) :
    t.passInFlight = s.passInFlight := by
  have eq : ∀ u : State, u.passInFlight = match u.transaction.map (·.carries) with | some (.pass _) => 1 | _ => 0 := by
    intro u
    unfold State.passInFlight
    cases u.transaction with
    | none => rfl
    | some x => obtain ⟨c, _, _, _, _⟩ := x; cases c <;> rfl
  rw [eq, eq, h]

/-- What is forgotten of a destination changes no more than the line, which carries what it carried. -/
theorem forgetDestination_cases (a : Nat) (s : State) :
    ∃ l, forgetDestination a s = s.setLine l ∧ l.transaction.map (·.carries) = s.transaction.map (·.carries) := by
  unfold forgetDestination State.transaction
  cases h : s.segment.line with
  | free => exact ⟨s.segment.line, rfl, by rw [h]⟩
  | settling n => exact ⟨s.segment.line, rfl, by rw [h]⟩
  | sending t w => exact ⟨_, rfl, by dsimp only [Line.transaction]; split <;> rfl⟩
  | awaiting t => exact ⟨_, rfl, by dsimp only [Line.transaction]; split <;> rfl⟩
  | collecting t => exact ⟨_, rfl, by dsimp only [Line.transaction]; split <;> rfl⟩

theorem forgetDestination_kept (a : Nat) (s : State) : (forgetDestination a s).kept = s.kept := by
  obtain ⟨l, h, hl⟩ := forgetDestination_cases a s
  rw [h]
  exact Prod.ext rfl (passInFlight_congr hl)

theorem forgetDestination_within {F : BitVec 10} {n : Nat} {p q : Bool} (a : Nat) {s : State} (h : s.Within F n p q) :
    (forgetDestination a s).Within F n p q := by
  obtain ⟨l, hl, -⟩ := forgetDestination_cases a s
  rw [hl]
  exact ⟨h.flags, h.queued, h.named, h.members⟩

theorem switchPasses_kept (old new : Tables) (a : Nat) (s : State) : (switchPasses old new a s).kept = s.kept := by
  unfold switchPasses
  split
  · exact (kept_of_quiet (returnPasses_quiet _ _)).trans (forgetDestination_kept a s)
  · exact (kept_of_quiet (dropLive_quiet _ a)).trans (forgetDestination_kept a s)
  · rfl

theorem switchPasses_within {F : BitVec 10} {n : Nat} {p q : Bool} (old new : Tables) (a : Nat) {s : State}
    (h : s.Within F n p q) : (switchPasses old new a s).Within F n p q := by
  unfold switchPasses
  split
  · exact returnPasses_within _ (forgetDestination_within a h)
  · exact dropLive_within a (forgetDestination_within a h)
  · exact h

/-- One address has a reserve record where the tables configure it, and its estimate is at most H (R24). -/
def ReserveFits (t : Tables) (a : Nat) (s : State) : Prop :=
  (s.reserve a).isSome = (t.node a).isSome
    ∧ ∀ r e, s.reserve a = some r → t.node a = some e → r.estimate ≤ e.holdup

/-- One address has a runtime record where the tables configure it, and none that reads UNCONFIGURED (R38). -/
def RuntimeFits (t : Tables) (a : Nat) (s : State) : Prop :=
  (s.runtime a).isSome = (t.node a).isSome ∧ ∀ r, s.runtime a = some r → r.state ≠ .unconfigured

theorem reservesSound_iff (s : State) : s.ReservesSound ↔ ∀ a, ReserveFits s.tables a s :=
  forall_and.symm

theorem runtimesSound_iff (s : State) : s.RuntimesSound ↔ ∀ a, RuntimeFits s.tables a s :=
  forall_and.symm

/-- An address outside 1..30 has no record and no entry. -/
theorem reserveFits_outside {t : Tables} {a : Nat} {s : State} (h : isAddress a = false) : ReserveFits t a s := by
  have hr : s.reserve a = none := by
    cases e : s.reserve a with
    | none => rfl
    | some r => rw [isAddress_of_reserve e] at h; cases h
  have ht : t.node a = none := by
    cases e : t.node a with
    | none => rfl
    | some x => rw [isAddress_of_entry (s := s.withTables t) e] at h; cases h
  exact ⟨by rw [hr, ht]; rfl, fun r e h => by rw [hr] at h; cases h⟩

theorem runtimeFits_outside {t : Tables} {a : Nat} {s : State} (h : isAddress a = false) : RuntimeFits t a s := by
  have hr : s.runtime a = none := by
    cases e : s.runtime a with
    | none => rfl
    | some r => rw [isAddress_of_runtime e] at h; cases h
  have ht : t.node a = none := by
    cases e : t.node a with
    | none => rfl
    | some x => rw [isAddress_of_entry (s := s.withTables t) e] at h; cases h
  exact ⟨by rw [hr, ht]; rfl, fun r h => by rw [hr] at h; cases h⟩

theorem ReserveFits.congr {t : Tables} {a : Nat} {s u : State} (h : u.reserve a = s.reserve a) (hs : ReserveFits t a s) :
    ReserveFits t a u := by
  unfold ReserveFits; rw [h]; exact hs

theorem RuntimeFits.congr {t : Tables} {a : Nat} {s u : State} (h : u.runtime a = s.runtime a) (hs : RuntimeFits t a s) :
    RuntimeFits t a u := by
  unfold RuntimeFits; rw [h]; exact hs

/-- The reserve of one address is that of the quiet part. -/
theorem reserve_of_quiet {s t : State} (h : t.quiet = s.quiet) (a : Nat) : t.reserve a = s.reserve a :=
  reserve_congr (congrArg Quiet.reserves h) a

theorem isSome_runtime_of_quiet {s t : State} (h : t.quiet = s.quiet) (a : Nat) :
    (t.runtime a).isSome = (s.runtime a).isSome := congrFun (congrArg Quiet.configured h) a

theorem leaveGapSet_reserve (a b : Nat) (s : State) : (leaveGapSet b s).reserve a = s.reserve a := rfl

theorem switchReserve_self (old new : Tables) (a : Nat) (ha : isAddress a = true) (s : State) (h : ReserveFits old a s) :
    ReserveFits new a (switchReserve old new a s) := by
  have same : ∀ r, (s.setReserve a r).reserve a = r := fun r => by rw [reserve_setReserve]; simp [ha]
  unfold switchReserve ReserveFits
  cases ho : old.node a with
  | none =>
    cases hn : new.node a with
    | none =>
      have hr : s.reserve a = none := by simpa [ho] using h.1
      simp [hr]
    | some e => simp [same]
  | some e0 =>
    cases hn : new.node a with
    | none => simp [leaveGapSet_reserve, same]
    | some e =>
      cases hr : s.reserve a with
      | none => simpa [ho, hr] using h.1
      | some r => simp [same]

theorem switchReserve_reserve_other (old new : Tables) {a b : Nat} (hab : a ≠ b) (s : State) :
    (switchReserve old new b s).reserve a = s.reserve a := by
  have other : ∀ r, (s.setReserve b r).reserve a = s.reserve a := fun r => by
    rw [reserve_setReserve]; simp [hab.symm]
  unfold switchReserve
  split
  · exact other _
  · exact other _
  · split
    · exact other _
    · rfl
  · rfl

theorem switchReserves_fit (old new : Tables) (s : State) (h : ∀ a, ReserveFits old a s) (a : Nat) :
    ReserveFits new a (forNodes addresses (switchReserve old new) s) := by
  cases ha : isAddress a with
  | false => exact reserveFits_outside ha
  | true =>
    refine forNodes_each (P := fun a s => isAddress a = true ∧ ReserveFits old a s)
      (Q := fun a s => ReserveFits new a s) (fun a s h => switchReserve_self old new a h.1 s h.2)
      (fun a b s hab h => ⟨h.1, h.2.congr (switchReserve_reserve_other old new hab s)⟩)
      (fun a b s hab h => h.congr (switchReserve_reserve_other old new hab s)) addresses addresses_nodup s ?_ a
      (mem_addresses ha)
    intro b hb
    have : 1 ≤ b ∧ b < 31 := by simpa [addresses] using hb
    exact ⟨isAddress_eq_true this.1 (by omega), h b⟩

/-- Which addresses have a runtime record after one address's part of the switch. -/
theorem isSome_runtime_addNode (a b : Nat) (s : State) :
    ((addNode a s).runtime b).isSome = if a = b ∧ isAddress a = true then true else (s.runtime b).isSome := by
  have hset : ((s.setRuntime a (some (freshRuntime (s.carriesStep a)))).runtime b).isSome =
      if a = b ∧ isAddress a = true then true else (s.runtime b).isSome := by
    rw [runtime_setRuntime]; split <;> rfl
  rw [← hset]
  unfold addNode
  dsimp only
  split
  · exact isSome_runtime_of_quiet ((joinGapSet_quiet _ a).trans (enterSuspect_quiet _ a _)) b
  · exact isSome_runtime_of_quiet (enterProbe_quiet _ a) b

theorem isSome_runtime_removeNode (a b : Nat) (s : State) :
    ((removeNode a s).runtime b).isSome = if a = b ∧ isAddress a = true then false else (s.runtime b).isSome := by
  unfold removeNode
  rw [runtime_setRuntime]
  split
  · rfl
  · exact isSome_runtime_of_quiet ((endSession_quiet _ a).trans (cancelStep_quiet s a)) b

theorem isSome_runtime_switchRuntime_other (old new : Tables) {a b : Nat} (hab : a ≠ b) (s : State) :
    ((switchRuntime old new b s).runtime a).isSome = (s.runtime a).isSome := by
  unfold switchRuntime
  split
  · rw [isSome_runtime_addNode, if_neg fun h => hab h.1.symm]
  · rw [isSome_runtime_removeNode, if_neg fun h => hab h.1.symm]
  · rfl

theorem isSome_runtime_switchRuntime_self (old new : Tables) {a : Nat} (ha : isAddress a = true) (s : State)
    (h : (s.runtime a).isSome = (old.node a).isSome) :
    ((switchRuntime old new a s).runtime a).isSome = (new.node a).isSome := by
  unfold switchRuntime
  cases ho : old.node a with
  | none =>
    cases hn : new.node a with
    | none => simpa [ho] using h
    | some e => simp [isSome_runtime_addNode, ha]
  | some e0 =>
    cases hn : new.node a with
    | none => simp [isSome_runtime_removeNode, ha]
    | some e => simpa [ho] using h

theorem switchRuntimes_configured (old new : Tables) (s : State)
    (h : ∀ a, (s.runtime a).isSome = (old.node a).isSome) {a : Nat} (ha : isAddress a = true) :
    ((forNodes addresses (switchRuntime old new) s).runtime a).isSome = (new.node a).isSome := by
  refine forNodes_each (P := fun a s => isAddress a = true ∧ (s.runtime a).isSome = (old.node a).isSome)
    (Q := fun a s => (s.runtime a).isSome = (new.node a).isSome)
    (fun a s h => isSome_runtime_switchRuntime_self old new h.1 s h.2)
    (fun a b s hab h => ⟨h.1, (isSome_runtime_switchRuntime_other old new hab s).trans h.2⟩)
    (fun a b s hab h => (isSome_runtime_switchRuntime_other old new hab s).trans h) addresses addresses_nodup s ?_ a
    (mem_addresses ha)
  intro b hb
  have : 1 ≤ b ∧ b < 31 := by simpa [addresses] using hb
  exact ⟨isAddress_eq_true this.1 (by omega), h b⟩

/-! ### What the whole switch keeps -/

/-- The state of a switch over the addresses `l` after the Restore Engine's part. -/
def switchedRecords (l : List Nat) (s : State) : State :=
  let new := s.responder.edit
  let s1 := (s.withTables new).withResponder { s.responder with mode := .service }
  forNodes l (switchRuntime s.tables new) (forNodes l (switchReserve s.tables new) s1)

/-- The later blocks' parts of a switch. -/
def switchBlocks (l : List Nat) (old new : Tables) (s : State) : State :=
  let s4 := forNodes l (switchPasses old new) s
  let s5 := s4.withCounters (switchCounters old new s4.counters)
  let s6 := forNodes l (switchShadow old new) s5
  switchStore (forNodes l (switchHold old new) s6)

theorem tableSwitch_eq (s : State) :
    tableSwitch s = switchBlocks addresses s.tables s.responder.edit (switchedRecords addresses s) := by
  unfold tableSwitch switchBlocks switchedRecords
  rfl

theorem switchStore_within {F : BitVec 10} {n : Nat} {p q : Bool} {s : State} (h : s.Within F n p q) :
    (switchStore s).Within F n p q := ⟨h.flags, h.queued, h.named, h.members⟩

theorem switchBlocks_within {F : BitVec 10} {n : Nat} {p q : Bool} (l : List Nat) (old new : Tables) {s : State}
    (h : s.Within F n p q) : (switchBlocks l old new s).Within F n p q := by
  have h4 := forNodes_within l (switchPasses old new) (fun a _ => switchPasses_within old new a) h
  have h5 : ∀ c, ((forNodes l (switchPasses old new) s).withCounters c).Within F n p q :=
    fun _ => ⟨h4.flags, h4.queued, h4.named, h4.members⟩
  exact switchStore_within (forNodes_within _ _ (fun a _ => switchHold_within old new a)
    (forNodes_within _ _ (fun a _ => switchShadow_within old new a) (h5 _)))

/-- The reserves, the addresses with a record, the tables and the mode. -/
def Quiet.records (q : Quiet) : PerNode (Option Reserve) × (Nat → Bool) × Tables × Mode :=
  (q.reserves, q.configured, q.tables, q.mode)

theorem switchStore_records (s : State) : (switchStore s).quiet.records = s.quiet.records := rfl

theorem switchStore_kept (s : State) : (switchStore s).kept = s.kept := rfl

theorem records_switchPasses (old new : Tables) (a : Nat) (s : State) :
    (switchPasses old new a s).quiet.records = s.quiet.records := by
  have hf : (forgetDestination a s).quiet.records = s.quiet.records := by
    obtain ⟨l, h, -⟩ := forgetDestination_cases a s
    rw [h]; rfl
  unfold switchPasses
  split
  · rw [returnPasses_quiet, hf]
  · rw [dropLive_quiet, hf]
  · rfl

/-- The Shadow Store's and the Hold Pool's parts leave the quiet part alone. -/
theorem switchShadowHold_quiet (l : List Nat) (old new : Tables) (s : State) :
    (forNodes l (switchHold old new) (forNodes l (switchShadow old new) s)).quiet = s.quiet :=
  (forNodes_quiet l _ (fun a s => switchHold_quiet s old new a) _).trans
    (forNodes_quiet l _ (fun a s => switchShadow_quiet s old new a) s)

theorem withCounters_records (s : State) (c : ClassifierCounters) : (s.withCounters c).quiet.records = s.quiet.records := rfl

theorem switchBlocks_records (l : List Nat) (old new : Tables) (s : State) :
    (switchBlocks l old new s).quiet.records = s.quiet.records := by
  unfold switchBlocks
  dsimp only
  rw [switchStore_records, switchShadowHold_quiet, withCounters_records]
  exact forNodes_same (fun t => t.quiet.records) (records_switchPasses old new) l s

/-- A switch keeps what it does not name; the Classifier's counters are its own. -/
theorem switchBlocks_kept (l : List Nat) (old new : Tables) (s : State) :
    ∃ c, (switchBlocks l old new s).kept = ({ s.kept.1 with counters := c }, s.kept.2) := by
  have h4 := forNodes_same State.kept (switchPasses_kept old new) l s
  refine ⟨switchCounters old new (forNodes l (switchPasses old new) s).counters, ?_⟩
  unfold switchBlocks
  dsimp only
  rw [switchStore_kept, kept_of_quiet (switchShadowHold_quiet l old new _), ← h4]
  rfl

theorem switchedRecords_kept (l : List Nat) (s : State) : (switchedRecords l s).kept = s.kept := by
  unfold switchedRecords
  dsimp only
  rw [forNodes_same State.kept (switchRuntime_kept _ _), forNodes_same State.kept (switchReserve_kept _ _)]
  rfl

/-- What every command but a reset keeps of the kept part. -/
theorem tableSwitch_kept (s : State) : ∃ c, (tableSwitch s).kept = ({ s.kept.1 with counters := c }, s.kept.2) := by
  rw [tableSwitch_eq, ← switchedRecords_kept addresses s]
  exact switchBlocks_kept addresses _ _ _

theorem switchedRecords_within {F : BitVec 10} {n : Nat} {p q : Bool} (l : List Nat) {s : State} (h : s.Within F n p q) :
    (switchedRecords l s).Within F n p q :=
  forNodes_within l _ (fun a _ => switchRuntime_within _ _ a)
    (forNodes_within l _ (fun a _ => switchReserve_within _ _ a) ⟨h.flags, h.queued, h.named, h.members⟩)

theorem tableSwitch_within {F : BitVec 10} {n : Nat} {p q : Bool} {s : State} (h : s.Within F n p q) :
    (tableSwitch s).Within F n p q := by
  rw [tableSwitch_eq]
  exact switchBlocks_within addresses _ _ (switchedRecords_within addresses h)

/-- The Restore Engine's part of a switch leaves the tables and the reserves alone. -/
theorem switchRuntime_gap (old new : Tables) (a : Nat) (s : State) :
    ((switchRuntime old new a s).tables, (switchRuntime old new a s).responder.mode, (switchRuntime old new a s).gap.reserves)
      = (s.tables, s.responder.mode, s.gap.reserves) := by
  have of_quiet : ∀ {t u : State}, t.quiet = u.quiet →
      (t.tables, t.responder.mode, t.gap.reserves) = (u.tables, u.responder.mode, u.gap.reserves) :=
    fun h => Prod.ext (congrArg Quiet.tables h) (Prod.ext (congrArg Quiet.mode h) (congrArg Quiet.reserves h))
  unfold switchRuntime
  split
  · unfold addNode
    dsimp only
    split
    · rw [of_quiet ((joinGapSet_quiet _ a).trans (enterSuspect_quiet _ a _))]; rfl
    · rw [of_quiet (enterProbe_quiet _ a)]; rfl
  · have h := of_quiet ((endSession_quiet _ a).trans (cancelStep_quiet s a))
    exact h
  · rfl

theorem switchReserve_tables (old new : Tables) (a : Nat) (s : State) :
    ((switchReserve old new a s).tables, (switchReserve old new a s).responder, (switchReserve old new a s).restore)
      = (s.tables, s.responder, s.restore) := by
  unfold switchReserve leaveGapSet State.setReserve
  split
  · rfl
  · rfl
  · split <;> rfl
  · rfl

/-- A walk over the configured addresses leaves each with the records that the new tables ask for. -/
theorem switchedRecords_tables (l : List Nat) (s : State) :
    (switchedRecords l s).tables = s.responder.edit ∧ (switchedRecords l s).responder.mode = .service := by
  have h2 := forNodes_same (fun u => (u.tables, u.responder.mode, u.gap.reserves)) (switchRuntime_gap s.tables s.responder.edit) l
  have h1 := forNodes_same (fun u => (u.tables, u.responder, u.restore)) (switchReserve_tables s.tables s.responder.edit) l
  simp only [Prod.mk.injEq] at h1 h2
  obtain ⟨htables, hmode, -⟩ := h2 (forNodes l (switchReserve s.tables s.responder.edit)
    ((s.withTables s.responder.edit).withResponder { s.responder with mode := .service }))
  obtain ⟨htables1, hresponder1, -⟩ := h1 ((s.withTables s.responder.edit).withResponder { s.responder with mode := .service })
  exact ⟨htables.trans htables1, hmode.trans (by rw [hresponder1]; rfl)⟩

theorem tableSwitch_tables (s : State) :
    (tableSwitch s).tables = s.responder.edit ∧ (tableSwitch s).responder.mode = .service := by
  have h := switchBlocks_records addresses s.tables s.responder.edit (switchedRecords addresses s)
  rw [← tableSwitch_eq] at h
  simp only [Quiet.records, Prod.mk.injEq] at h
  obtain ⟨htables, hmode⟩ := switchedRecords_tables addresses s
  obtain ⟨-, -, ht, hm⟩ := h
  exact ⟨ht.trans htables, hm.trans hmode⟩

theorem tableSwitch_reservesSound (s : State) (h : s.ReservesSound) : (tableSwitch s).ReservesSound := by
  rw [reservesSound_iff] at h ⊢
  obtain ⟨htables, -⟩ := tableSwitch_tables s
  have hrec := switchBlocks_records addresses s.tables s.responder.edit (switchedRecords addresses s)
  rw [← tableSwitch_eq] at hrec
  have hres : (tableSwitch s).gap.reserves = (switchedRecords addresses s).gap.reserves := congrArg Prod.fst hrec
  have hwalk : ∀ u, (forNodes addresses (switchRuntime s.tables s.responder.edit) u).gap.reserves = u.gap.reserves :=
    forNodes_same (fun u => u.gap.reserves) (fun a u => congrArg (fun x => x.2.2) (switchRuntime_gap _ _ a u)) addresses
  intro a
  rw [htables]
  refine ReserveFits.congr (reserve_congr (hres.trans (hwalk _)) a) (switchReserves_fit s.tables s.responder.edit _ ?_ a)
  exact fun b => (h b).congr rfl

theorem tableSwitch_runtimesSound (s : State) (h : s.RuntimesSound) : (tableSwitch s).RuntimesSound := by
  rw [runtimesSound_iff] at h ⊢
  obtain ⟨htables, -⟩ := tableSwitch_tables s
  have hrec := switchBlocks_records addresses s.tables s.responder.edit (switchedRecords addresses s)
  rw [← tableSwitch_eq] at hrec
  have hconf : (fun a => ((tableSwitch s).runtime a).isSome) = fun a => ((switchedRecords addresses s).runtime a).isSome :=
    congrArg (fun x => x.2.1) hrec
  have hwalk : ∀ u, (forNodes addresses (switchReserve s.tables s.responder.edit) u).restore = u.restore :=
    forNodes_same State.restore (fun a u => congrArg (fun x => x.2.2) (switchReserve_tables _ _ a u)) addresses
  intro a
  rw [htables]
  cases ha : isAddress a with
  | false => exact runtimeFits_outside ha
  | true =>
    refine ⟨(congrFun hconf a).trans (switchRuntimes_configured s.tables s.responder.edit _ (fun b => ?_) ha), ?_⟩
    · unfold State.runtime
      rw [hwalk]
      exact (h b).1
    · exact (tableSwitch_within (s := s) (F := 0) (n := s.queued) (p := true) (q := false)
        ⟨by simp, Nat.le_refl _, fun _ b => (h b).2, nofun⟩).named rfl a

theorem allowed_tableSwitch (s : State) : Allowed (commandChange .setMode) s (tableSwitch s) := by
  obtain ⟨c, hkept⟩ := tableSwitch_kept s
  have hq : (tableSwitch s).quiet.unswitched = { s.quiet.unswitched with counters := c } := congrArg Prod.fst hkept
  have hp : (tableSwitch s).passInFlight = s.passInFlight := congrArg Prod.snd hkept
  have hw := fun F n p q => tableSwitch_within (s := s) (F := F) (n := n) (p := p) (q := q)
  have hblocks : (tableSwitch s).store.blocks = s.store.blocks := congrArg Quiet.blocks hq
  have hingress : (tableSwitch s).trunk.ingress = s.trunk.ingress := congrArg Quiet.ingress hq
  refine ⟨congrArg Quiet.straps hq, congrArg Quiet.clock hq, fun x h => ?_, fun _ F h => ?_, nofun, fun _ => nofun,
    fun _ => hblocks, ?_, ?_, passesSound_of ?_, tableSwitch_reservesSound s, tableSwitch_runtimesSound s, fun h => ?_⟩
  · rw [← h]; exact congrArg Quiet.identity hq
  · exact (hw F s.queued false false ⟨h, Nat.le_refl _, nofun, nofun⟩).flags
  · unfold State.BlocksSound ImageStore.wf; rw [hblocks]; exact id
  · unfold State.IngressSound; rw [hingress]; exact id
  · rw [hp]
    exact Nat.add_le_add_right (hw 0 s.queued false false ⟨by simp, Nat.le_refl _, nofun, nofun⟩).queued _
  · exact (hw 0 s.queued false true ⟨by simp, Nat.le_refl _, nofun, fun _ => h⟩).members rfl

theorem allowed_actSetMode (q : Request) (s : State) : Allowed (commandChange .setMode) s (actSetMode q s) := by
  unfold actSetMode
  split
  · exact allowed_done q _ ⟨rfl, rfl, fun _ h => h, fun _ _ h => h, nofun, fun _ => nofun, fun _ => rfl, id, id, id, id, id, id⟩
  · split
    · exact allowed_read _ q _ s
    · unfold enterService
      split
      · exact allowed_answerRequest _ _ _ _ s
      · exact allowed_done q _ (allowed_tableSwitch s)
  · exact allowed_invalid _ q s

/-- What every command but the two resets keeps. -/
theorem allowed_exec_of_not_reset {c : Instr} {s t : State} (hreset : isReset c = false) (h : exec c s = .next t) :
    Allowed (commandChange c) s t := by
  by_cases hmode : c = .setMode
  · subst hmode
    exact allowed_happens h fun u => allowed_takeRequest allowed_actSetMode
  · exact allowed_exec hreset hmode h

/-! ### The two resets -/

/-- A vector made from the node entries holds, for each node address, what is made of its entry. -/
theorem atNode_ofFn {α : Type} (t : Tables) (x : α) (a : Nat) :
    (atNode (Vector.ofFn fun i : Fin 30 => (t.nodes[i]).map fun _ => x) a).join = (t.node a).map fun _ => x := by
  unfold Tables.node atNode
  by_cases h0 : a = 0
  · simp [h0]
  · rw [if_neg h0, if_neg h0]
    by_cases hlt : a - 1 < 30
    · simp [hlt]
    · simp [hlt]

theorem restart_reserve (straps : Straps) (gapHigh : Bool) (s : State) (a : Nat) :
    (restart straps gapHigh s).reserve a =
      ((restart straps gapHigh s).entry a).map fun _ => { estimate := 0, origin := 0, aged := false } :=
  atNode_ofFn _ _ a

theorem restart_runtime (straps : Straps) (gapHigh : Bool) (s : State) (a : Nat) :
    (restart straps gapHigh s).runtime a =
      ((restart straps gapHigh s).entry a).map fun _ => { freshRuntime false with step := .ready .probe } :=
  atNode_ofFn _ _ a

theorem restart_reservesSound (straps : Straps) (gapHigh : Bool) (s : State) :
    (restart straps gapHigh s).ReservesSound := by
  refine ⟨fun a => by rw [restart_reserve, Option.isSome_map], fun a r e hr he => ?_⟩
  rw [restart_reserve, he] at hr
  cases hr
  exact Nat.zero_le _

theorem restart_runtimesSound (straps : Straps) (gapHigh : Bool) (s : State) :
    (restart straps gapHigh s).RuntimesSound := by
  refine ⟨fun a => by rw [restart_runtime, Option.isSome_map], fun a r hr => ?_⟩
  rw [restart_runtime] at hr
  obtain ⟨e, -, rfl⟩ := Option.map_eq_some_iff.mp hr
  exact NodeState.noConfusion

theorem restart_blocksSound (straps : Straps) (gapHigh : Bool) (s : State) (h : s.BlocksSound) :
    (restart straps gapHigh s).BlocksSound := by
  have hcut : blocksCanonical (cutProgram s) = true := by
    unfold cutProgram
    split
    · exact (writeBlock_canonical _ _ _ h).1
    · exact h
  exact hcut

theorem allowed_firstSample (k : Change) (s : State) : Allowed k s (firstSample s) := by
  unfold firstSample
  exact allowed_ite (allowed_ite (allowed_confirmGapStart k 0 s) (allowed_setCondition k s _)) (.refl k s)

theorem exec_reset_eq {c : Instr} (h : isReset c = true) (s : State) :
    ∃ straps gapHigh, exec c s = .next (endCommand (firstSample (restart straps gapHigh s))) := by
  cases c with
  | powerOn straps gapHigh => exact ⟨straps, gapHigh, rfl⟩
  | reset straps gapHigh => exact ⟨straps, gapHigh, rfl⟩
  | _ => exact nomatch h

/-! ### Every step -/

theorem tick_allowed_parts (s : State) :
    (s.BlocksSound → (tick s).BlocksSound) ∧ (s.IngressSound → (tick s).IngressSound)
      ∧ (s.PassesSound → (tick s).PassesSound) ∧ (s.ReservesSound → (tick s).ReservesSound)
      ∧ (s.RuntimesSound → (tick s).RuntimesSound) ∧ (s.GapSetSound → (tick s).GapSetSound) :=
  ⟨id, id, id, id, id, id⟩

/-- The soundness of blocks, ingress, passes and of the nodes' records is kept by every step. -/
theorem step_keeps {s t : State} (h : step s = .next t) :
    (s.BlocksSound → t.BlocksSound) ∧ (s.IngressSound → t.IngressSound) ∧ (s.PassesSound → t.PassesSound)
      ∧ (s.ReservesSound → t.ReservesSound) ∧ (s.RuntimesSound → t.RuntimesSound) ∧ (s.GapSetSound → t.GapSetSound) := by
  unfold step at h
  split at h
  · cases h; exact tick_allowed_parts s
  · next c rest _ =>
    cases hreset : isReset c with
    | false =>
      have ha := allowed_exec_of_not_reset hreset h
      exact ⟨ha.canonical, ha.ingress, ha.passes, ha.reserves, ha.runtimes, ha.members⟩
    | true =>
      obtain ⟨straps, gapHigh, he⟩ := exec_reset_eq hreset (s.withPending rest)
      rw [he] at h
      cases h
      have ha := (allowed_firstSample {} (restart straps gapHigh (s.withPending rest))).trans (allowed_endCommand {} _)
      exact ⟨fun hs => ha.canonical (restart_blocksSound straps gapHigh _ hs), fun _ => ha.ingress (Nat.zero_le _),
        fun _ => ha.passes (Nat.zero_le _), fun _ => ha.reserves (restart_reservesSound straps gapHigh _),
        fun _ => ha.runtimes (restart_runtimesSound straps gapHigh _), fun _ => ha.members List.nodup_nil⟩

/-- Settles O4: the first three parts of `step_keeps`. -/
theorem stepKeepsBlockArrayIngressAndPassQueueSound : Obligations.StepKeepsBlockArrayIngressAndPassQueueSound := by
  intro s t h
  obtain ⟨hblocks, hingress, hpasses, -⟩ := step_keeps h
  exact ⟨hblocks, hingress, hpasses⟩

/-- Settles O6: the last three parts of `step_keeps`. -/
theorem stepKeepsNodeRecordsAndGapSet : Obligations.StepKeepsNodeRecordsAndGapSet := by
  intro s t h
  obtain ⟨-, -, -, hreserves, hruntimes, hmembers⟩ := step_keeps h
  exact ⟨hreserves, hruntimes, hmembers⟩

/-- A flag is one bit of the flag word. -/
theorem flagSet_iff (s : State) (f : Flag) :
    s.flagSet f = true ↔ s.responder.flags &&& BitVec.twoPow 10 f.code = BitVec.twoPow 10 f.code := by
  have hcode : f.code < 10 := by cases f <;> decide
  unfold State.flagSet
  rw [BitVec.and_twoPow]
  constructor
  · intro h; rw [h]; rfl
  · intro h
    by_contra hc
    rw [if_neg (by simpa using hc)] at h
    have hbit := congrArg (fun v => BitVec.getLsbD v f.code) h
    simp [hcode] at hbit

/-- Settles O8: each part is a field of `Allowed`, for the change that the command may make. -/
theorem keptStateChangesOnlyWhereNamed : Obligations.KeptStateChangesOnlyWhereNamed := by
  intro c s t hreset h
  have ha := allowed_exec_of_not_reset hreset h
  refine ⟨ha.identity, fun hc f hf => ?_, fun hc => ?_, ha.clock, ha.straps, fun hc => ha.blocks ?_⟩
  · have hk : (commandChange c).flags = false := by
      cases c with
      | clearFlags => exact absurd rfl hc
      | _ => rfl
    rw [flagSet_iff] at hf ⊢
    exact ha.flags hk _ hf
  · have hk : (commandChange c).tables = false := by
      cases c with
      | setMode => exact absurd rfl hc
      | _ => rfl
    obtain ⟨htables, hmode⟩ := ha.tables hk
    refine ⟨htables, hmode, fun h1 h2 h3 h4 h5 h6 => ha.edit ?_ hk⟩
    cases c with
    | writeRule => exact absurd rfl h1
    | writeDefault => exact absurd rfl h2
    | writeSet => exact absurd rfl h3
    | writeNode => exact absurd rfl h4
    | writeConfigRecord => exact absurd rfl h5
    | writeParameters => exact absurd rfl h6
    | _ => rfl
  · cases c with
    | blockProgramEnd b => exact absurd rfl (hc b)
    | _ => rfl

/-- Settles O1: the queue's two forms. -/
theorem stepRunsFrontCommandOrIdles : Obligations.StepRunsFrontCommandOrIdles := by
  refine ⟨fun c rest s h => ?_, fun s h => ?_⟩
  · unfold step
    split
    · next hnil => rw [hnil] at h; cases h
    · next hcons => rw [hcons] at h; cases h; rfl
  · unfold step
    split
    · rfl
    · next hcons => rw [hcons] at h; cases h

/-! ### The state right after reset -/

theorem atNode_replicate {α : Type} (x : α) (a : Nat) :
    atNode (Vector.replicate 30 x) a = if isAddress a = true then some x else none := by
  unfold atNode isAddress
  by_cases h0 : a = 0
  · simp [h0]
  · by_cases hlt : a - 1 < 30
    · have : 1 ≤ a ∧ a ≤ 30 := by omega
      simp [h0, hlt, this]
    · have : ¬ (1 ≤ a ∧ a ≤ 30) := by omega
      simp [h0, hlt, this]

theorem reset_runtime (a : Nat) : State.reset.runtime a = none := by
  show (atNode (Vector.replicate 30 (none : Option Runtime)) a).join = none
  rw [atNode_replicate]; split <;> rfl

theorem reset_entry (a : Nat) : State.reset.entry a = none := by
  show (atNode (Vector.replicate 30 (none : Option NodeEntry)) a).join = none
  rw [atNode_replicate]; split <;> rfl

theorem reset_reserve (a : Nat) : State.reset.reserve a = none := by
  show (atNode (Vector.replicate 30 (none : Option Reserve)) a).join = none
  rw [atNode_replicate]; split <;> rfl

theorem reset_queue (a : Nat) : State.reset.queue a = [] := by
  show (atNode (Vector.replicate 30 ([] : List HoldEntry)) a).getD [] = []
  rw [atNode_replicate]; split <;> rfl

theorem reset_replayList (a : Nat) : State.reset.replayList a = [] := by
  show (atNode (Vector.replicate 30 ([] : List Nat)) a).getD [] = []
  rw [atNode_replicate]; split <;> rfl

theorem reset_slot (i : Nat) : State.reset.slot i = none := by
  show ((Vector.replicate 96 (none : Option ShadowRecord))[i]?).join = none
  rw [Vector.getElem?_replicate]; split <;> rfl

theorem reset_place (i : Nat) : State.reset.place i = none := by
  show ((Vector.replicate 12 (none : Option CatalogueEntry))[i]?).join = none
  rw [Vector.getElem?_replicate]; split <;> rfl

theorem reset_buffer (b : Nat) : State.reset.restore.buffers[b]? = if b < 4 then some .free else none :=
  Vector.getElem?_replicate

theorem reset_session (a : Nat) : State.reset.session a = none := by
  unfold State.session; rw [reset_runtime]; rfl

theorem reset_nodeState (a : Nat) : State.reset.nodeState a = .unconfigured := by
  unfold State.nodeState; rw [reset_runtime]

theorem reset_flags (f : Flag) :
    State.reset.flagSet f = true ↔ f = .tablesInvalid ∨ f = .directoryInvalid := by
  cases f <;> decide

theorem reset_queueLengths : (addresses.map fun a => (State.reset.queue a).length).sum = 0 :=
  List.sum_eq_zero fun n hn => by
    obtain ⟨a, -, rfl⟩ := List.mem_map.mp hn
    rw [reset_queue]; rfl

/-- Settles O2: the blocks of `State.reset`, one after another. -/
theorem resetLeavesEveryBlockAtStart : Obligations.ResetLeavesEveryBlockAtStart := by
  refine ⟨rfl, rfl, rfl, rfl, rfl, rfl, by decide +kernel, rfl, rfl, rfl, rfl, rfl, rfl, rfl, rfl, reset_flags,
    fun a => ⟨reset_nodeState a, reset_queue a, reset_replayList a, reset_reserve a⟩,
    fun i => ⟨reset_slot i, reset_place i⟩, ?_, rfl, fun b hb => ?_, rfl, rfl, rfl, rfl, rfl, rfl, rfl, rfl, rfl, rfl⟩
  · unfold State.holdFree; rw [reset_queueLengths]
  · rw [reset_buffer, if_pos hb]

theorem reset_holdSound : State.reset.HoldSound :=
  ⟨fun a => by rw [reset_queue]; exact Nat.zero_le _, by rw [reset_queueLengths]; exact Nat.zero_le _,
    fun a _ => reset_queue a⟩

theorem reset_shadowSound : State.reset.ShadowSound := by
  refine ⟨by decide +kernel, fun a => ⟨by rw [reset_replayList]; exact List.nodup_nil, fun i => ?_⟩, fun i r h => ?_,
    fun i r h => ?_⟩
  · simp [reset_replayList, reset_slot]
  · rw [reset_slot] at h; cases h
  · rw [reset_slot] at h; cases h

theorem reset_runtimesSound : State.reset.RuntimesSound :=
  ⟨fun a => by rw [reset_runtime, reset_entry]; rfl, fun a r h => by rw [reset_runtime] at h; cases h⟩

theorem reset_buffersSound : State.reset.BuffersSound := by
  refine ⟨List.nodup_nil, fun h => absurd rfl h, fun a => ?_, fun a x h => ?_, fun b a h => ?_⟩
  · rw [reset_session]
    exact ⟨fun h => absurd h List.not_mem_nil, fun ⟨x, h, _⟩ => nomatch h⟩
  · rw [reset_session] at h; cases h
  · rw [reset_buffer] at h
    rcases h with h | ⟨data, h⟩ <;> (split at h <;> cases h)

theorem reset_readsSound : State.reset.ReadsSound := by
  refine ⟨List.nodup_nil, fun b => ⟨fun h => absurd h List.not_mem_nil, fun h => ?_⟩⟩
  rw [reset_buffer] at h
  rcases h with ⟨a, h⟩ | h <;> (split at h <;> cases h)

theorem reset_readersSound : State.reset.ReadersSound := by
  refine ⟨fun i => ?_, fun i e h => reset_place i⟩
  simp [reset_place, reset_session]

/-- Settles O3: no node is configured and nothing is held, stored or read. -/
theorem resetStateIsSound : Obligations.ResetStateIsSound :=
  ⟨reset_store_wf, Nat.zero_le _, Nat.zero_le _,
    ⟨fun a => by rw [reset_reserve, reset_entry]; rfl, fun a r e h => by rw [reset_reserve] at h; cases h⟩,
    reset_runtimesSound, List.nodup_nil, reset_holdSound, reset_shadowSound,
    reset_runtimesSound, fun a r h => (by rw [reset_runtime] at h; cases h), reset_buffersSound, reset_readsSound,
    reset_readersSound⟩

end Sys2Proof.Machine
end

section
/-! SUPPORT. The management requests that only read, or write one value: how each is judged and answered (R11, R12, R14, R94,
R182, R183, R185 to R188, R190, R192 to R194). -/

namespace Sys2Proof.Machine

/-- Commands that end alike have the same outcome. -/
theorem took_congr {u v : State} (h : u = v) : took u = took v := congrArg took h

/-! ### The take (R94, R182, R183) -/

theorem takeHead_of_full {s : State} (h : s.freeEntry = none) : s.takeHead = none := by
  unfold State.takeHead
  cases s.trunk.ingress with
  | nil => rfl
  | cons f rest => dsimp only; rw [h]

/-- Each known request has its own command and its own rule. -/
theorem exec_command (k : RequestCode) : ∃ act, ∀ s, exec k.command s = happens (takeRequest k act s) s := by
  cases k <;> exact ⟨_, fun _ => rfl⟩

theorem freeEntry_eq_none_iff (s : State) : s.freeEntry = none ↔ ∀ i, i < 24 → s.trunk.egress[i]? ≠ some .free := by
  simp [State.freeEntry, List.find?_eq_none]

/-- Settles O16: every take goes through `takeHead`, which needs the lowest FREE entry. -/
theorem takeNeedsFreeEgressEntry : Obligations.TakeNeedsFreeEgressEntry := by
  intro s
  refine ⟨fun i h => freeEntry_eq_some h, freeEntry_eq_none_iff s, fun h => ?_⟩
  have htake := takeHead_of_full h
  have hsegment : segmentRequest s = none := by unfold segmentRequest; rw [htake]
  have hunknown : unknownRequest s = none := by unfold unknownRequest; rw [htake]
  have hother : nonRequestFrame s = none := by unfold nonRequestFrame; rw [htake]
  refine ⟨?_, ?_, ?_, fun k => ?_⟩
  · exact congrArg (fun r => happens r s) hsegment
  · exact congrArg (fun r => happens r s) hunknown
  · exact congrArg (fun r => happens r s) hother
  · obtain ⟨act, hact⟩ := exec_command k
    have hnone : takeRequest k act s = none := by unfold takeRequest; rw [htake]
    rw [hact, hnone]
    rfl

theorem ofCode_eq_none {c : Byte} (h : ∀ k : RequestCode, k.code ≠ c) : RequestCode.ofCode c = none :=
  List.find?_eq_none.mpr fun k _ => by simpa using h k

section
variable {s : State} {k : RequestCode} {tag : Word16} {outcome : Byte} {args : List Byte} {rest : List TrunkFrame} {i : Nat}
  {f : TrunkFrame}

theorem State.Heads.exec_nonRequestFrame (h : s.Heads f rest i) (h1 : f.kind ≠ 0x01) (h2 : f.kind ≠ 0x02) :
    exec .nonRequestFrame s =
      .next (endCommand (s.answered rest i { kind := 0x42, tag := f.tag, outcome := 0x0C, body := [] })) := by
  have hnot : ¬ (f.kind = managementRequestKind ∨ f.kind = segmentRequestKind) := by
    rintro (hk | hk)
    · exact h2 hk
    · exact h1 hk
  have hframe : nonRequestFrame s = some ((s.reserved rest i).enqueue i (managementAnswer f.tag .malformed [])) := by
    unfold nonRequestFrame
    rw [h.take]
    exact if_neg hnot
  show happens (nonRequestFrame s) s = _
  rw [hframe, State.reserved_enqueue]
  rfl

theorem State.Heads.exec_unknownRequest_empty (h : s.Heads f rest i) (hk : f.kind = 0x02) (hb : f.body = []) :
    exec .unknownRequest s =
      .next (endCommand (s.answered rest i { kind := 0x42, tag := f.tag, outcome := 0x0C, body := [] })) := by
  have hframe : unknownRequest s = some ((s.reserved rest i).enqueue i (managementAnswer f.tag .malformed [])) := by
    unfold unknownRequest
    rw [h.take]
    dsimp only
    rw [hb]
    exact if_pos hk
  show happens (unknownRequest s) s = _
  rw [hframe, State.reserved_enqueue]
  rfl

theorem State.Heads.exec_unknownRequest (h : s.Heads f rest i) {c : Byte} (hk : f.kind = 0x02) (hb : f.body = c :: args)
    (hc : ∀ k : RequestCode, k.code ≠ c) :
    exec .unknownRequest s =
      .next (endCommand (s.answered rest i
        { kind := 0x42, tag := f.tag, outcome := if f.outcome = 0 then 0x39 else 0x0C, body := [c] })) := by
  have hframe : unknownRequest s =
      some (answerRequest { tag := f.tag, reservation := i, code := c }
        (if f.outcome = 0 then .unknownRequest else .malformed) [] (s.reserved rest i)) := by
    unfold unknownRequest
    rw [h.take]
    dsimp only
    rw [hb]
    refine (if_pos hk).trans ?_
    dsimp only
    rw [ofCode_eq_none hc]
    rfl
  show happens (unknownRequest s) s = _
  rw [hframe, answerRequest, State.reserved_enqueue]
  split <;> rfl

/-- A request of a known code is judged by its command (R183). -/
theorem State.HeadsRequest.exec_command (h : s.HeadsRequest k tag outcome args rest i) :
    ∃ act, exec k.command s =
      .next (endCommand
        (judgeRequest k act { tag := tag, reservation := i, code := k.code } outcome args (s.reserved rest i))) := by
  obtain ⟨act, hact⟩ := Machine.exec_command k
  refine ⟨act, ?_⟩
  rw [hact, h.take]
  rfl

end

/-- Settles O22: a frame without a known request by its kind and body, a known one by the order of `judgeRequest`. -/
theorem framesAndRequestsAreJudgedInOrder : Obligations.FramesAndRequestsAreJudgedInOrder := by
  refine ⟨fun s f rest i h => ⟨h.exec_nonRequestFrame, h.exec_unknownRequest_empty, fun c args hk hb hc ho => ?_,
    fun c args hk hb hc ho => ?_⟩, fun k s tag outcome args rest i h => ?_⟩
  · dsimp only
    rw [h.exec_unknownRequest hk hb hc, if_pos ho]
  · dsimp only
    rw [h.exec_unknownRequest hk hb hc, if_neg ho]
  intro answer fits
  obtain ⟨act, hact⟩ := h.exec_command
  have hanswer : ∀ c, judgeRequest k act { tag := tag, reservation := i, code := k.code } outcome args (s.reserved rest i) =
      answerRequest { tag := tag, reservation := i, code := k.code } c [] (s.reserved rest i) → answer c := by
    intro c hc
    show exec k.command s = _
    rw [hact, hc, answerRequest, State.reserved_enqueue]
    rfl
  have hmalformed : fits → ¬ (outcome ≠ 0 ∨ argumentsFit k args = false) := by
    rintro ⟨ho, ha⟩ (h | h)
    · exact h ho
    · rw [ha] at h; cases h
  refine ⟨fun hf => hanswer _ (if_pos ?_), fun hf hmode hk => hanswer _ ?_, fun hf hpending hk => hanswer _ ?_⟩
  · by_cases ho : outcome = 0
    · exact .inr (by simpa [fits, ho] using hf)
    · exact .inl ho
  · have hdepot : depotOnly k = true := by
      simp only [List.mem_cons, List.not_mem_nil, or_false] at hk
      rcases hk with rfl | rfl | rfl | rfl | rfl | rfl | rfl | rfl | rfl | rfl | rfl <;> rfl
    unfold judgeRequest
    rw [if_neg (hmalformed hf)]
    exact if_pos ⟨hdepot, hmode⟩
  · have hk' : depotOnly k = false ∧ busyInRestart k = true := by
      simp only [List.mem_cons, List.not_mem_nil, or_false] at hk
      rcases hk with rfl | rfl <;> exact ⟨rfl, rfl⟩
    unfold judgeRequest
    rw [if_neg (hmalformed hf), if_neg (by rw [hk'.1]; exact fun h => nomatch h.1)]
    exact if_pos ⟨hk'.2, hpending⟩

/-! ### Counters (R106, R185) -/

section
variable {s : State} {tag : Word16} {rest : List TrunkFrame} {i : Nat} {x b : Byte}

theorem actReadCounters_bad {q : Request} (s : State)
    (h : (q.arg 0 = 0 ∧ q.arg 1 ≠ 0) ∨ (q.arg 0 = 2 ∧ 48 ≤ q.arg 1 ∧ q.arg 1 ≠ 255) ∨ 2 < q.arg 0) :
    actReadCounters q s = invalid q s := by
  unfold actReadCounters
  dsimp only
  split
  · next h0 => exact if_neg (by omega)
  · next h1 => omega
  · next h2 =>
    have hnone : s.ruleCounters (q.arg 1) = none := by
      unfold State.ruleCounters
      rw [if_neg (by omega), Vector.getElem?_eq_none (by omega)]
    rw [hnone]
  · rfl

theorem actClearCounters_bad {q : Request} (s : State)
    (h : (q.arg 0 = 0 ∧ q.arg 1 ≠ 0) ∨ (q.arg 0 = 2 ∧ 48 ≤ q.arg 1 ∧ q.arg 1 ≠ 255) ∨ 2 < q.arg 0) :
    actClearCounters q s = invalid q s := by
  unfold actClearCounters
  dsimp only
  split
  · next h0 => exact if_neg (by omega)
  · next h1 => omega
  · next h2 => exact if_neg (by omega)
  · rfl

/-- The two arguments of a counters request name no counter. -/
theorem counters_bad {k : RequestCode}
    (h : (x = 0 ∧ b ≠ 0) ∨ (x = 2 ∧ 48 ≤ b.toNat ∧ b.toNat ≠ 255) ∨ 2 < x.toNat) :
    let q := asked k tag [x, b] i
    (q.arg 0 = 0 ∧ q.arg 1 ≠ 0) ∨ (q.arg 0 = 2 ∧ 48 ≤ q.arg 1 ∧ q.arg 1 ≠ 255) ∨ 2 < q.arg 0 := by
  rcases h with ⟨rfl, hb⟩ | ⟨rfl, hb⟩ | hx
  · exact .inl ⟨rfl, fun h => hb (BitVec.eq_of_toNat_eq h)⟩
  · exact .inr (.inl ⟨rfl, hb⟩)
  · exact .inr (.inr hx)

theorem State.Asks.exec_readCounters (h : s.Asks .readCounters tag [x, b] rest i) :
    exec .readCounters s =
      .next (endCommand (actReadCounters (asked .readCounters tag [x, b] i) (s.reserved rest i))) :=
  h.runs_act (act := actReadCounters) rfl nofun rfl

theorem State.Asks.exec_clearCounters (h : s.Asks .clearCounters tag [x, b] rest i) :
    exec .clearCounters s =
      .next (endCommand (actClearCounters (asked .clearCounters tag [x, b] i) (s.reserved rest i))) :=
  h.runs_act (act := actClearCounters) rfl nofun rfl

end

/-- Settles O25: the subject decides, then the index. -/
theorem globalAndRuleCounters : Obligations.GlobalAndRuleCounters := by
  intro s tag rest i subject b k read clear bad
  refine ⟨fun h => ⟨fun hbad => ?_, ?_, ?_, ?_⟩, fun h => ⟨fun hbad => ?_, ?_, ?_, ?_⟩⟩
  · show exec _ _ = _
    rw [h.exec_readCounters, actReadCounters_bad _ (counters_bad hbad), invalid_asked]
  · rintro rfl rfl
    show exec _ _ = _
    rw [h.exec_readCounters]
    exact took_congr (done_asked s _)
  · rintro c rfl hc
    have hrule : (s.reserved rest i).ruleCounters k = some c := by
      unfold State.ruleCounters
      have hlt : k < 48 := by
        by_contra hge
        rw [Vector.getElem?_eq_none (by omega)] at hc
        cases hc
      rw [if_neg (by omega)]
      exact hc
    have hact : actReadCounters (asked .readCounters tag [2, b] i) (s.reserved rest i) =
        done (asked .readCounters tag [2, b] i) c.bytesOf (s.reserved rest i) := by
      show (match (s.reserved rest i).ruleCounters k with | some c => _ | none => _) = _
      rw [hrule]
    show exec _ _ = _
    rw [h.exec_readCounters, hact, done_asked]
    rfl
  · rintro rfl hk
    have hact : actReadCounters (asked .readCounters tag [2, b] i) (s.reserved rest i) =
        done (asked .readCounters tag [2, b] i) s.counters.defaultRule.bytesOf (s.reserved rest i) := by
      have hrule : (s.reserved rest i).ruleCounters k = some s.counters.defaultRule := if_pos hk
      show (match (s.reserved rest i).ruleCounters k with | some c => _ | none => _) = _
      rw [hrule]
    show exec _ _ = _
    rw [h.exec_readCounters, hact, done_asked]
    rfl
  · show exec _ _ = _
    rw [h.exec_clearCounters, actClearCounters_bad _ (counters_bad hbad), invalid_asked]
  · rintro rfl rfl
    show exec _ _ = _
    rw [h.exec_clearCounters]
    exact took_congr (done_asked (clearGlobalCounters s) [])
  · rintro rfl hk
    have hact : actClearCounters (asked .clearCounters tag [2, b] i) (s.reserved rest i) =
        done (asked .clearCounters tag [2, b] i) []
          (State.reserved { s with counters :=
            { s.counters with rules := s.counters.rules.setIfInBounds k { frames := 0, bytes := 0 } } } rest i) := by
      have hnot : ¬ k = 255 := by omega
      refine (if_pos (.inr hk)).trans ?_
      exact congrArg (done _ _) (if_neg hnot)
    show exec _ _ = _
    rw [h.exec_clearCounters, hact, done_asked]
  · rintro rfl hk
    have hact : actClearCounters (asked .clearCounters tag [2, b] i) (s.reserved rest i) =
        done (asked .clearCounters tag [2, b] i) []
          (State.reserved { s with counters := { s.counters with defaultRule := { frames := 0, bytes := 0 } } } rest i) :=
      (if_pos (.inl hk)).trans (congrArg (done _ _) (if_pos hk))
    show exec _ _ = _
    rw [h.exec_clearCounters, hact, done_asked]

/-! ### The parameter record (R186) -/

theorem byteAt_le (bs : List Byte) (k : Nat) : (byteAt bs k).toNat ≤ 255 := Nat.le_of_lt_succ (byteAt bs k).isLt

/-- Settles O29: READ PARAMETERS shows the active record, and a clamp is a smallest and a largest value. -/
theorem parametersReadAndWritten : Obligations.ParametersReadAndWritten := by
  intro s tag rest i args record v p
  have hparse : parseParams args = p := by
    have hle := byteAt_le args
    simp only [parseParams, clamp, word16At_toNat, p, v, Params.mk.injEq, Nat.reduceAdd]
    have h0 := hle 0; have h6 := hle 6; have h7 := hle 7; have h8 := hle 8
    refine ⟨?_, ?_, ?_, ?_, ?_, ?_, ?_, ?_, ?_, ?_, ?_, ?_, ?_⟩ <;> omega
  refine ⟨fun h => ?_, fun h => ⟨by simpa [argumentsFit] using h.2, fun hmode => ?_, fun hmode => ?_⟩⟩
  · rw [h.runs_act (act := actReadParameters) rfl nofun rfl, actReadParameters, done_asked]
    rfl
  · exact h.answers_mode (act := actWriteParameters) rfl rfl (by rw [hmode]; exact Mode.noConfusion)
  · have hact : actWriteParameters (asked .writeParameters tag args i) (s.reserved rest i) =
        done (asked .writeParameters tag args i) (record p)
          ((s.edited { s.responder.edit with params := p }).reserved rest i) := by
      unfold actWriteParameters
      dsimp only
      rw [show (asked .writeParameters tag args i).args = args from rfl, hparse]
      rfl
    rw [h.runs_act (act := actWriteParameters) rfl (fun _ => hmode) rfl, hact, done_asked]

/-! ### Identity, flags, notice mask (R192 to R194) -/

section
variable {s : State} {tag : Word16} {rest : List TrunkFrame} {i : Nat} {c0 c1 p o : Byte}

theorem Orientation.ofCode_cases (b : Byte) :
    (∃ c, Orientation.ofCode b = some c ∧ c.code = b ∧ b.toNat ≤ 1) ∨ (Orientation.ofCode b = none ∧ 1 < b.toNat) :=
  ofTwoCodes_cases (code := Orientation.code) (x := .a) (y := .b) rfl rfl b

/-- SET IDENTITY takes an identity that is not written, when its three fields are in range (R192). -/
theorem actSetIdentity_unset {q : Request} {u : State} (hnone : u.responder.identity = none) :
    actSetIdentity q u =
      match Orientation.ofCode (byteAt q.args 3) with
      | some o =>
        if (word16At q.args 0).toNat ≤ 9999 ∧ 1 ≤ q.arg 2 ∧ q.arg 2 ≤ 8 then
          done q (identityBytes (some { car := (word16At q.args 0).toNat, position := q.arg 2, orientation := o }))
            (u.withResponder
              { u.responder with
                identity := some { car := (word16At q.args 0).toNat, position := q.arg 2, orientation := o } })
        else invalid q u
      | none => invalid q u := by
  unfold actSetIdentity
  rw [hnone]
  cases Orientation.ofCode (byteAt q.args 3) <;> rfl

theorem actSetIdentity_bad (h : 9999 < c0.toNat + 256 * c1.toNat ∨ p = 0 ∨ 8 < p.toNat ∨ 1 < o.toNat) {u : State}
    (hnone : u.responder.identity = none) :
    actSetIdentity (asked .setIdentity tag [c0, c1, p, o] i) u = invalid (asked .setIdentity tag [c0, c1, p, o] i) u := by
  rw [actSetIdentity_unset hnone]
  rcases Orientation.ofCode_cases o with ⟨x, hx, -, hle⟩ | ⟨hx, -⟩
  · rw [show byteAt (asked .setIdentity tag [c0, c1, p, o] i).args 3 = o from rfl, hx]
    refine if_neg fun hfit => ?_
    obtain ⟨hcar, hlow, hhigh⟩ := hfit
    have hcar' : c0.toNat + 256 * c1.toNat ≤ 9999 := (word16At_toNat [c0, c1, p, o] 0) ▸ hcar
    have hlow' : 1 ≤ p.toNat := hlow
    have hhigh' : p.toNat ≤ 8 := hhigh
    rcases h with h | rfl | h | h
    · omega
    · exact absurd hlow' (by decide)
    · omega
    · omega
  · rw [show byteAt (asked .setIdentity tag [c0, c1, p, o] i).args 3 = o from rfl, hx]

theorem actSetIdentity_good (h : ¬ (9999 < c0.toNat + 256 * c1.toNat ∨ p = 0 ∨ 8 < p.toNat ∨ 1 < o.toNat))
    (hnone : s.responder.identity = none) :
    actSetIdentity (asked .setIdentity tag [c0, c1, p, o] i) (s.reserved rest i) =
      done (asked .setIdentity tag [c0, c1, p, o] i) [c0, c1, p, o]
        (State.reserved { s with
          responder :=
            { s.responder with
              identity :=
                some { car := c0.toNat + 256 * c1.toNat, position := p.toNat, orientation := if o = 0 then .a else .b } } }
          rest i) := by
  have hp : p.toNat ≠ 0 := fun h0 => h (.inr (.inl (BitVec.eq_of_toNat_eq h0)))
  rw [actSetIdentity_unset (show (s.reserved rest i).responder.identity = none from hnone)]
  rcases Orientation.ofCode_cases o with ⟨x, hx, hcode, hle⟩ | ⟨-, hgt⟩
  · have horientation : (if o = 0 then Orientation.a else .b) = x := by
      cases x with
      | a => exact if_pos hcode.symm
      | b => exact if_neg (by rw [← hcode]; decide)
    have hcar : (word16At (asked .setIdentity tag [c0, c1, p, o] i).args 0).toNat = c0.toNat + 256 * c1.toNat :=
      word16At_toNat [c0, c1, p, o] 0
    have hposition : (asked .setIdentity tag [c0, c1, p, o] i).arg 2 = p.toNat := rfl
    rw [show byteAt (asked .setIdentity tag [c0, c1, p, o] i).args 3 = o from rfl, hx]
    dsimp only
    rw [hcar, hposition, if_pos (by omega), horientation]
    have hbytes : identityBytes (some { car := c0.toNat + 256 * c1.toNat, position := p.toNat, orientation := x })
        = [c0, c1, p, o] := by
      have hpair : le16n (c0.toNat + 256 * c1.toNat) = [c0, c1] := le16n_byteAt_pair [c0, c1] 0
      show le16n _ ++ [u8 p.toNat, x.code] = _
      rw [hpair, u8_toNat, hcode]
      rfl
    rw [hbytes]
    rfl
  · exact absurd (.inr (.inr (.inr hgt))) h

/-- The flags that CLEAR FLAGS leaves: those not named (R193). -/
def unnamedFlags (flags : BitVec 10) (c0 c1 : Byte) : BitVec 10 := flags &&& ~~~((word16 c0 c1).setWidth 10)

theorem getLsbD_unnamedFlags_low (flags : BitVec 10) (c0 c1 : Byte) {n : Nat} (hn : n < 8) :
    (unnamedFlags flags c0 c1).getLsbD n = (flags.getLsbD n && !c0.getLsbD n) := by
  have hword : (word16 c0 c1).getLsbD n = c0.getLsbD n := by
    rw [word16, BitVec.getLsbD_append, if_pos hn]
  have h10 : n < 10 := by omega
  rw [unnamedFlags, BitVec.getLsbD_and, BitVec.getLsbD_not, BitVec.getLsbD_setWidth, hword]
  simp only [h10, decide_true, Bool.true_and]

theorem getLsbD_unnamedFlags_high (flags : BitVec 10) (c0 c1 : Byte) {n : Nat} (hn : n < 2) :
    (unnamedFlags flags c0 c1).getLsbD (8 + n) = (flags.getLsbD (8 + n) && !c1.getLsbD n) := by
  have h10 : 8 + n < 10 := by omega
  have hword : (word16 c0 c1).getLsbD (8 + n) = c1.getLsbD n := by
    rw [word16, BitVec.getLsbD_append, if_neg (by omega), Nat.add_sub_cancel_left]
  rw [unnamedFlags, BitVec.getLsbD_and, BitVec.getLsbD_not, BitVec.getLsbD_setWidth, hword]
  simp only [h10, decide_true, Bool.true_and]

theorem named_lt_iff : (word16At [c0, c1] 0).toNat < 1024 ↔ c1.toNat ≤ 3 := by
  rw [word16At_toNat]
  show c0.toNat + 256 * c1.toNat < 1024 ↔ _
  have := c0.isLt
  omega

end

/-- Settles O30: each request by whether its fields are in range. -/
theorem identityFlagsAndMaskRequests : Obligations.IdentityFlagsAndMaskRequests := by
  intro s tag rest i c0 c1 p o clear mask car bad write read
  refine ⟨fun h => ?_, fun h => ?_, fun h => ?_, fun h => ?_⟩
  · have hrun := h.runs_act (c := .setIdentity) (act := actSetIdentity) rfl nofun rfl
    refine ⟨fun hsome => ?_, fun hnone hbad => ?_, fun hnone hgood => ?_⟩
    · obtain ⟨x, hx⟩ := Option.ne_none_iff_exists'.mp hsome
      have hact : actSetIdentity (asked .setIdentity tag [c0, c1, p, o] i) (s.reserved rest i) =
          answerRequest (asked .setIdentity tag [c0, c1, p, o] i).ref .writtenOnce [] (s.reserved rest i) := by
        unfold actSetIdentity
        rw [show (s.reserved rest i).responder.identity = some x from hx]
      show exec _ _ = _
      rw [hrun, hact]
      exact took_congr (State.reserved_enqueue s rest i _)
    · show exec _ _ = _
      rw [hrun, actSetIdentity_bad (u := s.reserved rest i) hbad hnone, invalid_asked]
    · show exec _ _ = _
      rw [hrun, actSetIdentity_good hgood hnone, done_asked]
  · have hrun := h.runs_act (c := .readIdentity) (act := actReadIdentity) rfl nofun rfl
    rw [actReadIdentity, done_asked] at hrun
    have hidentity : (s.reserved rest i).responder.identity = s.responder.identity := rfl
    refine ⟨fun hnone => ?_, fun x hx => ?_⟩
    · show exec _ _ = _
      rw [hrun, hidentity, hnone]
      rfl
    · show exec _ _ = _
      rw [hrun, hidentity, hx]
      cases x with
      | mk car position orientation => cases orientation <;> rfl
  · have hrun := h.runs_act (c := .clearFlags) (act := actClearFlags) rfl nofun rfl
    refine ⟨fun hc => ?_, fun hc => ?_⟩
    · have hact : actClearFlags (asked .clearFlags tag [c0, c1] i) (s.reserved rest i) =
          invalid (asked .clearFlags tag [c0, c1] i) (s.reserved rest i) :=
        if_neg fun hlt => absurd (named_lt_iff.mp hlt) (by omega)
      show exec _ _ = _
      rw [hrun, hact, invalid_asked]
    · refine ⟨unnamedFlags s.responder.flags c0 c1, fun n => getLsbD_unnamedFlags_low _ _ _,
        fun n => getLsbD_unnamedFlags_high _ _ _, ?_⟩
      have hact : actClearFlags (asked .clearFlags tag [c0, c1] i) (s.reserved rest i) =
          done (asked .clearFlags tag [c0, c1] i) (le16 ((unnamedFlags s.responder.flags c0 c1).setWidth 16))
            (State.reserved { s with responder := { s.responder with flags := unnamedFlags s.responder.flags c0 c1 } }
              rest i) :=
        if_pos (named_lt_iff.mpr hc)
      show exec _ _ = _
      rw [hrun, hact, done_asked, le16_flags]
  · have hrun := h.runs_act (c := .setNoticeMask) (act := actSetNoticeMask) rfl nofun rfl
    refine ⟨fun hc => ?_, fun hc => ?_⟩
    · have hact : actSetNoticeMask (asked .setNoticeMask tag [c0] i) (s.reserved rest i) =
          invalid (asked .setNoticeMask tag [c0] i) (s.reserved rest i) := if_neg (Nat.not_lt.mpr hc)
      show exec _ _ = _
      rw [hrun, hact, invalid_asked]
    · have hact : actSetNoticeMask (asked .setNoticeMask tag [c0] i) (s.reserved rest i) =
          done (asked .setNoticeMask tag [c0] i) [c0]
            (State.reserved { s with responder := { s.responder with mask := c0.setWidth 3 } } rest i) :=
        if_pos (Nat.lt_succ_of_le hc)
      show exec _ _ = _
      rw [hrun, hact, done_asked]

/-! ### Requests that join the operation list (R172, R190) -/

theorem word16At_eq_ofNat (bs : List Byte) (k : Nat) :
    word16At bs k = BitVec.ofNat 16 ((byteAt bs k).toNat + 256 * (byteAt bs (k + 1)).toNat) := by
  rw [← word16At_toNat, BitVec.ofNat_toNat, BitVec.setWidth_eq]

theorem word32At_eq_ofNat (bs : List Byte) (k : Nat) :
    word32At bs k = BitVec.ofNat 32 ((byteAt bs k).toNat + 256 * (byteAt bs (k + 1)).toNat
      + 65536 * ((byteAt bs (k + 2)).toNat + 256 * (byteAt bs (k + 3)).toNat)) := by
  apply BitVec.eq_of_toNat_eq
  have hlow := word16At_toNat bs k
  have hhigh := word16At_toNat bs (k + 2)
  rw [show k + 2 + 1 = k + 3 from rfl] at hhigh
  have hlt := (word16At bs k).isLt
  have hlt' := (word16At bs (k + 2)).isLt
  unfold word32At
  rw [BitVec.toNat_append, BitVec.toNat_ofNat, Nat.shiftLeft_eq, Nat.mul_comm, ← Nat.two_pow_add_eq_or_of_lt hlt, hlow, hhigh]
  omega

/-- Settles O35: the table write by whether one waits, a loading request by its arguments alone. -/
theorem storeRequestsJoinOperationList : Obligations.StoreRequestsJoinOperationList := by
  intro s tag args rest i joins w loads
  have hload : ∀ {k : RequestCode} {act : Request → State → State} {o : OperationKind},
      (∀ s, exec k.command s = happens (takeRequest k act s) s) → busyInRestart k = false →
      (∀ u, act (asked k tag args i) u = joinLoading (asked k tag args i) o u) → loads k o := by
    intro k act o hc hbusy hact h hmode
    show exec _ _ = _
    rw [h.runs_act (hc s) (fun _ => hmode) hbusy, hact]
    rfl
  refine ⟨fun h => ⟨fun hsome => ?_, fun hnone => ?_⟩, hload (fun _ => rfl) rfl fun u => ?_,
    hload (fun _ => rfl) rfl fun u => ?_, hload (fun _ => rfl) rfl fun u => rfl, hload (fun _ => rfl) rfl fun u => rfl,
    hload (fun _ => rfl) rfl fun u => rfl⟩
  · rw [h.runs_act (act := actStoreTables) rfl nofun rfl]
    have hact : actStoreTables (asked .storeTables tag args i) (s.reserved rest i) =
        answerRequest (asked .storeTables tag args i).ref .busy [] (s.reserved rest i) :=
      if_pos (by
        obtain ⟨o, ho, hk⟩ := hsome
        exact List.any_eq_true.mpr ⟨o, ho, by rw [hk]; rfl⟩)
    rw [hact]
    exact took_congr (State.reserved_enqueue s rest i _)
  · show exec .storeTables s = _
    rw [h.runs_act (act := actStoreTables) rfl nofun rfl]
    refine took_congr (if_neg fun hany => ?_)
    obtain ⟨o, ho, hk⟩ := List.any_eq_true.mp hany
    exact hnone o ho (by simpa using hk)
  · unfold actImageOpen
    rw [show (asked .imageOpen tag args i).args = args from rfl, word16At_toNat, word16At_eq_ofNat, word32At_eq_ofNat]
  · unfold actImageBlock
    rw [show (asked .imageBlock tag args i).args = args from rfl, word16At_toNat]

/-! ### First fit (R168) -/

/-- Refutes O36: the statement bounds no extent by N, and before an extent that starts beyond N the model takes a run that ends beyond
N too. With N = 5 and one block in use at 20, ten blocks are given from block 0. -/
theorem not_firstFitTakesLowestFreeRun : ¬ Obligations.FirstFitTakesLowestFreeRun := by
  intro h
  have hgiven : firstFit 10 5 0 [{ first := 20, length := 1 }] = some 0 := by decide
  have hfits := (h 10 5 [{ first := 20, length := 1 }] (by decide) (by decide) (by decide)).1 0 hgiven
  exact absurd hfits.1.1 (by decide)

/-! ### The fields of a SEGMENT REQUEST (R11) -/

theorem RequestKind.ofCode_cases (b : Byte) :
    (∃ k, RequestKind.ofCode b = some k ∧ k.segment.code = b ∧ (k = .broadcast ↔ b = 0x12)
        ∧ (b = 0x10 ∨ b = 0x11 ∨ b = 0x12))
      ∨ (RequestKind.ofCode b = none ∧ b ≠ 0x10 ∧ b ≠ 0x11 ∧ b ≠ 0x12) := by
  unfold RequestKind.ofCode
  by_cases h0 : b = 0x10
  · subst h0; exact .inl ⟨.command, rfl, rfl, by decide, by decide⟩
  · by_cases h1 : b = 0x11
    · subst h1; exact .inl ⟨.query, rfl, rfl, by decide, by decide⟩
    · by_cases h2 : b = 0x12
      · subst h2; exact .inl ⟨.broadcast, rfl, rfl, by decide, by decide⟩
      · exact .inr ⟨by rw [if_neg h0, if_neg h1, if_neg h2], h0, h1, h2⟩

/-- A frame is judged by its first two body bytes, once the body is long enough (R11). -/
theorem parseSegmentRequest_of_body {f : TrunkFrame} {d k fn : Byte} {payload : List Byte} (h : f.body = d :: k :: fn :: payload) :
    parseSegmentRequest f =
      (RequestKind.ofCode k).bind fun kind =>
        if f.outcome = 0 ∧ payload.length ≤ 64 ∧ 1 ≤ d.toNat ∧ d.toNat ≤ 31 ∧ (kind = .broadcast ↔ d.toNat = 31) then
          some { tag := f.tag, destination := d.toNat, kind := kind, function := fn, payload := payload }
        else none := by
  unfold parseSegmentRequest
  rw [h]
  dsimp only
  cases RequestKind.ofCode k <;> rfl

theorem parseSegmentRequest_of_short {f : TrunkFrame} (h : f.body.length < 3) : parseSegmentRequest f = none := by
  unfold parseSegmentRequest
  match hb : f.body with
  | [] => rfl
  | [_] => rfl
  | [_, _] => rfl
  | _ :: _ :: _ :: _ => rw [hb] at h; simp at h; omega

/-- Settles O17: a body of three bytes or more is judged by its kind code and the five tests of the parser. -/
theorem segmentRequestFieldTests : Obligations.SegmentRequestFieldTests := by
  intro f
  by_cases hshort : f.body.length < 3
  · rw [parseSegmentRequest_of_short hshort]
    exact ⟨⟨fun _ => .inr (.inl hshort), fun _ => rfl⟩, fun q h => nomatch h⟩
  obtain ⟨d, k, fn, payload, hb⟩ : ∃ d k fn payload, f.body = d :: k :: fn :: payload := by
    match hb : f.body with
    | [] => rw [hb] at hshort; simp at hshort
    | [_] => rw [hb] at hshort; simp at hshort
    | [_, _] => rw [hb] at hshort; simp at hshort
    | d :: k :: fn :: payload => exact ⟨d, k, fn, payload, rfl⟩
  have hlength : f.body.length = payload.length + 3 := by rw [hb]; rfl
  have h0 : byteAt f.body 0 = d := by rw [hb]; rfl
  have h1 : byteAt f.body 1 = k := by rw [hb]; rfl
  have h2 : byteAt f.body 2 = fn := by rw [hb]; rfl
  have h3 : f.body.drop 3 = payload := by rw [hb]; rfl
  have hd0 : d = 0 ↔ d.toNat = 0 := ⟨fun h => by rw [h]; rfl, fun h => BitVec.eq_of_toNat_eq h⟩
  have hd31 : d = 31 ↔ d.toNat = 31 := ⟨fun h => by rw [h]; rfl, fun h => BitVec.eq_of_toNat_eq h⟩
  rw [parseSegmentRequest_of_body hb, hlength, h0, h1, h2, h3]
  rcases RequestKind.ofCode_cases k with ⟨kind, hkind, hcode, hbroadcast, hlisted⟩ | ⟨hkind, hc, hq, hbr⟩
  · rw [hkind, Option.bind_some]
    constructor
    · rw [ite_eq_right_iff, hbroadcast]
      have hsome : ∀ q : SegmentRequest, ¬ some q = none := fun _ h => nomatch h
      have hunlisted : ¬ (k ≠ 0x10 ∧ k ≠ 0x11 ∧ k ≠ 0x12) := by tauto
      simp only [hsome, imp_false, hunlisted, false_or, ne_eq, hd0, hd31]
      clear hunlisted
      generalize (k = 0x12) = isBroadcast
      generalize (f.outcome = 0) = isClean
      by_cases hk : isBroadcast <;> by_cases ho : isClean <;>
        simp only [hk, ho, true_iff, false_iff, not_true_eq_false, not_false_eq_true, true_and, false_and, and_true, and_false,
          true_or, false_or, or_false] <;> omega
    · intro q hq
      split at hq
      · cases hq; exact ⟨rfl, rfl, hcode, rfl, rfl⟩
      · cases hq
  · rw [hkind, Option.bind_none]
    exact ⟨⟨fun _ => .inr (.inr (.inr (.inr (.inr (.inl ⟨hc, hq, hbr⟩))))), fun _ => rfl⟩, fun q h => nomatch h⟩

end Sys2Proof.Machine
end

section
/-! SUPPORT. The trunk link: which characters make a frame, how frames start and end on it, and what a report or a notice
does to egress. -/

namespace Sys2Proof.Machine

/-! ### Received characters (R10, R15) -/

theorem word16_toNat (lo hi : Byte) : (word16 lo hi).toNat = lo.toNat + 256 * hi.toNat := word16At_toNat [lo, hi] 0

theorem word16_eq_ofNat (lo hi : Byte) : word16 lo hi = BitVec.ofNat 16 (lo.toNat + 256 * hi.toNat) :=
  word16At_eq_ofNat [lo, hi] 0

/-- The check characters that end a frame, B then A, are right. -/
theorem check16_eq_iff (bs : List Byte) (b a : Byte) :
    [b, a] = check16 bs ↔ b = u8 (fletcher16 bs).2 ∧ a = u8 (fletcher16 bs).1 := by
  simp [check16]

section
variable (kind t0 t1 outcome n0 n1 : Byte) (rest : List Byte)

/-- The two characters of a length field, as a number. -/
def fieldLength (n0 n1 : Byte) : Nat := n0.toNat + 256 * n1.toNat

theorem receiveTrunk_header :
    receiveTrunk ([kind, t0, t1, outcome, n0, n1] ++ rest) =
      if fieldLength n0 n1 > 300 then (if rest = [] then .bad else .unfinished)
      else if rest.length ≠ fieldLength n0 n1 + 2 then .unfinished
      else if rest.drop (fieldLength n0 n1) = check16 ([kind, t0, t1, outcome, n0, n1] ++ rest.take (fieldLength n0 n1)) then
        .good
          { kind := kind, tag := BitVec.ofNat 16 (fieldLength t0 t1), outcome := outcome
            body := rest.take (fieldLength n0 n1) }
      else .bad := by
  simp only [receiveTrunk, List.cons_append, List.nil_append, word16_toNat]
  simp only [word16_eq_ofNat, fieldLength]
  congr

variable {kind t0 t1 outcome n0 n1 rest}

theorem receiveTrunk_overlong (h : 300 < fieldLength n0 n1) :
    receiveTrunk [kind, t0, t1, outcome, n0, n1] = .bad
      ∧ (rest ≠ [] → receiveTrunk ([kind, t0, t1, outcome, n0, n1] ++ rest) = .unfinished) := by
  have hempty := receiveTrunk_header kind t0 t1 outcome n0 n1 []
  have hrest := receiveTrunk_header kind t0 t1 outcome n0 n1 rest
  rw [if_pos h] at hempty hrest
  exact ⟨hempty, fun hne => hrest.trans (if_neg hne)⟩

theorem receiveTrunk_unfinished (h : fieldLength n0 n1 ≤ 300) (hlength : rest.length ≠ fieldLength n0 n1 + 2) :
    receiveTrunk ([kind, t0, t1, outcome, n0, n1] ++ rest) = .unfinished := by
  rw [receiveTrunk_header, if_neg (by omega), if_pos hlength]

theorem receiveTrunk_complete {body : List Byte} {b a : Byte} (h : fieldLength n0 n1 ≤ 300)
    (hlength : body.length = fieldLength n0 n1) :
    receiveTrunk ([kind, t0, t1, outcome, n0, n1] ++ body ++ [b, a]) =
      if [b, a] = check16 ([kind, t0, t1, outcome, n0, n1] ++ body) then
        .good { kind := kind, tag := BitVec.ofNat 16 (fieldLength t0 t1), outcome := outcome, body := body }
      else .bad := by
  have htotal : (body ++ [b, a]).length = fieldLength n0 n1 + 2 := by simp [hlength]
  rw [List.append_assoc, receiveTrunk_header, if_neg (by omega), if_neg (not_not_intro htotal), ← hlength, List.take_left,
    List.drop_left]

end

theorem receiveTrunk_short {chars : List Byte} (h : chars.length < 6) : receiveTrunk chars = .unfinished := by
  match chars, h with
  | [], _ | [_], _ | [_, _], _ | [_, _, _], _ | [_, _, _, _], _ | [_, _, _, _, _], _ => rfl
  | _ :: _ :: _ :: _ :: _ :: _ :: _, h => simp at h; omega

/-- A frame as sent, its check too, is received as that frame. -/
theorem receiveTrunk_wire (f : TrunkFrame) (h : f.body.length ≤ 300) : receiveTrunk f.wire.tail = .good f := by
  have hfield : fieldLength ((BitVec.ofNat 16 f.body.length).extractLsb' 0 8) ((BitVec.ofNat 16 f.body.length).extractLsb' 8 8)
      = f.body.length := by
    rw [fieldLength, ← word16_toNat, word16_bytes, BitVec.toNat_ofNat, Nat.mod_eq_of_lt (by omega)]
  have htag : BitVec.ofNat 16 (fieldLength (f.tag.extractLsb' 0 8) (f.tag.extractLsb' 8 8)) = f.tag := by
    rw [fieldLength, ← word16_eq_ofNat, word16_bytes]
  have hwire : f.wire.tail =
      [f.kind, f.tag.extractLsb' 0 8, f.tag.extractLsb' 8 8, f.outcome, (BitVec.ofNat 16 f.body.length).extractLsb' 0 8,
        (BitVec.ofNat 16 f.body.length).extractLsb' 8 8] ++ f.body ++ check16 f.covered := by
    simp [TrunkFrame.wire, TrunkFrame.covered, le16, le16n]
  have hcovered : f.covered =
      [f.kind, f.tag.extractLsb' 0 8, f.tag.extractLsb' 8 8, f.outcome, (BitVec.ofNat 16 f.body.length).extractLsb' 0 8,
        (BitVec.ofNat 16 f.body.length).extractLsb' 8 8] ++ f.body := by
    simp [TrunkFrame.covered, le16, le16n]
  have hcheck : check16 f.covered = [u8 (fletcher16 f.covered).2, u8 (fletcher16 f.covered).1] := rfl
  rw [hwire, hcheck, receiveTrunk_complete (by omega) hfield.symm, ← hcovered, if_pos hcheck.symm, htag]

/-- Settles O12: reception is judged by the six header characters, as many body characters as they give, and the check. -/
theorem trunkFrameIsGoodBadOrUnfinished : Obligations.TrunkFrameIsGoodBadOrUnfinished := by
  refine ⟨fun kind t0 t1 outcome n0 n1 rest => ⟨receiveTrunk_overlong, receiveTrunk_unfinished, ?_⟩,
    fun _ => receiveTrunk_short, fun f hf => ⟨rfl, receiveTrunk_wire f hf, ?_⟩⟩
  · intro body b a hn hlength
    have hcomplete := receiveTrunk_complete (kind := kind) (t0 := t0) (t1 := t1) (outcome := outcome) (b := b) (a := a) hn
      hlength
    have hcheck := check16_eq_iff ([kind, t0, t1, outcome, n0, n1] ++ body) b a
    refine ⟨fun hb ha => hcomplete.trans (if_pos (hcheck.2 ⟨hb, ha⟩)), fun h => hcomplete.trans (if_neg fun heq => ?_)⟩
    obtain ⟨hb, ha⟩ := hcheck.1 heq
    exact h.elim (absurd hb) (absurd ha)
  · simp [TrunkFrame.wire, TrunkFrame.covered, le16, le16n, check16]

/-! ### The transmitter (R181) -/

/-- An entry holds the frame on the link. -/
def linkBusy (egress : Vector EgressEntry 24) : Bool :=
  (List.range 24).any (fun i => match egress[i]? with | some (.sending _) => true | _ => false)

theorem transmitting_eq (s : State) : s.transmitting = linkBusy s.trunk.egress := rfl

/-- Egress and the order of its waiting entries after an idle transmitter has been served. -/
def transmit (egress : Vector EgressEntry 24) (order : List WaitingEntry) (moment : Nat) :
    Vector EgressEntry 24 × List WaitingEntry :=
  if linkBusy egress then (egress, order)
  else
    match order[nextToSend order moment]? with
    | none => (egress, order)
    | some w =>
      (match egress[w.entry]? with
        | some (.waiting f) => egress.setIfInBounds w.entry (.sending f)
        | _ => egress,
       order.eraseIdx (nextToSend order moment))

/-- The end of a command serves the transmitter and counts the moment on, and nothing else. -/
theorem endCommand_transmit (s : State) :
    endCommand s =
      { s with
        trunk :=
          { s.trunk with
            egress := (transmit s.trunk.egress s.trunk.order s.moment).1
            order := (transmit s.trunk.egress s.trunk.order s.moment).2 }
        moment := s.moment + 1 } := by
  unfold endCommand startTransmitter transmit
  rw [transmitting_eq]
  dsimp only
  split
  · rfl
  · cases s.trunk.order[nextToSend s.trunk.order s.moment]? <;> rfl

/-- A waiting frame that no other one shares its moment with is the next to be sent. -/
theorem nextToSend_alone {w : WaitingEntry} {rest : List WaitingEntry} (h : ∀ x ∈ rest, x.moment ≠ w.moment) (moment : Nat) :
    nextToSend (w :: rest) moment = 0 := by
  have hrest : rest.takeWhile (fun x => x.moment == w.moment) = [] := by
    cases rest with
    | nil => rfl
    | cons x l => exact List.takeWhile_cons_of_neg (by simpa using h x (List.mem_cons_self ..))
  simp [nextToSend, hrest]

theorem sendingEntry_eq {s : State} {i : Nat} {f : TrunkFrame} (hi : i < 24) (hs : s.trunk.egress[i]? = some (.sending f))
    (hlow : ∀ j g, j < i → s.trunk.egress[j]? ≠ some (.sending g)) : s.sendingEntry = some i := by
  refine List.find?_range_eq_some.2 ⟨by simp [hs], by simpa using hi, fun j hj => ?_⟩
  have := fun g => hlow j g hj
  split <;> simp_all

/-- Settles O13: the two ends of a frame on the link, and the transmitter served at the end of every command. -/
theorem trunkLinkFramesStartAndEnd : Obligations.TrunkLinkFramesStartAndEnd := by
  intro s
  refine ⟨fun hrx => ?_, fun i f hi hs hlow => ?_, ?_, fun hbusy => ?_, fun hnone => ?_, fun w rest f hidle horder halone hw => ?_⟩
  · show happens (trunkFrameStart s) s = _
    rw [trunkFrameStart, hrx]; rfl
  · show happens (trunkFrameSent s) s = _
    rw [trunkFrameSent, sendingEntry_eq hi hs hlow]; rfl
  · rw [endCommand_transmit]
  · have htransmit : transmit s.trunk.egress s.trunk.order s.moment = (s.trunk.egress, s.trunk.order) := if_pos hbusy
    rw [endCommand_transmit, htransmit]
  · have htransmit : transmit s.trunk.egress s.trunk.order s.moment = (s.trunk.egress, s.trunk.order) := by
      rw [hnone, transmit]; split <;> rfl
    rw [endCommand_transmit, htransmit]
  · have htransmit : transmit s.trunk.egress s.trunk.order s.moment =
        (s.trunk.egress.setIfInBounds w.entry (.sending f), rest) := by
      rw [horder, transmit, ← transmitting_eq, hidle, nextToSend_alone halone]
      simp [hw]
    rw [endCommand_transmit, htransmit]

/-! ### Flags that rise (R193) -/

/-- An operation that keeps the flags named in `Within` keeps each set flag. -/
theorem flagSet_of_within {s t : State} {f : Flag}
    (h : ∀ {F : BitVec 10} {n : Nat}, s.Within F n false false → t.Within F n false false) (hs : s.flagSet f = true) :
    t.flagSet f = true := by
  rw [flagSet_iff] at hs ⊢
  exact (h (n := s.queued) ⟨hs, Nat.le_refl _, (nomatch ·), (nomatch ·)⟩).flags

theorem flagSet_setFlag (f : Flag) (s : State) : (s.setFlag f).flagSet f = true := by
  cases f <;> simp [State.setFlag, State.flagSet, Flag.code]

theorem flagSet_raiseFlag (f : Flag) (s : State) : (raiseFlag f s).flagSet f = true := by
  unfold raiseFlag
  dsimp only
  split
  · assumption
  · split
    · exact flagSet_of_within (offerFrame_within _) (flagSet_setFlag f s)
    · exact flagSet_setFlag f s

theorem reports_raiseFlag (f : Flag) (s : State) : Reports s (raiseFlag f s) := by
  unfold raiseFlag
  dsimp only
  split
  · exact .refl s
  · split
    · exact (reports_setFlag f s).trans (reports_offerFrame _ _)
    · exact reports_setFlag f s

/-- Raising a set flag, or any flag with bit 0 of the mask clear, offers no notice. -/
theorem raiseFlag_trunk {f : Flag} {s : State} (h : s.flagSet f = true ∨ s.responder.mask.getLsbD 0 = false) :
    (raiseFlag f s).trunk = s.trunk := by
  unfold raiseFlag
  dsimp only
  split
  · rfl
  · rename_i hset
    have hmask : (s.setFlag f).maskFlag = false := h.resolve_left hset
    rw [hmask]
    rfl

theorem flagSet_endCommand (f : Flag) (s : State) : (endCommand s).flagSet f = s.flagSet f := by
  rw [endCommand_transmit]; rfl

/-- What a command leaves that changes the receiver or the drop count and raises a flag. -/
theorem raises_after {c : Instr} {s : State} {x : TrunkPort} {f : Flag} {dropped : Word32}
    (hexec : exec c s = took (raiseFlag f (s.withTrunk x))) (hingress : x.ingress = s.trunk.ingress)
    (hegress : x.egress = s.trunk.egress) (horder : x.order = s.trunk.order) (hlost : x.reportLost = s.trunk.reportLost)
    (hdropped : x.ingressDrop = s.trunk.ingressDrop + dropped) :
    ∃ t, exec c s = .next t ∧ t.trunk.rx = x.rx ∧ t.flagSet f = true ∧ t.trunk.ingress = s.trunk.ingress
      ∧ t.trunk.ingressDrop = s.trunk.ingressDrop + dropped ∧ t.restore = s.restore ∧ t.segment = s.segment
      ∧ t.store = s.store ∧ t.tables = s.tables ∧ t.shadow = s.shadow ∧ t.hold = s.hold ∧ t.gap = s.gap
      ∧ ((s.flagSet f = true ∨ s.responder.mask.getLsbD 0 = false) →
          t.trunk.egress = (endCommand s).trunk.egress ∧ t.trunk.order = (endCommand s).trunk.order
            ∧ t.trunk.reportLost = s.trunk.reportLost) := by
  have hquiet := raiseFlag_quiet (s.withTrunk x) f
  have hrx : (raiseFlag f (s.withTrunk x)).trunk.rx = x.rx := congrArg Quiet.rx hquiet
  have hin : (raiseFlag f (s.withTrunk x)).trunk.ingress = s.trunk.ingress := (congrArg Quiet.ingress hquiet).trans hingress
  have hdrop : (raiseFlag f (s.withTrunk x)).trunk.ingressDrop = s.trunk.ingressDrop + dropped :=
    (congrArg Quiet.ingressDrop hquiet).trans hdropped
  have hmoment : (raiseFlag f (s.withTrunk x)).moment = s.moment := congrArg Quiet.moment hquiet
  obtain ⟨y, z, hr⟩ := reports_raiseFlag f (s.withTrunk x)
  refine ⟨_, hexec, ?_, (flagSet_endCommand ..).trans (flagSet_raiseFlag ..), ?_, ?_, ?_, ?_, ?_, ?_, ?_, ?_, ?_, fun hquiet => ?_⟩
  case refine_1 | refine_2 | refine_3 => rw [endCommand_transmit]; assumption
  case refine_11 =>
    have htrunk : (raiseFlag f (s.withTrunk x)).trunk = x := raiseFlag_trunk hquiet
    rw [endCommand_transmit, endCommand_transmit, htrunk, hmoment]
    simp only [hegress, horder, hlost, and_self]
  all_goals rw [endCommand_transmit, hr]; rfl

/-- Settles O14: each command ends collecting, and either appends the frame to ingress or raises its flag. -/
theorem receivedFramesJoinIngressOrRaiseFlags : Obligations.ReceivedFramesJoinIngressOrRaiseFlags := by
  intro s hrx
  have hnodrop : s.trunk.ingressDrop = s.trunk.ingressDrop + 0 := (BitVec.add_zero _).symm
  refine ⟨fun chars f hgood => ⟨fun hroom => ?_, fun hfull => ?_⟩, fun chars hbad => ?_, ?_, fun ender hender => ?_⟩
  · show happens (goodFrame chars s) s = _
    rw [goodFrame, hrx, hgood]
    exact took_congr (if_pos hroom)
  · refine raises_after (x := { s.trunk with rx := .hunting, ingressDrop := s.trunk.ingressDrop + 1 }) ?_ rfl rfl rfl rfl rfl
    show happens (goodFrame chars s) s = _
    rw [goodFrame, hrx, hgood]
    exact took_congr (if_neg (by simp [State.setReceiver, hfull]))
  · refine raises_after (x := { s.trunk with rx := .hunting }) ?_ rfl rfl rfl rfl hnodrop
    show happens (badFrame chars s) s = _
    rw [badFrame, hrx, hbad]
    rfl
  · refine raises_after (x := { s.trunk with rx := .collecting }) ?_ rfl rfl rfl rfl hnodrop
    show happens (trunkCharacterGap (some 0xC3) s) s = _
    rw [trunkCharacterGap, hrx]
    rfl
  · refine raises_after (x := { s.trunk with rx := .hunting }) ?_ rfl rfl rfl rfl hnodrop
    show happens (trunkCharacterGap ender s) s = _
    rw [trunkCharacterGap, hrx]
    exact took_congr (by rw [if_neg hender]; rfl)

/-! ### Reports and notices without a reservation (R181, R193) -/

/-- `n` frames have been lost, and EGRESS_OVERFLOW stands. -/
def State.loses (n : Word32) (u : State) : State :=
  { u with
    trunk := { u.trunk with reportLost := u.trunk.reportLost + n }
    responder := { u.responder with flags := u.responder.flags ||| 0x004#10 } }

theorem loseFrame_of_silent {u : State} (h : u.flagSet .egressOverflow = true ∨ u.responder.mask.getLsbD 0 = false) :
    loseFrame u = u.loses 1 := by
  unfold loseFrame
  dsimp only
  split
  · rename_i hset
    have hflags : u.responder.flags ||| 0x004#10 = u.responder.flags := by
      apply BitVec.eq_of_getLsbD_eq
      intro k hk
      have hbit : u.responder.flags.getLsbD 2 = true := hset
      interval_cases k <;> simp_all
    simp only [State.loses, hflags]
    rfl
  · rename_i hset
    have hmask : ((countLost u).setFlag .egressOverflow).maskFlag = false := h.resolve_left hset
    rw [hmask]
    rfl

theorem loseFrame_of_notice {u : State} (hflag : u.flagSet .egressOverflow = false) (hmask : u.responder.mask.getLsbD 0 = true)
    (hfree : u.freeEntry = none) : loseFrame u = u.loses 2 := by
  have hset : (countLost u).flagSet .egressOverflow = false := hflag
  have hbit : ((countLost u).setFlag .egressOverflow).maskFlag = true := hmask
  have hnone : ((countLost u).setFlag .egressOverflow).freeEntry = none := hfree
  have htwo : u.trunk.reportLost + 1 + 1 = u.trunk.reportLost + 2 := BitVec.add_assoc ..
  unfold loseFrame
  simp only [hset, hbit, hnone, Bool.false_eq_true, if_false, if_true]
  simp only [State.loses, ← htwo]
  rfl

/-- The command offers frame `f` in state `u`: it takes a FREE entry, or is lost, with the notice of EGRESS_OVERFLOW lost too
where it rises under bit 0 of the mask. -/
def State.Offers (s : State) (c : Instr) (u : State) (f : TrunkFrame) : Prop :=
  (∀ i, s.freeEntry = some i → exec c s = .next (endCommand (u.fills i f)))
    ∧ (s.freeEntry = none → (s.flagSet .egressOverflow = true ∨ s.responder.mask.getLsbD 0 = false) →
        exec c s = .next (endCommand (u.loses 1)))
    ∧ (s.freeEntry = none → s.flagSet .egressOverflow = false → s.responder.mask.getLsbD 0 = true →
        exec c s = .next (endCommand (u.loses 2)))

theorem offers_of_exec {s u : State} {c : Instr} {f : TrunkFrame} (hexec : exec c s = took (offerFrame f u))
    (hfree : u.freeEntry = s.freeEntry) (hflag : u.flagSet .egressOverflow = s.flagSet .egressOverflow)
    (hmask : u.responder.mask = s.responder.mask) : s.Offers c u f := by
  unfold State.Offers
  rw [← hfree, ← hflag, ← hmask, hexec]
  unfold offerFrame
  refine ⟨fun i hi => ?_, fun hnone h => ?_, fun hnone hclear hbit => ?_⟩
  · rw [hi]; rfl
  · rw [hnone]; exact took_congr (loseFrame_of_silent h)
  · rw [hnone]; exact took_congr (loseFrame_of_notice hclear hbit hnone)

/-- A notice under bit `n` of the mask. -/
def State.Masked (s : State) (n : Nat) (c : Instr) (u : State) (body : List Byte) : Prop :=
  (s.responder.mask.getLsbD n = false → exec c s = .next (endCommand u))
    ∧ (s.responder.mask.getLsbD n = true → s.Offers c u (notice body))

theorem masked_of_exec {s u : State} {c : Instr} {n : Nat} {body : List Byte}
    (hexec : exec c s = took (if u.responder.mask.getLsbD n then offerFrame (notice body) u else u))
    (hfree : u.freeEntry = s.freeEntry) (hflag : u.flagSet .egressOverflow = s.flagSet .egressOverflow)
    (hmask : u.responder.mask = s.responder.mask) : s.Masked n c u body := by
  rw [hmask] at hexec
  constructor <;> intro h <;> rw [h] at hexec
  · exact hexec
  · exact offers_of_exec hexec hfree hflag hmask

/-! ### The commands that O15 shows it for -/

/-- A walk over no leaving node leaves the pass queue. -/
theorem walkReturned_nil (l : List PassEntry) (s : State) : walkReturned [] l s = (l, s) := by
  induction l with
  | nil => rfl
  | cons e rest ih =>
    unfold walkReturned
    have hlive : e.live.filter (fun a => !([] : List Nat).contains a) = e.live := List.filter_eq_self.2 (by simp)
    have hgone : e.live.filter (([] : List Nat).contains ·) = [] := List.filter_eq_nil_iff.2 (by simp)
    split
    · rw [hlive, hgone]; simp [forNodes, ih]
    · simp [ih]

theorem returnPasses_nil (s : State) : returnPasses [] s = s := by
  unfold returnPasses setPassQueues
  simp only [walkReturned_nil]
  have hrun : ((if (s.segment.normal.isEmpty && !s.segment.normal.isEmpty) = true then 0 else s.segment.runCount) : Nat)
      = s.segment.runCount := if_neg (by simp)
  rw [hrun]
  rfl

section
variable {s : State} (hnone : ∀ a, s.entry a = none ∧ s.reserve a = none)
include hnone

theorem confirmGapStart_unconfigured (start : Time) :
    confirmGapStart start s =
      offerGap 0 start 0 0 0 0 { s with gap := { s.gap with condition := .inGap start, aged := false, gapSet := [] } } := by
  have hfed : addresses.filter s.isFed = [] := List.filter_eq_nil_iff.2 fun a _ => by simp [State.isFed, (hnone a).1]
  unfold confirmGapStart
  rw [hfed]
  exact congrArg (offerGap 0 start 0 0 0 0) (returnPasses_nil _)

theorem setOrigins_unconfigured (edge : Time) (l : List Nat) {u : State} (hu : u.gap.reserves = s.gap.reserves) :
    forNodes l (setOrigin edge) u = u := by
  refine forNodes_keeps (P := fun t => t = u) (fun a t ht => ?_) l rfl
  have hreserve : u.reserve a = none := (reserve_congr hu a).trans (hnone a).2
  rw [ht, setOrigin, hreserve]

theorem confirmGapEnd_unconfigured (hset : s.gap.gapSet = []) (start edge : Time) :
    confirmGapEnd start edge s =
      offerGap 1 edge (s.gapDuration start edge) 0 0 0
        { s with gap := { s.gap with condition := .supplied, lastD := s.gapDuration start edge } } := by
  have hsupplied := setOrigins_unconfigured hnone edge addresses
    (u := s.withGap { s.gap with condition := .supplied, lastD := s.gapDuration start edge }) rfl
  obtain ⟨x, y, hr⟩ := reports_offerGap 1 edge (s.gapDuration start edge) 0 0 0
    (s.withGap { s.gap with condition := .supplied, lastD := s.gapDuration start edge })
  unfold confirmGapEnd
  rw [hset]
  dsimp only [List.map, List.foldl, forNodes, countClasses, List.filter, List.length]
  rw [← forNodes, hsupplied, hr]
  refine Eq.trans ?_ hr.symm
  simp only [State.withGap, State.withTrunk, State.withResponder, hset]

end

theorem exec_gapStart_due {s : State} {edge expiry : Time} (h : s.gap.condition = .startPending edge expiry)
    (hreached : reached s.now expiry = true) : exec .gapStart s = took (confirmGapStart edge s) := by
  show happens (gapStart s) s = _
  rw [gapStart, h]
  simp only [hreached, if_true]
  rfl

theorem expireEntry_idle {s : State} {a k : Nat} {e : HoldEntry} (h : s.nodeState a ≠ .release) :
    expireEntry a k e s = makeReport e .expired [] (s.setQueue a ((s.queue a).eraseIdx k)) := by
  have hstate : ∀ u, Reports (s.setQueue a ((s.queue a).eraseIdx k)) u → u.nodeState a ≠ .release := by
    intro u hu
    have : u.nodeState a = s.nodeState a := by unfold State.nodeState; rw [hu.runtime]; rfl
    rwa [this]
  unfold expireEntry releaseAfterExpiry
  exact if_neg (hstate _ (reports_makeReport ..))

theorem holdExpiry_due {s : State} {a k : Nat} {e : HoldEntry} (hk : (s.queue a)[k]? = some e)
    (hexpiry : e.expiry = some s.now) (hidle : e.inFlight = false) : holdExpiry a k s = some (expireEntry a k e s) := by
  unfold holdExpiry
  rw [hk]
  exact if_pos ⟨by simp [HoldEntry.expired, hexpiry, reached_self], hidle⟩

/-- Settles O15: each of the four commands ends in an offer of its frame, or in the fill of the reserved entry. -/
theorem reportsAndNoticesTakeFreeEntryOrAreLost : Obligations.ReportsAndNoticesTakeFreeEntryOrAreLost := by
  intro s
  refine ⟨fun start e x hlevel hcondition => ?_, fun a r opens hr hstate hwindow hstep => ?_,
    fun hnone => ⟨fun edge hcondition => ?_, fun start edge hcondition hset => ?_⟩,
    fun a k e tag hk hexpiry hidle hstate htag => ?_⟩
  · have hpresent : s.supplyAbsent = false := by simpa [State.supplyAbsent] using hlevel
    have hglitch : exec .gapEdgeAbsent s = took (raiseFlag .glitch
        { s with gap := { s.gap with gapHigh := !s.gap.gapHigh, condition := .inGap start } }) := by
      show happens (gapEdgeAbsent s) s = _
      rw [gapEdgeAbsent, hpresent]
      simp only [Bool.false_eq_true, if_false, State.withGap, hcondition]
      rfl
    constructor
    · intro hset
      exact hglitch.trans (took_congr (if_pos hset))
    · intro hclear
      refine masked_of_exec (hglitch.trans (took_congr ?_)) rfl ?_ rfl
      · exact if_neg (ne_true_of_eq_false hclear)
      · simp [State.flagSet, Flag.code]
  · have hdue : exec (.bootWindowClose a) s = took (enterMissing a s) := by
      show happens (bootWindowClose a s) s = _
      rw [bootWindowClose, hr]
      simp only [hwindow]
      rw [if_pos ⟨hstate, reached_self _⟩]
      rfl
    refine masked_of_exec (n := 1) (hdue.trans (took_congr ?_)) rfl rfl rfl
    unfold enterMissing
    dsimp only
    rw [mapRuntime_of_runtime hr, hstep]
    rfl
  · exact masked_of_exec (n := 2) ((exec_gapStart_due hcondition (reached_self _)).trans
      (took_congr (confirmGapStart_unconfigured hnone edge))) rfl rfl rfl
  · exact masked_of_exec (n := 2) ((exec_gapEnd_due hcondition).trans
      (took_congr (confirmGapEnd_unconfigured hnone hset start edge))) rfl rfl rfl
  · have hdue : exec (.holdExpiry a k) s =
        took (makeReport e .expired [] (s.setQueue a ((s.queue a).eraseIdx k))) := by
      show happens (holdExpiry a k s) s = _
      rw [holdExpiry_due hk hexpiry hidle, expireEntry_idle hstate]
      rfl
    constructor
    · intro i hi
      rw [hdue, makeReport, htag, hi]
      rfl
    · intro hi
      refine offers_of_exec (hdue.trans (took_congr ?_)) rfl rfl rfl
      rw [makeReport, htag, hi]
      rfl

end Sys2Proof.Machine
end

section
/-! SUPPORT. What holds and captures do, said once for each, and the disposition of SEGMENT REQUESTs. -/

namespace Sys2Proof.Machine

/-! ### Reading one address of a written block -/

theorem queue_setQueue (s : State) (a b : Nat) (q : List HoldEntry) :
    (s.setQueue a q).queue b = if a = b ∧ isAddress a = true then q else s.queue b := by
  unfold State.queue State.setQueue
  simp only [State.withHold_hold, atNode_putNode]
  split <;> rfl

theorem replayList_setReplayList (s : State) (a b : Nat) (l : List Nat) :
    (s.setReplayList a l).replayList b = if a = b ∧ isAddress a = true then l else s.replayList b := by
  unfold State.replayList State.setReplayList
  simp only [State.withShadow_shadow, atNode_putNode]
  split <;> rfl

theorem replayInFlight_setReplayInFlight (s : State) (a b : Nat) (x : Option ReplayInFlight) :
    (s.setReplayInFlight a x).replayInFlight b = if a = b ∧ isAddress a = true then x else s.replayInFlight b := by
  unfold State.replayInFlight State.setReplayInFlight
  simp only [State.withShadow_shadow, atNode_putNode]
  split <;> rfl

theorem slot_setSlot_index (s : State) (i j : Nat) (x : Option ShadowRecord) :
    (s.setSlot i x).slot j = if j = i ∧ i < 96 then x else s.slot j := by
  unfold State.slot State.setSlot
  simp only [State.withShadow_shadow, Vector.getElem?_setIfInBounds]
  split <;> split <;> simp_all

/-! ### What only stores frames (chapters 6 and 7) -/

/-- `t` differs from `s` at most in the Hold Pool, the Shadow Store, the Trunk Port and the Management Responder. -/
def Stores (s t : State) : Prop := ∃ h x y z, t = { s with hold := h, shadow := x, trunk := y, responder := z }

theorem Stores.refl (s : State) : Stores s s := ⟨s.hold, s.shadow, s.trunk, s.responder, rfl⟩

theorem Stores.trans {s t u : State} (h : Stores s t) (g : Stores t u) : Stores s u := by
  obtain ⟨_, _, _, _, rfl⟩ := h
  obtain ⟨_, _, _, _, rfl⟩ := g
  exact ⟨_, _, _, _, rfl⟩

theorem Reports.stores {s t : State} (h : Reports s t) : Stores s t := by
  obtain ⟨_, _, rfl⟩ := h
  exact ⟨_, _, _, _, rfl⟩

theorem OnlyShadow.stores {s t : State} (h : OnlyShadow s t) : Stores s t := by
  obtain ⟨_, rfl⟩ := h
  exact ⟨_, _, _, _, rfl⟩

theorem stores_setQueue (s : State) (a : Nat) (q : List HoldEntry) : Stores s (s.setQueue a q) := ⟨_, _, _, _, rfl⟩

theorem Stores.runtime {s t : State} (h : Stores s t) (a : Nat) : t.runtime a = s.runtime a := by
  obtain ⟨_, _, _, _, rfl⟩ := h
  rfl

theorem Stores.entry {s t : State} (h : Stores s t) (a : Nat) : t.entry a = s.entry a := by
  obtain ⟨_, _, _, _, rfl⟩ := h
  rfl

theorem Stores.nodeState {s t : State} (h : Stores s t) (a : Nat) : t.nodeState a = s.nodeState a := by
  obtain ⟨_, _, _, _, rfl⟩ := h
  rfl

theorem stores_forNodes {f : Nat → State → State} (hf : ∀ a s, Stores s (f a s)) (l : List Nat) (s : State) :
    Stores s (forNodes l f s) :=
  forNodes_keeps (P := Stores s) (fun a t h => h.trans (hf a t)) l (.refl s)

/-! ### A capture (R112, R115, R116) -/

theorem poolSlot_of_entry {s : State} {a : Nat} {n : NodeEntry} (hn : s.entry a = some n) {k : Nat} (hk : k < n.shadowCount) :
    s.poolSlot a k = some (n.shadowBase + k) := by
  rw [State.poolSlot, hn]; exact if_pos hk

theorem poolSlot_beyond {s : State} {a : Nat} {n : NodeEntry} (hn : s.entry a = some n) {k : Nat} (hk : n.shadowCount ≤ k) :
    s.poolSlot a k = none := by
  rw [State.poolSlot, hn]; exact if_neg (by omega)

/-- The record that a capture writes. -/
def capturedRecord (a k : Nat) (c : CapturedFrame) (marked : Bool) : ShadowRecord :=
  { node := a, relative := k, rule := c.rule, policy := c.policy, kind := c.kind, function := c.function
    payload := c.payload, marked := marked }

/-- What a capture into slot `i` of node `a` leaves: the record, the slot at the tail of the list, the replaced mark of a replay of
that slot where the capture marks; and nothing else. -/
structure Captured (s t : State) (a i : Nat) (record : ShadowRecord) (mark : Bool) : Prop where
  frame : OnlyShadow s t
  missCount : t.shadow.missCount = s.shadow.missCount
  slots : ∀ j, t.slot j = if j = i ∧ i < 96 then some record else s.slot j
  lists : ∀ b, t.replayList b =
    if a = b ∧ isAddress a = true then (s.replayList a).filter (fun j => decide (j ≠ i)) ++ [i] else s.replayList b
  flights : ∀ b, t.replayInFlight b =
    if a = b then (s.replayInFlight a).map (fun g => if mark = true ∧ g.slot = i then { g with replaced := true } else g)
    else s.replayInFlight b

/-- A marking capture sets the replaced mark of a replay of its slot (R115). -/
theorem Captured.flight {s t : State} {a i : Nat} {r : ShadowRecord} (h : Captured s t a i r true) :
    t.replayInFlight a = (s.replayInFlight a).map (fun g => if g.slot = i then { g with replaced := true } else g) := by
  rw [h.flights, if_pos rfl]
  simp only [true_and]

theorem filter_ne_eq (l : List Nat) (i : Nat) : l.filter (· != i) = l.filter (fun j => decide (j ≠ i)) := by
  congr 1
  funext j
  simp [bne]
  rfl

theorem isAddress_of_replayInFlight {s : State} {a : Nat} {g : ReplayInFlight} (h : s.replayInFlight a = some g) :
    isAddress a = true := by
  unfold State.replayInFlight atNode at h
  by_cases ha : a = 0
  · simp [ha] at h
  · have : a - 1 < 30 := by
      by_contra hc
      simp [ha, Vector.getElem?_eq_none (Nat.le_of_not_lt hc)] at h
    exact isAddress_eq_true (by omega) (by omega)

theorem markReplaced_spec (a i : Nat) (s : State) :
    OnlyShadow s (markReplaced a i s) ∧ (markReplaced a i s).shadow.slots = s.shadow.slots
      ∧ (markReplaced a i s).shadow.lists = s.shadow.lists ∧ (markReplaced a i s).shadow.missCount = s.shadow.missCount
      ∧ ∀ b, (markReplaced a i s).replayInFlight b =
          if a = b then (s.replayInFlight a).map (fun g => if g.slot = i then { g with replaced := true } else g)
          else s.replayInFlight b := by
  unfold markReplaced
  cases hg : s.replayInFlight a with
  | none =>
    refine ⟨⟨s.shadow, rfl⟩, rfl, rfl, rfl, fun b => ?_⟩
    by_cases hb : a = b
    · rw [if_pos hb, ← hb]; exact hg
    · rw [if_neg hb]
  | some g =>
    dsimp only [Option.map]
    by_cases hi : g.slot = i
    · rw [if_pos hi]
      refine ⟨⟨_, rfl⟩, rfl, rfl, rfl, fun b => ?_⟩
      rw [replayInFlight_setReplayInFlight]
      simp [hi, isAddress_of_replayInFlight hg]
    · rw [if_neg hi]
      refine ⟨⟨s.shadow, rfl⟩, rfl, rfl, rfl, fun b => ?_⟩
      split
      · rename_i h; rw [← h, hg]
      · rfl

theorem capture_spec {s : State} {a k i : Nat} (hi : s.poolSlot a k = some i) (c : CapturedFrame) (mark : Bool) :
    (capture a k c mark s).2 = true
      ∧ Captured s (capture a k c mark s).1 a i (capturedRecord a k c (mark || s.slotPending i)) mark := by
  unfold capture
  rw [hi]
  refine ⟨rfl, ?_⟩
  dsimp only
  have hlist : ∀ b, ((s.setSlot i (some (capturedRecord a k c (mark || s.slotPending i)))).setReplayList a
      ((s.replayList a).filter (fun j => decide (j ≠ i)) ++ [i])).replayList b =
      if a = b ∧ isAddress a = true then (s.replayList a).filter (fun j => decide (j ≠ i)) ++ [i] else s.replayList b :=
    fun b => replayList_setReplayList _ a b _
  cases mark with
  | false =>
    refine ⟨⟨_, rfl⟩, rfl, fun j => slot_setSlot_index s i j _, fun b => ?_, fun b => ?_⟩
    · rw [← hlist, ← filter_ne_eq]; rfl
    · simp only [Bool.false_eq_true, false_and, if_false, Option.map_id']
      split
      · rename_i h; rw [← h]; rfl
      · rfl
  | true =>
    obtain ⟨⟨x, hframe⟩, hslots, hlists, hmiss, hflights⟩ := markReplaced_spec a i
      ((s.setSlot i (some (capturedRecord a k c (true || s.slotPending i)))).setReplayList a
        ((s.replayList a).filter (· != i) ++ [i]))
    refine ⟨⟨x, hframe⟩, hmiss, fun j => ?_, fun b => ?_, fun b => ?_⟩
    · exact (congrArg (fun v : Vector (Option ShadowRecord) 96 => (v[j]?).join) hslots).trans (slot_setSlot_index s i j _)
    · rw [← hlist, ← filter_ne_eq]
      exact congrArg (fun v => (atNode v b).getD []) hlists
    · refine (hflights b).trans ?_
      simp only [true_and]
      rfl

/-- A shadow miss is counted, raises SHADOW_MISS and writes nothing (R116). -/
theorem shadowMiss_spec (s : State) :
    (shadowMiss s).flagSet .shadowMiss = true ∧ (shadowMiss s).shadow = { s.shadow with missCount := s.shadow.missCount + 1 }
      ∧ (shadowMiss s).hold = s.hold ∧ Stores s (shadowMiss s) := by
  have hreport := reports_raiseFlag .shadowMiss (s.withShadow { s.shadow with missCount := s.shadow.missCount + 1 })
  exact ⟨flagSet_raiseFlag .shadowMiss _, hreport.sameBlocks.shadow, hreport.sameBlocks.hold,
    Stores.trans ⟨_, _, _, _, rfl⟩ hreport.stores⟩

theorem capture_miss {s : State} {a k : Nat} (h : s.poolSlot a k = none) (c : CapturedFrame) (mark : Bool) :
    capture a k c mark s = (shadowMiss s, false) := by
  rw [capture, h]

theorem stores_capture (a k : Nat) (c : CapturedFrame) (mark : Bool) (s : State) : Stores s (capture a k c mark s).1 := by
  cases hi : s.poolSlot a k with
  | none => rw [capture_miss hi]; exact (shadowMiss_spec s).2.2.2
  | some i => exact (capture_spec hi c mark).2.frame.stores

theorem stores_captureLatest (a : Nat) (slot : Option Nat) (c : CapturedFrame) (s : State) :
    Stores s (captureLatest a slot c s).1 := by
  cases slot with
  | none => exact .refl s
  | some k => exact stores_capture a k c true s

/-- A capture leaves the Hold Pool. -/
theorem hold_capture (a k : Nat) (c : CapturedFrame) (mark : Bool) (s : State) : (capture a k c mark s).1.hold = s.hold := by
  cases hi : s.poolSlot a k with
  | none => rw [capture_miss hi]; exact (shadowMiss_spec s).2.2.1
  | some i =>
    obtain ⟨x, hx⟩ := (capture_spec hi c mark).2.frame
    rw [hx]; rfl

theorem hold_captureLatest (a : Nat) (slot : Option Nat) (c : CapturedFrame) (s : State) :
    (captureLatest a slot c s).1.hold = s.hold := by
  cases slot with
  | none => rfl
  | some k => exact hold_capture a k c true s

/-! ### An append to a hold queue (R128) -/

/-- The hold queue of a configured node takes one more entry. -/
def State.Holds (s : State) (a : Nat) (n : NodeEntry) : Prop := (s.queue a).length < n.holdCap ∧ 0 < s.holdFree

theorem appendHold_made {s : State} {a : Nat} {n : NodeEntry} (hn : s.entry a = some n) (h : s.Holds a n) (x : HeldFrame) :
    appendHold a x s = (s.setQueue a (s.queue a ++ [newHoldEntry a x s.now n.holdLifetime]), true) := by
  rw [appendHold, hn]; exact if_pos h

theorem appendHold_full {s : State} {a : Nat} {n : NodeEntry} (hn : s.entry a = some n)
    (h : n.holdCap ≤ (s.queue a).length ∨ s.holdFree = 0) (x : HeldFrame) : appendHold a x s = (s, false) := by
  rw [appendHold, hn]; exact if_neg (by omega)

theorem appendHold_unconfigured {s : State} {a : Nat} (hn : s.entry a = none) (x : HeldFrame) :
    appendHold a x s = (s, false) := by rw [appendHold, hn]

theorem stores_appendHold (a : Nat) (x : HeldFrame) (s : State) : Stores s (appendHold a x s).1 := by
  unfold appendHold
  split
  · split
    · exact stores_setQueue s a _
    · exact .refl s
  · exact .refl s

theorem shadow_appendHold (a : Nat) (x : HeldFrame) (s : State) : (appendHold a x s).1.shadow = s.shadow := by
  unfold appendHold
  split
  · split <;> rfl
  · rfl

/-! ### Frames that stand in egress (R181) -/

/-- A frame that stands in egress still stands there at the end of the command. -/
theorem State.Shows.endCommand {s : State} {i : Nat} {f : TrunkFrame} (h : s.Shows i f) :
    (Machine.endCommand s).Shows i f := by
  have hshows : ∀ j, (∃ g, s.trunk.egress[j]? = some (.waiting g)) → ∀ g, s.trunk.egress[j]? = some (.waiting g) →
      (s.trunk.egress.setIfInBounds j (.sending g))[i]? = some (.waiting f)
        ∨ (s.trunk.egress.setIfInBounds j (.sending g))[i]? = some (.sending f) := by
    rintro j - g hg
    rw [Vector.getElem?_setIfInBounds]
    by_cases hij : j = i
    · have hi : i < 24 := by
        by_contra hc
        rw [hij, Vector.getElem?_eq_none (Nat.le_of_not_lt hc)] at hg
        cases hg
      rw [if_pos hij, if_pos (by omega)]
      obtain hw | hw := h <;> rw [← hij, hg] at hw <;> cases hw
      exact .inr rfl
    · rw [if_neg hij]; exact h
  unfold State.Shows
  rw [endCommand_transmit]
  dsimp only
  unfold transmit
  split
  · exact h
  · split
    · exact h
    · split
      · rename_i g hg; exact hshows _ ⟨g, hg⟩ g hg
      · exact h

/-- A frame that fills its reserved entry stands in egress. -/
theorem shows_enqueue {i : Nat} (hi : i < 24) (s : State) (f : TrunkFrame) : (s.enqueue i f).Shows i f := by
  left
  simp [State.enqueue, hi]

/-! ### The take and the classification of a SEGMENT REQUEST (R94, R96, R97) -/

theorem parseSegmentRequest_fields {f : TrunkFrame} {q : SegmentRequest} (h : parseSegmentRequest f = some q) :
    q.tag = f.tag ∧ (q.kind = .broadcast ↔ q.destination = 31) := by
  refine ⟨((segmentRequestFieldTests f).2 q h).1, ?_⟩
  have hlong : ¬ f.body.length < 3 := fun hs => by rw [parseSegmentRequest_of_short hs] at h; cases h
  obtain ⟨d, k, fn, payload, hb⟩ : ∃ d k fn payload, f.body = d :: k :: fn :: payload := by
    match hb : f.body with
    | [] | [_] | [_, _] => rw [hb] at hlong; simp at hlong
    | d :: k :: fn :: payload => exact ⟨d, k, fn, payload, rfl⟩
  unfold parseSegmentRequest at h
  rw [hb] at h
  dsimp only at h
  split at h
  · cases h
  · split at h
    · rename_i hvalid
      cases h
      exact hvalid.2.2.2.2
    · cases h

theorem countMatch_only (ref : RuleRef) (n : Nat) (s : State) : ∃ c, countMatch ref n s = s.withCounters c := by
  unfold countMatch
  split
  · exact ⟨_, rfl⟩
  · split
    · exact ⟨_, rfl⟩
    · exact ⟨s.counters, rfl⟩

theorem countMatch_reserved (ref : RuleRef) (n : Nat) (s : State) (rest : List TrunkFrame) (i : Nat) :
    countMatch ref n (s.reserved rest i) = (countMatch ref n s).reserved rest i := by
  unfold countMatch
  have hcounters : (s.reserved rest i).counters = s.counters := rfl
  cases ref with
  | defaultRule => rfl
  | rule j => dsimp only; rw [hcounters]; split <;> rfl

section
variable {s : State} {f : TrunkFrame} {rest : List TrunkFrame} {i : Nat} {q : SegmentRequest}

/-- The state on which a request is disposed of: its rule counted, the head of ingress taken. -/
def State.matchedFor (s : State) (q : SegmentRequest) (rest : List TrunkFrame) (i : Nat) : State :=
  (countMatch (s.tables.matched q).ref q.payload.length s).reserved rest i

theorem State.Heads.exec_malformed (h : s.Heads f rest i) (hkind : f.kind = 0x01) (hq : parseSegmentRequest f = none) :
    exec .segmentRequest s = .next (endCommand (s.answered rest i (segmentAnswer f.tag .malformed []))) := by
  show happens (segmentRequest s) s = _
  rw [segmentRequest, h.take]
  dsimp only
  rw [if_pos (show f.kind = segmentRequestKind from hkind), hq]
  exact took_congr (State.reserved_enqueue ..)

variable (h : s.Heads f rest i) (hkind : f.kind = 0x01) (hq : parseSegmentRequest f = some q)
include h hkind hq

theorem State.Heads.exec_classify : exec .segmentRequest s = took (classifyRequest q i (s.reserved rest i)) := by
  show happens (segmentRequest s) s = _
  rw [segmentRequest, h.take]
  dsimp only
  rw [if_pos (show f.kind = segmentRequestKind from hkind), hq]
  rfl

theorem State.Heads.exec_discard (hverdict : (s.tables.matched q).action.verdict = .discard) :
    exec .segmentRequest s =
      took ((countMatch (s.tables.matched q).ref q.payload.length s).answered rest i (segmentAnswer q.tag .filtered [])) := by
  rw [h.exec_classify hkind hq]
  unfold classifyRequest
  have hm : (s.reserved rest i).tables.matched q = s.tables.matched q := rfl
  dsimp only
  rw [hm, hverdict, countMatch_reserved]
  exact took_congr (State.reserved_enqueue ..)

theorem State.Heads.exec_unicast (hkindq : q.kind ≠ .broadcast) (hverdict : (s.tables.matched q).action.verdict = .forward) :
    exec .segmentRequest s =
      took (disposeUnicast (newPassEntry q (s.tables.matched q) i []) (s.matchedFor q rest i)) := by
  rw [h.exec_classify hkind hq]
  unfold classifyRequest
  have hm : (s.reserved rest i).tables.matched q = s.tables.matched q := rfl
  dsimp only
  rw [hm, hverdict, countMatch_reserved]
  exact took_congr (if_neg hkindq)

theorem State.Heads.exec_broadcast (hkindq : q.kind = .broadcast) (hverdict : (s.tables.matched q).action.verdict = .forward) :
    exec .segmentRequest s =
      took (disposeBroadcast (newPassEntry q (s.tables.matched q) i []) (s.tables.matched q).set (s.matchedFor q rest i)) := by
  rw [h.exec_classify hkind hq]
  unfold classifyRequest
  have hm : (s.reserved rest i).tables.matched q = s.tables.matched q := rfl
  dsimp only
  rw [hm, hverdict, countMatch_reserved]
  exact took_congr (if_pos hkindq)

end

/-! ### Disposition by the destination's state (R98) -/

theorem disposeUnicast_holds {e : PassEntry} {s : State}
    (h : ((s.nodeState e.destination).isAbsent = true ∧ e.action.absent = .queue)
      ∨ (s.nodeState e.destination = .release ∧ e.action.absent = .refuse)) : disposeUnicast e s = disposeHold e s := by
  unfold disposeUnicast
  obtain ⟨habsent, hpolicy⟩ | ⟨hstate, hpolicy⟩ := h
  · cases hstate : s.nodeState e.destination <;> simp_all [NodeState.isAbsent]
  · rw [hstate, hpolicy]

theorem disposeUnicast_latest {e : PassEntry} {s : State} (habsent : (s.nodeState e.destination).isAbsent = true)
    (hpolicy : e.action.absent = .latest) : disposeUnicast e s = disposeLatest e s := by
  unfold disposeUnicast
  cases hstate : s.nodeState e.destination <;> simp_all [NodeState.isAbsent]

theorem disposeUnicast_refuse {e : PassEntry} {s : State} (habsent : (s.nodeState e.destination).isAbsent = true)
    (hrelease : s.nodeState e.destination ≠ .release) (hpolicy : e.action.absent = .refuse) :
    disposeUnicast e s = answerPass e s.refuseCode [] s := by
  unfold disposeUnicast
  cases hstate : s.nodeState e.destination <;> simp_all [NodeState.isAbsent]

theorem disposeUnicast_pass {e : PassEntry} {s : State}
    (h : s.nodeState e.destination = .unconfigured ∨ s.nodeState e.destination = .online) :
    disposeUnicast e s = disposePass e s := by
  unfold disposeUnicast
  obtain h | h := h <;> rw [h]

section
variable {e : PassEntry} {s : State} {n : NodeEntry} (hn : s.entry e.destination = some n)
include hn

theorem disposeHold_made (h : s.Holds e.destination n) :
    disposeHold e s =
      answerPass e .held []
        (s.setQueue e.destination
          (s.queue e.destination ++ [newHoldEntry e.destination (e.held (some e.tag)) s.now n.holdLifetime])) := by
  rw [disposeHold, appendHold_made hn h]; rfl

theorem disposeHold_full (h : n.holdCap ≤ (s.queue e.destination).length ∨ s.holdFree = 0) :
    disposeHold e s = answerPass e .holdFull [] s := by
  rw [disposeHold, appendHold_full hn h]; rfl

variable {k : Nat} (hslot : e.action.slot = some k)
include hslot

theorem disposeLatest_stored (hk : k < n.shadowCount) :
    disposeLatest e s = answerPass e .stored [] (capture e.destination k e.captured true s).1 := by
  have htrue := (capture_spec (poolSlot_of_entry hn hk) e.captured true).1
  have hlatest : captureLatest e.destination (some k) e.captured s = capture e.destination k e.captured true s := rfl
  rw [disposeLatest, hslot, hlatest, if_pos htrue]

theorem disposeLatest_miss (hk : n.shadowCount ≤ k) : disposeLatest e s = answerPass e .holdFull [] (shadowMiss s) := by
  have hlatest : captureLatest e.destination (some k) e.captured s = (shadowMiss s, false) :=
    capture_miss (poolSlot_beyond hn hk) ..
  rw [disposeLatest, hslot, hlatest]
  rfl

end

/-- Settles O19: a case for each group of states, each answered through the take's reservation or queued at a tail. -/
theorem unicastDispositionByNodeState : Obligations.UnicastDispositionByNodeState := by
  intro s f rest i q h hkind hq hunicast hverdict m u st answer e
  have hexec := h.exec_unicast hkind hq hunicast hverdict
  obtain ⟨htag, -⟩ := parseSegmentRequest_fields hq
  have he : newPassEntry q (s.tables.matched q) i [] = e := by simp only [newPassEntry, htag]; rfl
  have hu : s.matchedFor q rest i = u.reserved rest i := rfl
  obtain ⟨c, hc⟩ : ∃ c, u = s.withCounters c := countMatch_only ..
  rw [he, hu] at hexec
  have hst : (u.reserved rest i).nodeState e.destination = st := by rw [hc]; rfl
  have hlength : (u.reserved rest i).passLength = s.passLength := by rw [hc]; rfl
  have hsegment : u.segment = s.segment := by rw [hc]; rfl
  have hgap : (u.reserved rest i).gapInProgress = s.gapInProgress := by rw [hc]; rfl
  have hanswer : ∀ code, answerPass e code [] (u.reserved rest i) =
      u.answered rest i { kind := 0x41, tag := f.tag, outcome := code.code, body := [] } :=
    fun code => State.reserved_enqueue u rest i _
  have hpass := fun hpass => disposeUnicast_pass (e := e) (s := u.reserved rest i) (by rwa [hst])
  have hqueued : (st = .unconfigured ∨ st = .online) → s.passLength < 32 →
      disposeUnicast e (u.reserved rest i) = appendPass e (u.reserved rest i) := fun hstate hroom =>
    (hpass hstate).trans (if_pos (by rwa [hlength]))
  refine ⟨fun hstate hroom hurgency => ?_, fun hstate hroom hurgency => ?_, fun hstate hfull => ?_, fun hstate => ?_,
    fun hstate => ?_, fun habsent hrelease hpolicy hgapless => ?_, fun habsent hrelease hpolicy hgapped => ?_⟩
  all_goals refine hexec.trans ?_
  · rw [hqueued hstate hroom, appendPass, hurgency, ← hsegment]; rfl
  · rw [hqueued hstate hroom, appendPass, hurgency, ← hsegment]; rfl
  · rw [hpass hstate, disposePass, if_neg (by omega)]
    exact took_congr (hanswer .queueFull)
  · rw [disposeUnicast, hst, hstate]
    exact took_congr (hanswer .nodeFailed)
  · rw [disposeUnicast, hst, hstate]
    exact took_congr (hanswer .nodeIsolated)
  · rw [disposeUnicast_refuse (by rwa [hst]) (by rwa [hst]) hpolicy, State.refuseCode, hgap, hgapless]
    exact took_congr (hanswer .noReply)
  · rw [disposeUnicast_refuse (by rwa [hst]) (by rwa [hst]) hpolicy, State.refuseCode, hgap, hgapped]
    exact took_congr (hanswer .noReplyGap)

/-- Settles O20: an append to the hold queue, or a marked capture, answered through the take's reservation. -/
theorem absentNodeHoldsOrStoresRequest : Obligations.AbsentNodeHoldsOrStoresRequest := by
  intro s f rest i q n h hkind hq hunicast hverdict hn m a u held holds
  have hexec := h.exec_unicast hkind hq hunicast hverdict
  obtain ⟨htag, -⟩ := parseSegmentRequest_fields hq
  let e : PassEntry := newPassEntry q (s.tables.matched q) i []
  have hetag : e.tag = f.tag := htag
  obtain ⟨c, hc⟩ : ∃ c, u = s.withCounters c := countMatch_only ..
  have hmatched : s.matchedFor q rest i = (s.withCounters c).reserved rest i := congrArg (State.reserved · rest i) hc
  have hheld : newHoldEntry a (e.held (some e.tag)) s.now n.holdLifetime = held := by rw [hetag]; rfl
  rw [hmatched] at hexec
  let v : State := (s.withCounters c).reserved rest i
  have hnv : v.entry e.destination = some n := hn
  have hanswer : ∀ (code : AnswerCode) (v : State), answerPass e code [] (v.reserved rest i) =
      v.answered rest i { kind := 0x41, tag := f.tag, outcome := code.code, body := [] } := fun code v => by
    rw [← hetag]; exact State.reserved_enqueue v rest i _
  refine ⟨fun hholds hroom hfree => ?_, fun hholds hfull => ?_, fun k habsent hpolicy hslot hk hpool => ?_⟩
  · rw [hexec, disposeUnicast_holds hholds, disposeHold_made hnv ⟨hroom, hfree⟩, hc, ← hheld]
    exact took_congr (hanswer .held ((s.withCounters c).setQueue a _))
  · rw [hexec, disposeUnicast_holds hholds, disposeHold_full hnv hfull, hc]
    exact took_congr (hanswer .holdFull _)
  · have hcaptured := (capture_spec (poolSlot_of_entry hnv hk) e.captured true).2
    rw [disposeUnicast_latest habsent hpolicy, disposeLatest_stored hnv hslot hk] at hexec
    have hmade : ∀ j, j = n.shadowBase + k ∧ n.shadowBase + k < 96 ↔ j = n.shadowBase + k := fun j => by omega
    refine ⟨_, hexec, ?_, ?_, fun j hj => ?_, ?_, ?_, ?_, fun b hb => ?_, ?_, ?_⟩
    case refine_9 =>
      refine State.Shows.endCommand ?_
      rw [← hetag]
      exact shows_enqueue (freeEntry_eq_some h.2).1 _ _
    all_goals rw [endCommand_transmit]
    · exact (hcaptured.slots _).trans (if_pos ((hmade _).2 rfl))
    · exact (hcaptured.lists a).trans (if_pos ⟨rfl, isAddress_of_entry hn⟩)
    · exact (hcaptured.slots j).trans (if_neg (hj ∘ And.left))
    · exact hold_capture ..
    · obtain ⟨x, hx⟩ := hcaptured.frame; show State.restore (Prod.fst _) = _; rw [hx]; rfl
    · exact hcaptured.flight
    · exact (hcaptured.flights b).trans (if_neg (Ne.symm hb))
    · obtain ⟨x, hx⟩ := hcaptured.frame; show State.segment (Prod.fst _) = _; rw [hx]; rfl

/-! ### The room in the pool (R127) -/

/-- A sum over a list without repeats whose terms change at one member. -/
theorem sum_map_change {l : List Nat} (hl : l.Nodup) {a : Nat} (ha : a ∈ l) {f g : Nat → Nat} (hfg : ∀ b, b ≠ a → g b = f b) :
    (l.map g).sum + f a = (l.map f).sum + g a := by
  have hrest : (l.erase a).map g = (l.erase a).map f :=
    List.map_congr_left fun b hb => hfg b (fun h => hl.not_mem_erase (a := a) (h ▸ hb))
  have hf := List.sum_map_erase f ha
  have hg := List.sum_map_erase g ha
  rw [hrest] at hg
  omega

/-- The entries in use in the pool. -/
def State.heldCount (s : State) : Nat := (addresses.map (fun a => (s.queue a).length)).sum

theorem holdFree_eq (s : State) : s.holdFree = 128 - s.heldCount := rfl

theorem heldCount_setQueue (s : State) {a : Nat} (ha : isAddress a = true) (q : List HoldEntry) :
    (s.setQueue a q).heldCount + (s.queue a).length = s.heldCount + q.length := by
  have hself : (s.setQueue a q).queue a = q := (queue_setQueue ..).trans (if_pos ⟨rfl, ha⟩)
  have hsum := sum_map_change addresses_nodup (mem_addresses ha) (f := fun b => (s.queue b).length)
    (g := fun b => ((s.setQueue a q).queue b).length) fun b hb => by
      rw [queue_setQueue, if_neg fun h => hb h.1.symm]
  rwa [hself] at hsum

theorem heldCount_appendHold_le (a : Nat) (x : HeldFrame) (s : State) :
    (appendHold a x s).1.heldCount ≤ s.heldCount + 1 := by
  unfold appendHold
  split
  · rename_i e hn
    split
    · have := heldCount_setQueue s (isAddress_of_entry hn) (s.queue a ++ [newHoldEntry a x s.now e.holdLifetime])
      rw [List.length_append, List.length_singleton] at this
      dsimp only
      omega
    · exact Nat.le_succ _
  · exact Nat.le_succ _

/-! ### The absent members of a broadcast (R104) -/

theorem stores_absentTreatment (e : PassEntry) (a : Nat) (s : State) : Stores s (absentTreatment e a s) := by
  unfold absentTreatment
  split
  · exact stores_appendHold ..
  · exact stores_captureLatest ..
  · exact .refl s

theorem appendHold_queue_other {a b : Nat} (hab : b ≠ a) (x : HeldFrame) (s : State) :
    (appendHold b x s).1.queue a = s.queue a := by
  unfold appendHold
  split
  · split
    · exact (queue_setQueue ..).trans (if_neg fun h => hab h.1)
    · rfl
  · rfl

/-- Under QUEUE each absent member whose cap allows gets a copy at the tail of its queue, while the pool has room for them all. -/
theorem queue_walk_held (e : PassEntry) (hpolicy : e.action.absent = .queue) {a : Nat} {n : NodeEntry} (l : List Nat)
    (hl : l.Nodup) (s : State) (hn : s.entry a = some n) (hfree : l.length ≤ s.holdFree) :
    (forNodes l (absentTreatment e) s).queue a =
      if a ∈ l ∧ (s.queue a).length < n.holdCap then s.queue a ++ [newHoldEntry a (e.held none) s.now n.holdLifetime]
      else s.queue a := by
  induction l generalizing s with
  | nil => simp [forNodes]
  | cons b l ih =>
    obtain ⟨hb, hl⟩ := List.nodup_cons.mp hl
    have hmade : absentTreatment e b s = (appendHold b (e.held none) s).1 := by rw [absentTreatment, hpolicy]
    have hstores := stores_absentTreatment e b s
    have hnow : (absentTreatment e b s).now = s.now := congrArg Quiet.clock (absentTreatment_quiet s e b)
    have hfree' : l.length ≤ (absentTreatment e b s).holdFree := by
      have := heldCount_appendHold_le b (e.held none) s
      rw [hmade]
      rw [holdFree_eq] at hfree ⊢
      rw [List.length_cons] at hfree
      omega
    have hrest := ih hl (absentTreatment e b s) ((hstores.entry a).trans hn) hfree'
    show (forNodes l (absentTreatment e) (absentTreatment e b s)).queue a = _
    rw [hrest, hnow]
    by_cases hab : b = a
    · subst hab
      rw [if_neg (fun h => hb h.1), hmade]
      by_cases hcap : (s.queue b).length < n.holdCap
      · rw [if_pos ⟨List.mem_cons_self, hcap⟩, appendHold_made hn ⟨hcap, by rw [List.length_cons] at hfree; omega⟩]
        exact (queue_setQueue ..).trans (if_pos ⟨rfl, isAddress_of_entry hn⟩)
      · rw [if_neg fun h => hcap h.2, appendHold_full hn (.inl (by omega))]
    · have hsame : (absentTreatment e b s).queue a = s.queue a := by rw [hmade, appendHold_queue_other hab]
      have hmem : a ∈ b :: l ↔ a ∈ l := by simp [Ne.symm hab]
      rw [hsame]
      simp only [hmem]

theorem absentTreatment_latest (e : PassEntry) (hpolicy : e.action.absent = .latest) {k : Nat}
    (hslot : e.action.slot = some k) (a : Nat) (s : State) :
    absentTreatment e a s = (capture a k e.captured true s).1 := by
  rw [absentTreatment, hpolicy, hslot]
  rfl

/-- Another node's capture outside slot `i` leaves slot `i` and the records of `a`. -/
theorem capture_other {a b i k : Nat} (hab : b ≠ a) {s : State} (hi : s.poolSlot b k ≠ some i) (c : CapturedFrame) (mark : Bool) :
    let t := (capture b k c mark s).1
    t.slot i = s.slot i ∧ t.replayList a = s.replayList a ∧ t.replayInFlight a = s.replayInFlight a := by
  cases hj : s.poolSlot b k with
  | none =>
    rw [capture_miss hj]
    have hshadow := (shadowMiss_spec s).2.1
    unfold State.slot State.replayList State.replayInFlight
    dsimp only
    rw [hshadow]
    exact ⟨rfl, rfl, rfl⟩
  | some j =>
    have hcaptured := (capture_spec hj c mark).2
    have hij : i ≠ j := fun h => hi (h ▸ hj)
    exact ⟨(hcaptured.slots i).trans (if_neg fun h => hij h.1), (hcaptured.lists a).trans (if_neg fun h => hab h.1),
      (hcaptured.flights a).trans (if_neg hab)⟩

/-- Under LATEST an absent member whose slot no other member shares gets the frame there. -/
theorem slot_walk_latest (e : PassEntry) (hpolicy : e.action.absent = .latest) {k : Nat} (hslot : e.action.slot = some k)
    {a : Nat} {n : NodeEntry} {s : State} (hn : s.entry a = some n) (hk : k < n.shadowCount) (hpool : n.shadowBase + k < 96)
    (halone : ∀ b d, b ≠ a → s.entry b = some d → d.shadowBase ≠ n.shadowBase) (l : List Nat) (hl : l.Nodup) (ha : a ∈ l) :
    let t := forNodes l (absentTreatment e) s
    t.slot (n.shadowBase + k) = some (capturedRecord a k e.captured true)
      ∧ t.replayList a = (s.replayList a).filter (fun j => decide (j ≠ n.shadowBase + k)) ++ [n.shadowBase + k]
      ∧ t.replayInFlight a =
          (s.replayInFlight a).map (fun g => if g.slot = n.shadowBase + k then { g with replaced := true } else g) := by
  have hother : ∀ b t, a ≠ b → Stores s t →
      (absentTreatment e b t).slot (n.shadowBase + k) = t.slot (n.shadowBase + k)
        ∧ (absentTreatment e b t).replayList a = t.replayList a
        ∧ (absentTreatment e b t).replayInFlight a = t.replayInFlight a := by
    intro b t hab ht
    rw [absentTreatment_latest e hpolicy hslot]
    refine capture_other (Ne.symm hab) (fun hb => ?_) e.captured true
    unfold State.poolSlot at hb
    rw [ht.entry] at hb
    split at hb
    · rename_i d hd
      split at hb
      · injection hb with hb
        exact halone b d (Ne.symm hab) hd (by omega)
      · cases hb
    · cases hb
  refine forNodes_each
    (P := fun b t => b = a → Stores s t ∧ t.replayList a = s.replayList a ∧ t.replayInFlight a = s.replayInFlight a)
    (Q := fun b t => b = a → Stores s t ∧ (t.slot (n.shadowBase + k) = some (capturedRecord a k e.captured true)
      ∧ t.replayList a = (s.replayList a).filter (fun j => decide (j ≠ n.shadowBase + k)) ++ [n.shadowBase + k]
      ∧ t.replayInFlight a =
          (s.replayInFlight a).map (fun g => if g.slot = n.shadowBase + k then { g with replaced := true } else g)))
    ?_ ?_ ?_ l hl s (fun b _ _ => ⟨.refl s, rfl, rfl⟩) a ha rfl |>.2
  · rintro b t h rfl
    obtain ⟨ht, hlist, hflight⟩ := h rfl
    have hcaptured := (capture_spec (poolSlot_of_entry ((ht.entry b).trans hn) hk) e.captured true).2
    refine ⟨ht.trans (stores_absentTreatment e b t), ?_⟩
    rw [absentTreatment_latest e hpolicy hslot, ← hlist, ← hflight]
    exact ⟨(hcaptured.slots _).trans (if_pos ⟨rfl, hpool⟩), (hcaptured.lists b).trans (if_pos ⟨rfl, isAddress_of_entry hn⟩),
      hcaptured.flight⟩
  · rintro c b t hcb h rfl
    obtain ⟨ht, hlist, hflight⟩ := h rfl
    obtain ⟨-, hlist', hflight'⟩ := hother b t hcb ht
    exact ⟨ht.trans (stores_absentTreatment e b t), hlist'.trans hlist, hflight'.trans hflight⟩
  · rintro c b t hcb h rfl
    obtain ⟨ht, hslot, hlist, hflight⟩ := h rfl
    obtain ⟨hslot', hlist', hflight'⟩ := hother b t hcb ht
    exact ⟨ht.trans (stores_absentTreatment e b t), hslot'.trans hslot, hlist'.trans hlist, hflight'.trans hflight⟩

/-! ### A FORWARDed broadcast (R103) -/

/-- The segment after an entry has joined the sub-queue that its urgency names. -/
theorem segment_appendPass (e : PassEntry) (s : State) :
    (appendPass e s).segment = match e.action.urgency with
      | .urgent => { s.segment with urgent := s.segment.urgent ++ [e] }
      | .normal => { s.segment with normal := s.segment.normal ++ [e] } := by
  unfold appendPass
  cases e.action.urgency <;> rfl

/-- An entry that joins the pass queue changes the Segment Master only. -/
theorem appendPass_only (e : PassEntry) (s : State) : ∃ x, appendPass e s = s.withSegment x := by
  unfold appendPass
  split <;> exact ⟨_, rfl⟩

/-- What a queued broadcast leaves: the walk over its absent members, and the entry at its tail. -/
theorem disposeBroadcast_queued {e : PassEntry} {set : Option Nat} {s : State} (h : s.passLength < 32) :
    disposeBroadcast e set s =
      appendPass
        { e with live := addresses.filter (fun a => decide (a ∈ s.tables.members set ∧ s.nodeState a = .online)) }
        (forNodes (addresses.filter (fun a => decide (a ∈ s.tables.members set) && (s.nodeState a).isAbsent))
          (absentTreatment e) s) := by
  unfold disposeBroadcast
  rw [if_pos h]
  dsimp only
  rw [addressSet_eq_filter, List.filter_filter, List.filter_filter]
  have hlive : ∀ a, (s.nodeState a == .online && decide (a ∈ s.tables.members set)) =
      decide (a ∈ s.tables.members set ∧ s.nodeState a = .online) := fun a => by
    rw [Bool.decide_and, Bool.and_comm]; rfl
  have haway : ∀ a, ((s.nodeState a).isAbsent && decide (a ∈ s.tables.members set)) =
      (decide (a ∈ s.tables.members set) && (s.nodeState a).isAbsent) := fun a => Bool.and_comm ..
  simp only [hlive, haway]

/-- Settles O18: the walk over the absent members gives each its copy, and the entry joins its sub-queue. -/
theorem segmentRequestMalformedFilteredOrBroadcast : Obligations.SegmentRequestMalformedFilteredOrBroadcast := by
  intro s f rest i h hkind answer
  refine ⟨fun hq => h.exec_malformed hkind hq, ?_⟩
  intro q hq m u members e away copy
  obtain ⟨htag, hdestination⟩ := parseSegmentRequest_fields hq
  obtain ⟨c, hc⟩ : ∃ c, u = s.withCounters c := countMatch_only ..
  let v : State := (s.withCounters c).reserved rest i
  have hv : s.matchedFor q rest i = v := congrArg (State.reserved · rest i) hc
  let e0 : PassEntry := newPassEntry q m i []
  refine ⟨fun hverdict => ?_, fun hverdict hb hfull => ?_, fun hverdict hb hroom => ?_⟩
  · have hexec := h.exec_discard hkind hq hverdict
    rw [htag] at hexec
    exact hexec
  · have hexec := h.exec_broadcast hkind hq hb hverdict
    rw [hv, disposeBroadcast, if_neg (fun hlt : v.passLength < 32 => absurd hfull (Nat.not_le.2 hlt))] at hexec
    refine hexec.trans (took_congr ?_)
    rw [hc, ← htag]
    exact State.reserved_enqueue ..
  · have hexec := h.exec_broadcast hkind hq hb hverdict
    have hmembers : v.tables.members m.set = members := by
      show (match m.set with | some i => s.tables.set i | none => addresses) = _
      rfl
    have he : { e0 with live := addresses.filter (fun a => decide (a ∈ members ∧ v.nodeState a = .online)) } = e := by
      simp only [e0, newPassEntry, htag, hb, hdestination.1 hb]
      rfl
    have hqueued := disposeBroadcast_queued (e := e0) (set := m.set) (s := v) hroom
    rw [hmembers, he] at hqueued
    rw [hv] at hexec
    replace hexec := hexec.trans (took_congr hqueued)
    generalize hw : forNodes (addresses.filter fun a => decide (a ∈ members) && (v.nodeState a).isAbsent)
      (absentTreatment (newPassEntry q (s.tables.matched q) i [])) v = w at hexec
    have hstores : Stores v w := by rw [← hw]; exact stores_forNodes (stores_absentTreatment _) _ v
    have hquiet : w.quiet = v.quiet := by
      rw [← hw]; exact forNodes_quiet _ _ (fun a s => absentTreatment_quiet s _ a) v
    have hsegment : w.segment = s.segment := by obtain ⟨_, _, _, _, rfl⟩ := hstores; rfl
    have hrestore : w.restore = s.restore := by obtain ⟨_, _, _, _, rfl⟩ := hstores; rfl
    have hcounters : w.counters = c := congrArg Quiet.counters hquiet
    have hingress : w.trunk.ingress = rest := congrArg Quiet.ingress hquiet
    have hcopy : ∀ a n, newHoldEntry a (e0.held none) v.now n.holdLifetime = copy a n := fun a n => by
      simp only [newHoldEntry, PassEntry.held, e0, newPassEntry, hb]; rfl
    have hrecord : ∀ a k, capturedRecord a k e0.captured true =
        { node := a, relative := k, rule := m.ref, policy := m.action.part.replay, kind := .broadcast
          function := q.function, payload := q.payload, marked := true } := fun a k => by
      simp only [capturedRecord, PassEntry.captured, e0, newPassEntry, hb]
    have hawayNodup : (addresses.filter fun a => decide (a ∈ members) && (v.nodeState a).isAbsent).Nodup :=
      addresses_nodup.filter _
    have hmem : ∀ a n, s.entry a = some n →
        (a ∈ addresses.filter (fun a => decide (a ∈ members) && (v.nodeState a).isAbsent) ↔ away a = true) := fun a n hn => by
      rw [List.mem_filter, and_iff_right (mem_addresses (isAddress_of_entry hn))]
      rfl
    obtain ⟨x, hx⟩ := appendPass_only e w
    have hx' := segment_appendPass e w
    rw [hsegment] at hx'
    refine ⟨_, hexec, ?_, ?_, ?_, ?_, fun hpolicy => ?_, fun hpolicy => ?_, fun hpolicy => ?_⟩
    all_goals rw [endCommand_transmit]
    · exact hx'
    · rw [hx, hc]; exact hcounters
    · rw [hx]; exact hingress
    · rw [hx]; exact hrestore
    · rw [hx]
      have hw' : w = v := by
        rw [← hw]
        refine forNodes_keeps (P := fun t => t = v) (fun a t ht => ?_) _ rfl
        rw [ht, absentTreatment, show (newPassEntry q (s.tables.matched q) i []).action.absent = .refuse from hpolicy]
      rw [hw']
      exact ⟨rfl, rfl⟩
    · rw [hx]
      have hshadow : w.shadow = s.shadow := by
        rw [← hw]
        refine forNodes_keeps (P := fun t => t.shadow = s.shadow) (fun a t ht => ?_) _ rfl
        rw [absentTreatment, show (newPassEntry q (s.tables.matched q) i []).action.absent = .queue from hpolicy]
        exact (shadow_appendHold ..).trans ht
      refine ⟨hshadow, fun hfree a n hn => ?_⟩
      have hqueue := queue_walk_held e0 hpolicy _ hawayNodup v (a := a) (n := n) hn hfree
      show w.queue a = _
      rw [← hw, ← hcopy]
      refine hqueue.trans ?_
      simp only [hmem a n hn]
      rfl
    · rw [hx]
      have hhold : w.hold = s.hold := by
        rw [← hw]
        refine forNodes_keeps (P := fun t => t.hold = s.hold) (fun a t ht => ?_) _ rfl
        rw [absentTreatment, show (newPassEntry q (s.tables.matched q) i []).action.absent = .latest from hpolicy]
        exact (hold_captureLatest ..).trans ht
      refine ⟨hhold, fun k a n hslot hn haway hk hpool halone => ?_⟩
      have hwalk := slot_walk_latest e0 hpolicy hslot (s := v) (a := a) (n := n) hn hk hpool halone _ hawayNodup
        ((hmem a n hn).2 haway)
      rw [← hrecord a k, ← hw]
      exact hwalk

end Sys2Proof.Machine
end

section
/-! SUPPORT. SET MODE: the tests of a switch in the terms of the manual, and what the switch leaves. -/

namespace Sys2Proof.Machine

/-! ### The tests of a switch (R188) -/

theorem find?_addresses_eq_some {p : Nat → Bool} {a : Nat} (ha : isAddress a = true) (hp : p a = true)
    (hlow : ∀ c, c < a → p c = false) : addresses.find? p = some a := by
  obtain ⟨hlow1, hhigh⟩ := of_decide_eq_true ha
  refine List.find?_range'_eq_some.2 ⟨hp, ?_, fun c _ hc => by rw [hlow c hc]; rfl⟩
  exact List.mem_range'_1.2 ⟨hlow1, by omega⟩

/-- A node's range runs past slot 95. -/
def Tables.Long (t : Tables) (a : Nat) : Prop := ∃ e, t.node a = some e ∧ 96 < e.shadowBase + e.shadowCount

/-- Two nodes' ranges share a slot. -/
def Tables.Shares (t : Tables) (a c : Nat) : Prop :=
  ∃ d e n, t.node a = some d ∧ t.node c = some e ∧ d.shadowBase ≤ n ∧ n < d.shadowBase + d.shadowCount
    ∧ e.shadowBase ≤ n ∧ n < e.shadowBase + e.shadowCount

theorem overlaps_iff (d e : NodeEntry) :
    d.overlaps e = true ↔ ∃ n, d.shadowBase ≤ n ∧ n < d.shadowBase + d.shadowCount ∧ e.shadowBase ≤ n
      ∧ n < e.shadowBase + e.shadowCount := by
  unfold NodeEntry.overlaps
  rw [decide_eq_true_iff]
  constructor
  · intro h
    exact ⟨max d.shadowBase e.shadowBase, by omega⟩
  · rintro ⟨n, h⟩
    omega

theorem isAddress_of_node {t : Tables} {a : Nat} {e : NodeEntry} (h : t.node a = some e) : isAddress a = true :=
  isAddress_of_entry (s := { State.reset with tables := t }) h

section
variable {t : Tables}

/-- The test that finds a range past slot 95. -/
def Tables.longTest (t : Tables) (a : Nat) : Bool := (t.node a).any fun e => decide (96 < e.shadowBase + e.shadowCount)

theorem longTest_iff (a : Nat) : t.longTest a = true ↔ t.Long a := by
  simp [Tables.longTest, Tables.Long, Option.any_eq_true]

theorem rangeFault_eq_find (t : Tables) : t.rangeFault = addresses.find? t.longTest := by
  unfold Tables.rangeFault
  congr
  funext a
  unfold Tables.longTest
  cases t.node a <;> rfl

theorem rangeFault_eq_some {a : Nat} (h : t.Long a) (hlow : ∀ c, c < a → ¬ t.Long c) : t.rangeFault = some a := by
  obtain ⟨e, he, -⟩ := id h
  rw [rangeFault_eq_find]
  exact find?_addresses_eq_some (isAddress_of_node he) ((longTest_iff a).2 h)
    fun c hc => Bool.eq_false_iff.2 fun htest => hlow c hc ((longTest_iff c).1 htest)

theorem rangeFault_eq_none : t.rangeFault = none ↔ ∀ a, ¬ t.Long a := by
  rw [rangeFault_eq_find, List.find?_eq_none]
  simp only [longTest_iff]
  refine ⟨fun h a ha => ?_, fun h a _ => h a⟩
  obtain ⟨e, he, -⟩ := id ha
  exact h a (mem_addresses (isAddress_of_node he)) ha

/-- The test that finds a range which shares a slot with that of a lower address. -/
def Tables.sharesTest (t : Tables) (b : Nat) : Bool :=
  (t.node b).any fun eb => addresses.any fun a => decide (a < b) && (t.node a).any fun ea => ea.overlaps eb

theorem sharesTest_iff (b : Nat) : t.sharesTest b = true ↔ ∃ a, a < b ∧ t.Shares a b := by
  simp only [Tables.sharesTest, Tables.Shares, Option.any_eq_true, List.any_eq_true, Bool.and_eq_true, decide_eq_true_eq,
    overlaps_iff]
  constructor
  · rintro ⟨eb, hb, a, -, hlt, ea, ha, n, hn⟩
    exact ⟨a, hlt, ea, eb, n, ha, hb, hn⟩
  · rintro ⟨a, hlt, ea, eb, n, ha, hb, hn⟩
    exact ⟨eb, hb, a, mem_addresses (isAddress_of_node ha), hlt, ea, ha, n, hn⟩

theorem overlapFault_eq_find (t : Tables) : t.overlapFault = addresses.find? t.sharesTest := by
  unfold Tables.overlapFault
  congr
  funext b
  unfold Tables.sharesTest
  cases t.node b with
  | none => rfl
  | some eb =>
    dsimp only [Option.any]
    congr
    funext a
    cases t.node a <;> rfl

theorem overlapFault_eq_some {a c : Nat} (hc : c < a) (h : t.Shares c a) (hlow : ∀ x y, x < y → y < a → ¬ t.Shares x y) :
    t.overlapFault = some a := by
  obtain ⟨_, e, _, -, he, -⟩ := id h
  rw [overlapFault_eq_find]
  exact find?_addresses_eq_some (isAddress_of_node he) ((sharesTest_iff a).2 ⟨c, hc, h⟩)
    fun y hy => Bool.eq_false_iff.2 fun htest => by
      obtain ⟨x, hx, hshares⟩ := (sharesTest_iff y).1 htest
      exact hlow x y hx hy hshares

theorem overlapFault_eq_none : t.overlapFault = none ↔ ∀ x y, x < y → ¬ t.Shares x y := by
  rw [overlapFault_eq_find, List.find?_eq_none]
  simp only [sharesTest_iff]
  refine ⟨fun h x y hxy hshares => ?_, fun h y _ ⟨x, hx, hshares⟩ => h x y hx hshares⟩
  obtain ⟨_, e, _, -, he, -⟩ := id hshares
  exact h y (mem_addresses (isAddress_of_node he)) ⟨x, hxy, hshares⟩

/-- A rule record that fails a test of R91. -/
def Tables.RuleFails (t : Tables) (k : Nat) : Prop := ∃ r, t.rule k = some r ∧ r.valid = false

/-- The test that finds such a record. -/
def Tables.ruleTest (t : Tables) (k : Nat) : Bool := (t.rule k).any fun r => !r.valid

theorem ruleTest_iff (k : Nat) : t.ruleTest k = true ↔ t.RuleFails k := by
  simp [Tables.ruleTest, Tables.RuleFails, Option.any_eq_true]

theorem ruleFault_eq_find (t : Tables) :
    t.ruleFault = match (List.range 48).find? t.ruleTest with
      | some i => some (u8 i)
      | none => if t.defaultAction.valid then none else some 0xFF := by
  have htest : (fun i => match t.rule i with | some r => !r.valid | none => false) = t.ruleTest := by
    funext i
    unfold Tables.ruleTest
    cases t.rule i <;> rfl
  rw [← htest]
  rfl

theorem ruleFault_eq_rule {k : Nat} (hk : k < 48) (h : t.RuleFails k) (hlow : ∀ j, j < k → ¬ t.RuleFails j) :
    t.ruleFault = some (u8 k) := by
  rw [ruleFault_eq_find, List.find?_range_eq_some.2 ⟨(ruleTest_iff k).2 h, List.mem_range.2 hk, fun j hj => by
    rw [Bool.not_eq_true']
    exact Bool.eq_false_iff.2 fun htest => hlow j hj ((ruleTest_iff j).1 htest)⟩]

theorem ruleFault_of_rules (h : ∀ k, k < 48 → ¬ t.RuleFails k) :
    t.ruleFault = if t.defaultAction.valid then none else some 0xFF := by
  rw [ruleFault_eq_find, List.find?_eq_none.2 fun k hk htest => h k (List.mem_range.1 hk) ((ruleTest_iff k).1 htest)]

end

/-- SET MODE SERVICE in DEPOT is refused with the first test that fails. -/
theorem State.Asks.refuses_service {s : State} {tag : Word16} {b : Byte} {rest : List TrunkFrame} {i : Nat}
    (h : s.Asks .setMode tag [b] rest i) (hb : b = 1) (hmode : s.responder.mode = .depot) {kind item : Byte}
    (hfault : s.responder.edit.firstFault = some (kind, item)) :
    exec .setMode s = .next (endCommand (s.replies .setMode tag rest i .invalid [kind, item])) := by
  rw [h.runs_act (c := .setMode) (act := actSetMode) rfl nofun rfl, hb]
  show Host.Outcome.next (endCommand (match (s.reserved rest i).responder.mode with
    | .service => _ | .depot => enterService _ _)) = _
  rw [show (s.reserved rest i).responder.mode = .depot from hmode]
  show Host.Outcome.next (endCommand (enterService _ _)) = _
  rw [enterService, show (s.reserved rest i).responder.edit.firstFault = _ from hfault]
  exact congrArg (fun u => Host.Outcome.next (endCommand u)) (State.reserved_enqueue s rest i _)

/-- Settles O33: the code asked for, the mode, and the first test that fails. -/
theorem setModeRefusedOrWithoutSwitch : Obligations.SetModeRefusedOrWithoutSwitch := by
  intro s tag rest i b h answer t long shares ruleFails asked'
  have hexec := h.runs_act (c := .setMode) (act := actSetMode) rfl nofun rfl
  have hrange : (∀ x, ¬ long x) → t.rangeFault = none := rangeFault_eq_none.2
  have hoverlap : (∀ x y, x < y → ¬ shares x y) → t.overlapFault = none := overlapFault_eq_none.2
  refine ⟨fun hb => ?_, fun hb => ?_, fun hb hmode => ?_, fun a hasked ha hlow => ?_,
    fun a c hasked hx hc hshares hlow => ?_, fun k hasked hx hy hk hfails hlow => ?_, fun hasked hx hy hrules hdefault => ?_⟩
  · have harg : actSetMode (Machine.asked .setMode tag [b] i) (s.reserved rest i) =
        invalid (Machine.asked .setMode tag [b] i) (s.reserved rest i) := by
      unfold actSetMode
      have : (Machine.asked .setMode tag [b] i).arg 0 = b.toNat := rfl
      rw [this]
      split <;> first | omega | rfl
    refine hexec.trans ?_
    rw [harg, invalid_asked]
  · refine hexec.trans ?_
    rw [hb]
    exact congrArg (fun u => Host.Outcome.next (endCommand u)) 
      (State.reserved_enqueue (s.withResponder { s.responder with edit := s.tables, mode := .depot }) rest i _)
  · refine hexec.trans ?_
    rw [hb]
    show Host.Outcome.next (endCommand (match (s.reserved rest i).responder.mode with
      | .service => done _ _ _ | .depot => _)) = _
    rw [show (s.reserved rest i).responder.mode = .service from hmode]
    exact congrArg (fun u => Host.Outcome.next (endCommand u)) (State.reserved_enqueue s rest i _)
  · exact h.refuses_service hasked.1 hasked.2 (by rw [Tables.firstFault, rangeFault_eq_some ha hlow])
  · exact h.refuses_service hasked.1 hasked.2 (by
      rw [Tables.firstFault, hrange hx, overlapFault_eq_some hc hshares hlow])
  · exact h.refuses_service hasked.1 hasked.2 (by
      rw [Tables.firstFault, hrange hx, hoverlap hy, ruleFault_eq_rule hk hfails hlow]; rfl)
  · exact h.refuses_service hasked.1 hasked.2 (by
      rw [Tables.firstFault, hrange hx, hoverlap hy, ruleFault_of_rules hrules]
      have : s.responder.edit.defaultAction.valid = false := hdefault
      rw [this]; rfl)

end Sys2Proof.Machine
end

section
/-! SUPPORT. What transfers change beside the node they serve: a granted buffer, and nothing else. -/

namespace Sys2Proof.Machine

/-! ### What only transfers change (R144 to R149, R159) -/

/-- `t` differs from `s` at most in the Restore Engine and the Image Store. -/
def OnlyTransfers (s t : State) : Prop := ∃ x y, t = { s with restore := x, store := y }

theorem OnlyTransfers.refl (s : State) : OnlyTransfers s s := ⟨s.restore, s.store, rfl⟩

theorem OnlyTransfers.trans {s t u : State} (h : OnlyTransfers s t) (g : OnlyTransfers t u) : OnlyTransfers s u := by
  obtain ⟨_, _, rfl⟩ := h
  obtain ⟨_, _, rfl⟩ := g
  exact ⟨_, _, rfl⟩

theorem OnlyTransfers.sameBlocks {s t : State} (h : OnlyTransfers s t) : SameBlocks s t := by
  obtain ⟨_, _, rfl⟩ := h
  exact ⟨rfl, rfl, rfl, rfl⟩

theorem onlyTransfers_withRestore (s : State) (x : RestoreEngine) : OnlyTransfers s (s.withRestore x) := ⟨x, s.store, rfl⟩

theorem onlyTransfers_withStore (s : State) (x : ImageStore) : OnlyTransfers s (s.withStore x) := ⟨s.restore, x, rfl⟩

theorem onlyTransfers_mapRuntime (s : State) (a : Nat) (f : Runtime → Runtime) : OnlyTransfers s (s.mapRuntime a f) := by
  unfold State.mapRuntime
  split
  · exact onlyTransfers_withRestore s _
  · exact .refl s

theorem onlyTransfers_requestRead (q : ReadRequest) (s : State) : OnlyTransfers s (requestRead q s) := by
  obtain ⟨m, hm, -⟩ := requestRead_eq q s
  rw [hm]
  exact onlyTransfers_withStore s m

theorem onlyTransfers_startRead (a b : Nat) (s : State) : OnlyTransfers s (startRead a b s) := by
  unfold startRead
  split
  · exact .refl s
  · exact ((onlyTransfers_mapRuntime s a _).trans (onlyTransfers_withRestore _ _)).trans (onlyTransfers_requestRead _ _)

theorem onlyTransfers_freeBuffer (b : Nat) (s : State) : OnlyTransfers s (freeBuffer b s) := by
  unfold freeBuffer
  split
  · exact onlyTransfers_withRestore s _
  · exact (onlyTransfers_withRestore s _).trans (onlyTransfers_startRead _ _ _)

theorem onlyTransfers_releaseBuffer (a : Nat) (s : State) : OnlyTransfers s (releaseBuffer a s) := by
  unfold releaseBuffer
  split
  · dsimp only
    split
    · exact (onlyTransfers_mapRuntime s a _).trans (onlyTransfers_withRestore _ _)
    · exact (onlyTransfers_mapRuntime s a _).trans (onlyTransfers_freeBuffer _ _)
  · exact .refl s

theorem onlyTransfers_askBuffer (a : Nat) (s : State) : OnlyTransfers s (askBuffer a s) := by
  unfold askBuffer
  split
  · exact onlyTransfers_startRead _ _ _
  · exact (onlyTransfers_mapRuntime s a _).trans (onlyTransfers_withRestore _ _)

theorem onlyTransfers_dropReader (n : Nat) (s : State) : OnlyTransfers s (dropReader n s) := by
  unfold dropReader
  split
  · exact onlyTransfers_withStore s _
  · exact .refl s

theorem onlyTransfers_addReader (n : Nat) (s : State) : OnlyTransfers s (addReader n s) := by
  unfold addReader
  split
  · exact onlyTransfers_withStore s _
  · exact .refl s

theorem onlyTransfers_endSession (a : Nat) (s : State) : OnlyTransfers s (endSession a s) := by
  unfold endSession
  split
  · exact .refl s
  · exact ((((onlyTransfers_mapRuntime s a _).trans (onlyTransfers_withRestore _ _)).trans
      (onlyTransfers_releaseBuffer a _)).trans (onlyTransfers_dropReader _ _)).trans (onlyTransfers_mapRuntime _ a _)

/-! ### Grants (R148, R149) -/

/-- The record of a node whose session is granted buffer `k`. -/
def grantedRecord (k : Nat) (x : Session) (r : Runtime) : Runtime :=
  { r with step := r.step.wait, session := some { x with buffer := some k, request := .reading } }

/-- Node `b` keeps its record, or its session is granted a buffer. -/
def GrantedAt (s t : State) (b : Nat) : Prop :=
  t.runtime b = s.runtime b
    ∨ ∃ r x k, s.runtime b = some r ∧ r.session = some x ∧ t.runtime b = some (grantedRecord k x r)

theorem GrantedAt.of_eq {s t : State} {b : Nat} (h : t.runtime b = s.runtime b) : GrantedAt s t b := .inl h

theorem StepCondition.wait_wait (c : StepCondition) : c.wait.wait = c.wait := by cases c <;> rfl

theorem StepCondition.cancel_wait (c : StepCondition) : c.wait.cancel = c.cancel := by cases c <;> rfl

theorem GrantedAt.trans {s t u : State} {b : Nat} (h : GrantedAt s t b) (g : GrantedAt t u b) : GrantedAt s u b := by
  obtain h | ⟨r, x, k, hr, hx, ht⟩ := h
  · obtain g | ⟨r, x, k, hr, hx, hu⟩ := g
    · exact .inl (g.trans h)
    · exact .inr ⟨r, x, k, h ▸ hr, hx, hu⟩
  · obtain g | ⟨r', x', k', hr', hx', hu⟩ := g
    · exact .inr ⟨r, x, k, hr, hx, g.trans ht⟩
    · rw [ht] at hr'
      cases hr'
      cases hx'
      refine .inr ⟨r, x, k', hr, hx, hu.trans ?_⟩
      simp only [grantedRecord, StepCondition.wait_wait]

/-- A node without a session is granted nothing. -/
theorem GrantedAt.idle {s t : State} {b : Nat} (h : GrantedAt s t b) (hx : s.session b = none) :
    t.runtime b = s.runtime b := by
  obtain h | ⟨r, x, k, hr, hsession, -⟩ := h
  · exact h
  · rw [session_of_runtime hr, hsession] at hx
    cases hx

theorem GrantedAt.nodeState {s t : State} {b : Nat} (h : GrantedAt s t b) : t.nodeState b = s.nodeState b := by
  obtain h | ⟨r, x, k, hr, -, ht⟩ := h
  · unfold State.nodeState; rw [h]
  · rw [nodeState_of_runtime hr, nodeState_of_runtime ht]; rfl

theorem granted_startRead (m k : Nat) (s : State) (b : Nat) : GrantedAt s (startRead m k s) b := by
  obtain ⟨-, hothers, hself⟩ := startRead_cases m k s
  by_cases hb : b = m
  · subst hb
    cases hr : s.runtime b with
    | none =>
      have hnone : s.session b = none := by unfold State.session; rw [hr]; rfl
      exact .inl (by unfold startRead; rw [hnone])
    | some r =>
      cases hx : r.session with
      | none => exact .inl (by unfold startRead; rw [session_of_runtime hr, hx])
      | some x => exact .inr ⟨r, x, k, hr, hx, hself r x hr hx⟩
  · exact .inl (hothers b hb)

theorem granted_freeBuffer (k : Nat) (s : State) (b : Nat) : GrantedAt s (freeBuffer k s) b := by
  unfold freeBuffer
  split
  · exact .inl rfl
  · exact granted_startRead (s := (s.setBuffer k .free).withRestore _) ..

theorem runtime_mapRuntime_other (s : State) {a b : Nat} (hb : b ≠ a) (f : Runtime → Runtime) :
    (s.mapRuntime a f).runtime b = s.runtime b :=
  (runtime_mapRuntime s a b f).trans (if_neg (Ne.symm hb))

theorem granted_releaseBuffer {a b : Nat} (hb : b ≠ a) (s : State) : GrantedAt s (releaseBuffer a s) b := by
  unfold releaseBuffer
  split
  · have hmap := runtime_mapRuntime_other s hb fun r =>
      { r with session := r.session.map fun x => { x with buffer := none, request := .none } }
    dsimp only
    split
    · exact .inl hmap
    · exact (GrantedAt.of_eq hmap).trans (granted_freeBuffer ..)
  · exact .inl rfl

theorem granted_endSession {a b : Nat} (hb : b ≠ a) (s : State) : GrantedAt s (endSession a s) b := by
  unfold endSession
  split
  · exact .inl rfl
  · next x _ =>
    have hcancel : GrantedAt s (leaveWaiting a (cancelStep a s)) b := .inl (runtime_mapRuntime_other s hb _)
    have hdropped : GrantedAt s (dropReader x.entry (releaseBuffer a (leaveWaiting a (cancelStep a s)))) b :=
      (hcancel.trans (granted_releaseBuffer hb _)).trans (.of_eq ((dropReader_cases ..).2 b))
    exact hdropped.trans (.of_eq (runtime_mapRuntime_other _ hb _))

theorem runtime_cancelStep_endSession {s : State} {a : Nat} {r : Runtime} (hr : s.runtime a = some r) :
    (endSession a (cancelStep a s)).runtime a = some { r with step := r.step.cancel, session := none } :=
  (endSession_of_cancelled (runtime_mapRuntime_same hr fun r => { r with step := r.step.cancel }) r.step.cancel_cancel).2

/-! ### Entry to SUSPECT (R56, R160) -/

theorem onlyTransfers_enterSuspect (a : Nat) (phase : NodeState) (s : State) : OnlyTransfers s (enterSuspect a phase s) :=
  onlyTransfers_mapRuntime s a _

/-- The record of a node whose supply is lost (R56). -/
def suspendedRecord (r : Runtime) : Runtime :=
  { r.move .suspect with
    phase := some r.state, misses := 0, bootCount := r.countOnDoubt, step := r.step.cancel, session := none }

theorem suspendMember_self {s : State} {a : Nat} {r : Runtime} (hr : s.runtime a = some r) :
    (suspendMember a s).runtime a = some (suspendedRecord r) := by
  unfold suspendMember enterSuspect
  refine (runtime_mapRuntime_same (runtime_cancelStep_endSession hr) _).trans ?_
  rw [nodeState_of_runtime hr, StepCondition.cancel_cancel]
  rfl

theorem granted_suspendMember {a b : Nat} (hb : b ≠ a) (s : State) : GrantedAt s (suspendMember a s) b :=
  ((GrantedAt.of_eq (runtime_mapRuntime_other s hb _)).trans (granted_endSession hb _)).trans
    (.of_eq (runtime_mapRuntime_other _ hb _))

theorem onlyTransfers_suspendMember (a : Nat) (s : State) : OnlyTransfers s (suspendMember a s) :=
  ((onlyTransfers_mapRuntime s a _).trans (onlyTransfers_endSession a _)).trans (onlyTransfers_enterSuspect a _ _)

/-- A grant leaves no trace in the record of a node that is suspended after it. -/
theorem suspendedRecord_granted (k : Nat) (x : Session) (r : Runtime) :
    suspendedRecord (grantedRecord k x r) = suspendedRecord r := by
  simp only [suspendedRecord, grantedRecord, StepCondition.cancel_wait]
  rfl

/-- A walk that suspends its members: each has the suspended record, and any other node keeps its own but for a grant. -/
theorem suspendMembers_spec (l : List Nat) (hl : l.Nodup) (s : State) :
    OnlyTransfers s (forNodes l suspendMember s)
      ∧ (∀ a ∈ l, ∀ r, s.runtime a = some r → (forNodes l suspendMember s).runtime a = some (suspendedRecord r))
      ∧ ∀ a, a ∉ l → GrantedAt s (forNodes l suspendMember s) a := by
  refine ⟨forNodes_keeps (P := OnlyTransfers s) (fun a t h => h.trans (onlyTransfers_suspendMember a t)) l (.refl s), ?_, ?_⟩
  · refine forNodes_each (P := fun a t => GrantedAt s t a)
      (Q := fun a t => ∀ r, s.runtime a = some r → t.runtime a = some (suspendedRecord r)) ?_ ?_ ?_ l hl s fun a _ => .inl rfl
    · intro a t h r hr
      obtain ht | ⟨r', x, k, hr', -, ht⟩ := h
      · exact suspendMember_self (ht.trans hr)
      · rw [hr] at hr'
        cases hr'
        rw [suspendMember_self ht, suspendedRecord_granted]
    · exact fun a b t hab h => h.trans (granted_suspendMember hab t)
    · intro a b t hab h r hr
      have ht := h r hr
      exact ((granted_suspendMember hab t).idle (by rw [session_of_runtime ht]; rfl)).trans ht
  · intro a
    induction l generalizing s with
    | nil => exact fun _ => .inl rfl
    | cons b l ih =>
      intro ha
      obtain ⟨hab, ha⟩ := not_or.1 (mt List.mem_cons.2 ha)
      exact (granted_suspendMember hab s).trans (ih (List.nodup_cons.1 hl).2 (suspendMember b s) ha)

/-! ### The recharge (R24, R25) -/

/-- A member's reserve record after its recharge. -/
def rechargedReserve (start now : Time) (e : NodeEntry) (r : Reserve) : Reserve :=
  { estimate := recharged e r (supplyInterval r start now), origin := start, aged := false }

theorem rechargeNode_other (start : Time) {a b : Nat} (hb : b ≠ a) (s : State) :
    (rechargeNode start a s).reserve b = s.reserve b := by
  unfold rechargeNode
  split
  · exact (reserve_setReserve ..).trans (if_neg fun h => hb h.1.symm)
  · rfl

theorem rechargeNode_self {start : Time} {a : Nat} {s : State} {e : NodeEntry} {r : Reserve} (he : s.entry a = some e)
    (hr : s.reserve a = some r) : (rechargeNode start a s).reserve a = some (rechargedReserve start s.now e r) := by
  unfold rechargeNode
  rw [hr, he]
  exact (reserve_setReserve ..).trans (if_pos ⟨rfl, isAddress_of_entry he⟩)

theorem onlyReserves_rechargeNode (start : Time) (a : Nat) (s : State) : OnlyReserves s (rechargeNode start a s) := by
  unfold rechargeNode
  split
  · exact ⟨_, rfl⟩
  · exact .refl s

/-- A recharge walk: each member is recharged once, and nothing but the reserve records changes. -/
theorem rechargeNodes_spec (start : Time) (l : List Nat) (hl : l.Nodup) (s : State) :
    OnlyReserves s (forNodes l (rechargeNode start) s)
      ∧ (∀ a ∈ l, ∀ e r, s.entry a = some e → s.reserve a = some r →
          (forNodes l (rechargeNode start) s).reserve a = some (rechargedReserve start s.now e r))
      ∧ ∀ a, a ∉ l → (forNodes l (rechargeNode start) s).reserve a = s.reserve a := by
  refine ⟨forNodes_keeps (P := OnlyReserves s) (fun a t h => h.trans (onlyReserves_rechargeNode start a t)) l (.refl s), ?_, ?_⟩
  · refine forNodes_each (P := fun a t => OnlyReserves s t ∧ t.reserve a = s.reserve a)
      (Q := fun a t => ∀ e r, s.entry a = some e → s.reserve a = some r →
        t.reserve a = some (rechargedReserve start s.now e r)) ?_ ?_ ?_ l hl s fun a _ => ⟨.refl s, rfl⟩
    · rintro a t ⟨⟨v, rfl⟩, ht⟩ e r he hr
      exact rechargeNode_self he (ht.trans hr)
    · exact fun a b t hab h => ⟨h.1.trans (onlyReserves_rechargeNode start b t), (rechargeNode_other start hab t).trans h.2⟩
    · exact fun a b t hab h e r he hr => (rechargeNode_other start hab t).trans (h e r he hr)
  · intro a
    induction l generalizing s with
    | nil => exact fun _ => rfl
    | cons b l ih =>
      intro ha
      obtain ⟨hab, ha⟩ := not_or.1 (mt List.mem_cons.2 ha)
      exact (ih (List.nodup_cons.1 hl).2 (rechargeNode start b s) ha).trans (rechargeNode_other start hab s)

/-! ### Returned pass frames (R72) -/

theorem stores_answerPass (e : PassEntry) (c : AnswerCode) (body : List Byte) (s : State) : Stores s (answerPass e c body s) :=
  ⟨_, _, _, _, rfl⟩

theorem stores_disposeReturned (e : PassEntry) (s : State) : Stores s (disposeReturned e s) := by
  unfold disposeReturned
  split
  · exact (stores_appendHold ..).trans (stores_answerPass ..)
  · exact (stores_captureLatest ..).trans (stores_answerPass ..)
  · exact stores_answerPass ..

theorem stores_walkReturned (l : List Nat) (q : List PassEntry) (s : State) : Stores s (walkReturned l q s).2 := by
  induction q generalizing s with
  | nil => exact .refl s
  | cons e q ih =>
    unfold walkReturned
    split
    · exact (stores_forNodes (stores_absentTreatment e) _ s).trans (ih _)
    · split
      · exact (stores_disposeReturned e s).trans (ih _)
      · exact ih s

/-- No unicast entry for a leaving node stays queued, and no broadcast keeps one as a live member. -/
theorem walkReturned_kept (l : List Nat) (q : List PassEntry) (s : State) :
    ∀ p ∈ (walkReturned l q s).1,
      (p.kind ≠ .broadcast → p.destination ∉ l) ∧ (p.kind = .broadcast → ∀ a ∈ l, a ∉ p.live) := by
  induction q generalizing s with
  | nil => exact fun p hp => nomatch hp
  | cons e q ih =>
    unfold walkReturned
    split
    · next hkind =>
      intro p hp
      rcases List.mem_cons.1 hp with rfl | hp
      · refine ⟨fun h => absurd hkind h, fun _ a ha hlive => ?_⟩
        have := (List.mem_filter.1 hlive).2
        simp [ha] at this
      · exact ih _ p hp
    · next hkind =>
      split
      · exact ih _
      · next hstays =>
        intro p hp
        rcases List.mem_cons.1 hp with rfl | hp
        · exact ⟨fun _ hmem => hstays (by simpa using hmem), fun h => absurd h hkind⟩
        · exact ih _ p hp

theorem returnPasses_only (l : List Nat) (s : State) :
    ∃ t u n k, Stores s t ∧ returnPasses l s = t.withSegment { s.segment with urgent := u, normal := n, runCount := k }
      ∧ ∀ p ∈ u ++ n, (p.kind ≠ .broadcast → p.destination ∉ l) ∧ (p.kind = .broadcast → ∀ a ∈ l, a ∉ p.live) := by
  have hurgent := stores_walkReturned l s.segment.urgent s
  have hnormal := stores_walkReturned l s.segment.normal (walkReturned l s.segment.urgent s).2
  refine ⟨(walkReturned l s.segment.normal (walkReturned l s.segment.urgent s).2).2,
    (walkReturned l s.segment.urgent s).1, (walkReturned l s.segment.normal (walkReturned l s.segment.urgent s).2).1,
    if (walkReturned l s.segment.normal (walkReturned l s.segment.urgent s).2).1.isEmpty && !s.segment.normal.isEmpty then 0
      else s.segment.runCount,
    hurgent.trans hnormal, ?_, fun p hp => ?_⟩
  · unfold returnPasses setPassQueues
    obtain ⟨_, _, _, _, h⟩ := hurgent.trans hnormal
    dsimp only
    generalize walkReturned l s.segment.normal (walkReturned l s.segment.urgent s).2 = w at h ⊢
    rw [h]
  · rcases List.mem_append.1 hp with hp | hp
    · exact walkReturned_kept l _ s p hp
    · exact walkReturned_kept l _ _ p hp

/-! ### The gap start event (R26) -/

/-- The members of the gap set at a gap start: the FED configured nodes. -/
def State.fedNodes (s : State) : List Nat := addresses.filter s.isFed

/-- The members that enter SUSPECT. -/
def State.leavingNodes (s : State) : List Nat := s.fedNodes.filter s.entersSuspect

theorem mem_fedNodes {s : State} {a : Nat} : a ∈ s.fedNodes ↔ ∃ e, s.entry a = some e ∧ e.supply = .fed := by
  unfold State.fedNodes State.isFed
  rw [List.mem_filter]
  constructor
  · rintro ⟨-, h⟩
    split at h
    · next e he => exact ⟨e, he, by simpa using h⟩
    · cases h
  · rintro ⟨e, he, hfed⟩
    exact ⟨mem_addresses (isAddress_of_entry he), by rw [he]; simp [hfed]⟩

theorem mem_leavingNodes {s : State} {a : Nat} : a ∈ s.leavingNodes ↔
    (∃ e, s.entry a = some e ∧ e.supply = .fed) ∧ s.nodeState a ∉ [NodeState.suspect, .failed, .isolated, .unconfigured] := by
  unfold State.leavingNodes
  rw [List.mem_filter, mem_fedNodes]
  refine and_congr_right fun _ => ?_
  unfold State.entersSuspect
  cases s.nodeState a <;> simp

/-- The Gap Monitor's part of a gap start. -/
def State.gapOpened (s : State) (start : Time) : State :=
  forNodes s.fedNodes (rechargeNode start)
    (s.withGap { s.gap with condition := .inGap start, aged := false, gapSet := s.fedNodes })

theorem gapOpened_only (s : State) (start : Time) :
    ∃ v, s.gapOpened start =
      s.withGap { s.gap with condition := .inGap start, aged := false, gapSet := s.fedNodes, reserves := v } := by
  obtain ⟨v, hv⟩ := (rechargeNodes_spec start s.fedNodes (addresses_nodup.filter _)
    (s.withGap { s.gap with condition := .inGap start, aged := false, gapSet := s.fedNodes })).1
  exact ⟨v, hv⟩

/-- A gap start opens the gap, suspends its members, returns their queued frames and offers its notice, in this order. -/
theorem confirmGapStart_eq (start : Time) (s : State) :
    confirmGapStart start s =
      offerGap 0 start 0 0 0 0 (returnPasses s.leavingNodes (forNodes s.leavingNodes suspendMember (s.gapOpened start))) := by
  have hleaving : s.fedNodes.filter (s.gapOpened start).entersSuspect = s.leavingNodes := by
    obtain ⟨v, hv⟩ := gapOpened_only s start
    rw [hv]
    rfl
  rw [← hleaving]
  rfl

/-- What a gap start leaves. -/
structure GapStarted (start : Time) (s t : State) : Prop where
  kept : t.quiet = { s.quiet with condition := .inGap start, aged := false, reserves := t.gap.reserves }
  gapSet : t.gap.gapSet = s.fedNodes
  members : ∀ a e x, s.entry a = some e → s.reserve a = some x →
    t.reserve a = if e.supply = .fed then some (rechargedReserve start s.now e x) else some x
  suspended : ∀ a ∈ s.leavingNodes, ∀ r, s.runtime a = some r → t.runtime a = some (suspendedRecord r)
  others : ∀ a, a ∉ s.leavingNodes → GrantedAt s t a
  passes : ∀ p ∈ t.segment.urgent ++ t.segment.normal,
    (p.kind ≠ .broadcast → p.destination ∉ s.leavingNodes) ∧ (p.kind = .broadcast → ∀ a ∈ s.leavingNodes, a ∉ p.live)

theorem confirmGapStart_started (start : Time) (s : State) : GapStarted start s (confirmGapStart start s) := by
  obtain ⟨v, hv⟩ := gapOpened_only s start
  obtain ⟨-, hrecharged, hkept⟩ := rechargeNodes_spec start s.fedNodes (addresses_nodup.filter _)
    (s.withGap { s.gap with condition := .inGap start, aged := false, gapSet := s.fedNodes })
  obtain ⟨⟨x, y, hxy⟩, hsuspended, hothers⟩ := suspendMembers_spec s.leavingNodes ((addresses_nodup.filter _).filter _)
    (s.gapOpened start)
  obtain ⟨w, q, n, k, ⟨h, z, p, r, hw⟩, hreturned, hpasses⟩ := returnPasses_only s.leavingNodes
    (forNodes s.leavingNodes suspendMember (s.gapOpened start))
  obtain ⟨p', r', hoffered⟩ := reports_offerGap 0 start 0 0 0 0
    (returnPasses s.leavingNodes (forNodes s.leavingNodes suspendMember (s.gapOpened start)))
  have hgap : (confirmGapStart start s).gap = (s.gapOpened start).gap := by
    rw [confirmGapStart_eq, hoffered, hreturned, hw, hxy]; rfl
  have hruntime : ∀ a, (confirmGapStart start s).runtime a =
      (forNodes s.leavingNodes suspendMember (s.gapOpened start)).runtime a := fun a => by
    rw [confirmGapStart_eq, hoffered, hreturned, hw]; rfl
  have hopened : ∀ a, (s.gapOpened start).runtime a = s.runtime a := fun a => by rw [hv]; rfl
  refine ⟨?_, ?_, fun a e x he hx => ?_, fun a ha r hr => ?_, fun a ha => ?_, fun p hp => ?_⟩
  · have hquiet : (confirmGapStart start s).quiet = (s.gapOpened start).quiet := by
      rw [confirmGapStart_eq, offerGap_quiet, returnPasses_quiet, forNodes_quiet _ _ fun a t => suspendMember_quiet t a]
    rw [hquiet, hgap, hv]
    rfl
  · rw [hgap, hv]; rfl
  · rw [reserve_congr (congrArg GapMonitor.reserves hgap)]
    by_cases hfed : e.supply = .fed
    · rw [if_pos hfed]
      exact hrecharged a (mem_fedNodes.2 ⟨e, he, hfed⟩) e x he hx
    · rw [if_neg hfed]
      refine (hkept a fun hmem => ?_).trans hx
      obtain ⟨e', he', hfed'⟩ := mem_fedNodes.1 hmem
      rw [he] at he'
      cases he'
      exact hfed hfed'
  · rw [hruntime]
    exact hsuspended a ha r ((hopened a).trans hr)
  · have := hothers a ha
    unfold GrantedAt at this ⊢
    rwa [hruntime, ← hopened]
  · have hsegment : (confirmGapStart start s).segment.urgent ++ (confirmGapStart start s).segment.normal = q ++ n := by
      rw [confirmGapStart_eq, hoffered, hreturned]; rfl
    rw [hsegment] at hp
    exact hpasses p hp

theorem rechargedReserve_of_interval {start now : Time} {e : NodeEntry} {x : Reserve} {n : Nat}
    (h : (x.aged = false ∧ (x.origin - start).toNat ≤ (now - start).toNat ∧ n = 0)
      ∨ (x.aged = true ∧ n = 65535)
      ∨ (x.aged = false ∧ (now - start).toNat < (x.origin - start).toNat ∧ n = min (start - x.origin).toNat 65535)) :
    rechargedReserve start now e x =
      { estimate := min e.holdup (x.estimate + n * e.holdup / e.recharge), origin := start, aged := false } := by
  have hinterval : supplyInterval x start now = n := by
    unfold supplyInterval setWhilePending saturatedDiff
    obtain ⟨haged, hwhile, rfl⟩ | ⟨haged, rfl⟩ | ⟨haged, hwhile, rfl⟩ := h
    · rw [haged, decide_eq_true hwhile]; rfl
    · rw [haged]; rfl
    · rw [haged, decide_eq_false (Nat.not_le.2 hwhile)]; rfl
  unfold rechargedReserve recharged
  rw [hinterval]

/-- Settles O46: the gap start event is `GapStarted`, and the three cases of the supply interval are those of R25. -/
theorem gapStartRechargesAndSuspends : Obligations.GapStartRechargesAndSuspends := by
  intro s edge hcond
  refine ⟨_, exec_gapStart_due hcond (reached_self _), ?_⟩
  have h := confirmGapStart_started edge s
  generalize confirmGapStart edge s = t at h
  rw [endCommand_transmit]
  refine ⟨congrArg Quiet.condition h.kept, congrArg Quiet.aged h.kept, congrArg Quiet.lastD h.kept,
    congrArg Quiet.clock h.kept, congrArg Quiet.tables h.kept, congrArg Quiet.line h.kept, congrArg Quiet.blocks h.kept,
    congrArg Quiet.ingress h.kept, fun a => ?_, fun a e x n he hx hn => ⟨fun hsupply => ?_, fun hsupply => ?_⟩,
    fun a e r he hr => ⟨fun hsupply => ?_, fun hstate => ?_, fun hsupply hstate => ⟨?_, fun p hp hdest => ?_⟩⟩⟩
  · rw [show t.gap.gapSet = _ from h.gapSet]
    exact mem_fedNodes
  · refine (h.members a e x he hx).trans (if_neg ?_)
    rw [hsupply]
    exact fun h => nomatch h
  · refine (h.members a e x he hx).trans ((if_pos hsupply).trans ?_)
    rw [show s.now = s.gap.clock from rfl, rechargedReserve_of_interval hn]
  · refine ((h.others a fun hmem => ?_).nodeState).trans (nodeState_of_runtime hr)
    obtain ⟨⟨e', he', hfed⟩, -⟩ := mem_leavingNodes.1 hmem
    rw [he] at he'
    cases he'
    rw [hsupply] at hfed
    cases hfed
  · refine ((h.others a fun hmem => (mem_leavingNodes.1 hmem).2 ?_).nodeState).trans (nodeState_of_runtime hr)
    rw [nodeState_of_runtime hr]
    obtain hstate | hstate := hstate <;> simp [hstate]
  · have hleaves : a ∈ s.leavingNodes := mem_leavingNodes.2 ⟨⟨e, he, hsupply⟩, by rwa [nodeState_of_runtime hr]⟩
    refine (h.suspended a hleaves r hr).trans (congrArg some ?_)
    unfold suspendedRecord Runtime.countOnDoubt StepCondition.cancel Runtime.move
    cases r.state <;> cases r.step <;> rfl
  · have hleaves : a ∈ s.leavingNodes := mem_leavingNodes.2 ⟨⟨e, he, hsupply⟩, by rwa [nodeState_of_runtime hr]⟩
    by_contra hkind
    exact (h.passes p hp).1 hkind (hdest ▸ hleaves)

/-! ### Edges (R18 to R20) -/

/-- The last sample of GAP is the other level now. -/
def State.sampled (s : State) (x : GapCondition) : State :=
  { s with gap := { s.gap with gapHigh := !s.gap.gapHigh, condition := x } }

theorem onlyReserves_settledReserves (edge : Time) (d : Nat) (s : State) :
    ∃ v, settledReserves edge d s = s.withGap { s.gap with condition := .supplied, lastD := d, reserves := v } := by
  obtain ⟨v, hv⟩ := forNodes_keeps (P := OnlyReserves (s.withGap { s.gap with condition := .supplied, lastD := d }))
    (fun a t h => h.trans ((mapsReserve_settleReserve d).only a t)) s.gap.gapSet (.refl _)
  obtain ⟨w, hw⟩ := forNodes_keeps (P := OnlyReserves (forNodes s.gap.gapSet (settleReserve d)
    (s.withGap { s.gap with condition := .supplied, lastD := d })))
    (fun a t h => h.trans ((mapsReserve_setOrigin edge).only a t)) addresses (.refl _)
  unfold settledReserves
  rw [hw, hv]
  exact ⟨w, rfl⟩

/-- What a gap end leaves, whatever the gap set was. -/
theorem confirmGapEnd_kept (start edge : Time) (s : State) :
    (confirmGapEnd start edge s).gap.condition = .supplied ∧ (confirmGapEnd start edge s).gap.gapSet = []
      ∧ (confirmGapEnd start edge s).gap.gapHigh = s.gap.gapHigh ∧ (confirmGapEnd start edge s).tables = s.tables := by
  obtain ⟨x, y, z, h⟩ := confirmGapEnd_eq start edge s
  obtain ⟨v, hv⟩ := onlyReserves_settledReserves edge (s.gapDuration start edge) s
  have hquiet : (offerGap 1 edge (s.gapDuration start edge) x y z
      (forNodes s.gap.gapSet (fun a => memberAtGapEnd edge a (s.classOf (s.gapDuration start edge) a))
        (settledReserves edge (s.gapDuration start edge) s))).quiet =
      (s.withGap { s.gap with condition := .supplied, lastD := s.gapDuration start edge, reserves := v }).quiet := by
    rw [offerGap_quiet, forNodes_quiet _ _ fun a t => memberAtGapEnd_quiet t _ _ _, hv]
  rw [h]
  exact ⟨congrArg Quiet.condition hquiet, rfl, congrArg Quiet.gapHigh hquiet, congrArg Quiet.tables hquiet⟩

section
variable {s : State}

theorem gapEdgeAbsent_of_present (h : ¬ s.gap.gapHigh = s.straps.gapPol) :
    gapEdgeAbsent s =
      match s.gap.condition with
      | .supplied =>
        if s.tables.params.debounce = 0 then some (confirmGapStart s.now (s.sampled .supplied))
        else some (s.sampled (.startPending s.now s.expiryOfEdge))
      | .endPending start _ _ => some (raiseFlag .glitch (s.sampled (.inGap start)))
      | c => some (s.sampled c) := by
  unfold gapEdgeAbsent State.supplyAbsent State.sampled
  rw [beq_eq_false_iff_ne.2 h]
  cases hcond : s.gap.condition <;> simp [hcond, State.withGap, State.setCondition, State.now, State.params, State.expiryOfEdge]

theorem gapEdgePresent_of_absent (h : s.gap.gapHigh = s.straps.gapPol) :
    gapEdgePresent s =
      match s.gap.condition with
      | .inGap start =>
        if s.tables.params.debounce = 0 then some (confirmGapEnd start s.now (s.sampled (.inGap start)))
        else some (s.sampled (.endPending start s.now s.expiryOfEdge))
      | .startPending _ _ => some (raiseFlag .glitch (s.sampled .supplied))
      | c => some (s.sampled c) := by
  unfold gapEdgePresent State.supplyAbsent State.sampled
  rw [beq_iff_eq.2 h]
  cases hcond : s.gap.condition <;> simp [hcond, State.withGap, State.setCondition, State.now, State.params, State.expiryOfEdge]

/-- A glitch: the condition before the pending change, the flag, and nothing else of the machine. -/
theorem glitch_of_exec {c : Instr} {x : GapCondition} (hexec : exec c s = took (raiseFlag .glitch (s.sampled x))) :
    ∃ t, exec c s = .next t ∧ t.gap = { s.gap with gapHigh := !s.gap.gapHigh, condition := x } ∧ t.flagSet .glitch = true
      ∧ t.restore = s.restore ∧ t.segment = s.segment ∧ t.hold = s.hold ∧ t.shadow = s.shadow ∧ t.tables = s.tables
      ∧ t.store = s.store := by
  have hflag := (flagSet_endCommand .glitch _).trans (flagSet_raiseFlag .glitch (s.sampled x))
  obtain ⟨_, _, h⟩ := reports_raiseFlag .glitch (s.sampled x)
  refine ⟨_, hexec, ?_, hflag, ?_⟩
  · rw [endCommand_transmit, h]; rfl
  · rw [endCommand_transmit, h]
    exact ⟨rfl, rfl, rfl, rfl, rfl, rfl⟩

end

/-- Settles O45: the level and the condition decide what an edge does; a timer acts at its time. -/
theorem gapEdgesGlitchesAndAgedMarks : Obligations.GapEdgesGlitchesAndAgedMarks := by
  intro s
  refine ⟨fun hlevel hcond hd => ?_, fun start hlevel hcond hd => ?_, fun hlevel hcond hd => ?_,
    fun start hlevel hcond hd => ?_, fun start e x hlevel hcond => glitch_of_exec ?_, fun e x hlevel hcond => glitch_of_exec ?_,
    fun start hcond hclock haged => ?_, fun a x hx hclock haged => ?_⟩
  · show happens (gapEdgeAbsent s) s = _
    rw [gapEdgeAbsent_of_present hlevel, hcond]
    dsimp only
    rw [if_neg hd]
    rfl
  · show happens (gapEdgePresent s) s = _
    rw [gapEdgePresent_of_absent hlevel, hcond]
    dsimp only
    rw [if_neg hd]
    rfl
  · have hedge : gapEdgeAbsent s = some (confirmGapStart s.now (s.sampled .supplied)) := by
      rw [gapEdgeAbsent_of_present hlevel, hcond]
      exact if_pos hd
    have h := (confirmGapStart_started s.now (s.sampled .supplied)).kept
    refine ⟨_, congrArg (happens · s) hedge, ?_⟩
    rw [endCommand_transmit]
    exact ⟨congrArg Quiet.condition h, congrArg Quiet.aged h, congrArg Quiet.gapHigh h, congrArg Quiet.tables h⟩
  · have hedge : gapEdgePresent s = some (confirmGapEnd start s.now (s.sampled (.inGap start))) := by
      rw [gapEdgePresent_of_absent hlevel, hcond]
      exact if_pos hd
    refine ⟨_, congrArg (happens · s) hedge, ?_⟩
    rw [endCommand_transmit]
    exact confirmGapEnd_kept start s.now (s.sampled (.inGap start))
  · show happens (gapEdgeAbsent s) s = _
    rw [gapEdgeAbsent_of_present hlevel, hcond]
    rfl
  · show happens (gapEdgePresent s) s = _
    rw [gapEdgePresent_of_absent hlevel, hcond]
    rfl
  · have hstart : s.gap.condition.start = some start := by
      obtain hcond | ⟨e, x, hcond⟩ := hcond <;> rw [hcond] <;> rfl
    have hreached : reached s.now (after start 65535) = true := by
      rw [show s.now = after start 65535 from hclock]; exact reached_self _
    show happens (gapAgedExpiry s) s = _
    rw [gapAgedExpiry, hstart]
    dsimp only
    rw [if_pos ⟨hreached, haged⟩]
    rfl
  · have hreached : reached s.now (after x.origin 65535) = true := by
      rw [show s.now = after x.origin 65535 from hclock]; exact reached_self _
    show happens (originAgedExpiry a s) s = _
    rw [originAgedExpiry, hx]
    dsimp only
    rw [if_pos ⟨hreached, haged⟩]
    rfl

/-! ### Frames that wait in egress (R81, R94, R181) -/

/-- A frame that waits in egress stays where it is. -/
def KeepsFrames (s t : State) : Prop :=
  ∀ (i : Nat) (f : TrunkFrame), s.trunk.egress[i]? = some (.waiting f) → t.trunk.egress[i]? = some (.waiting f)

theorem KeepsFrames.of_egress {s t : State} (h : t.trunk.egress = s.trunk.egress) : KeepsFrames s t :=
  fun i f hi => by rw [h]; exact hi

theorem KeepsFrames.trans {s t u : State} (h : KeepsFrames s t) (g : KeepsFrames t u) : KeepsFrames s u :=
  fun i f hi => g i f (h i f hi)

theorem egress_enqueue_other {s : State} {i j : Nat} (hij : j ≠ i) (f : TrunkFrame) :
    (s.enqueue i f).trunk.egress[j]? = s.trunk.egress[j]? := by
  show (s.trunk.egress.setIfInBounds i _)[j]? = _
  rw [Vector.getElem?_setIfInBounds, if_neg (Ne.symm hij)]

theorem egress_enqueue_self {s : State} {i : Nat} (hi : i < 24) (f : TrunkFrame) :
    (s.enqueue i f).trunk.egress[i]? = some (.waiting f) := by
  show (s.trunk.egress.setIfInBounds i _)[i]? = _
  rw [Vector.getElem?_setIfInBounds, if_pos rfl, if_pos hi]

theorem keepsFrames_enqueue_free {s : State} {i : Nat} (h : s.freeEntry = some i) (f : TrunkFrame) :
    KeepsFrames s (s.enqueue i f) := by
  intro j g hj
  refine (egress_enqueue_other (fun hij => ?_) f).trans hj
  rw [hij, (freeEntry_eq_some h).2] at hj
  cases hj

theorem keepsFrames_loseFrame (s : State) : KeepsFrames s (loseFrame s) := by
  have hlost : KeepsFrames s ((countLost s).setFlag .egressOverflow) := .of_egress rfl
  unfold loseFrame
  dsimp only
  split
  · exact .of_egress rfl
  · split
    · split
      · next i hi => exact hlost.trans (keepsFrames_enqueue_free hi _)
      · exact .of_egress rfl
    · exact hlost

theorem keepsFrames_offerFrame (f : TrunkFrame) (s : State) : KeepsFrames s (offerFrame f s) := by
  unfold offerFrame
  split
  · next i hi => exact keepsFrames_enqueue_free hi f
  · exact keepsFrames_loseFrame s

theorem keepsFrames_raiseFlag (f : Flag) (s : State) : KeepsFrames s (raiseFlag f s) := by
  have hset : KeepsFrames s (s.setFlag f) := .of_egress rfl
  unfold raiseFlag
  dsimp only
  split
  · exact .of_egress rfl
  · split
    · exact hset.trans (keepsFrames_offerFrame _ _)
    · exact hset

theorem keepsFrames_offerGap (phase : Byte) (edge : Time) (d x y z : Nat) (s : State) :
    KeepsFrames s (offerGap phase edge d x y z s) := by
  unfold offerGap
  split
  · exact keepsFrames_offerFrame _ s
  · exact .of_egress rfl

theorem keepsFrames_shadowMiss (s : State) : KeepsFrames s (shadowMiss s) :=
  keepsFrames_raiseFlag .shadowMiss (s.withShadow { s.shadow with missCount := s.shadow.missCount + 1 })

theorem keepsFrames_capture (a k : Nat) (c : CapturedFrame) (mark : Bool) (s : State) :
    KeepsFrames s (capture a k c mark s).1 := by
  cases hi : s.poolSlot a k with
  | none =>
    rw [capture_miss hi]
    exact keepsFrames_shadowMiss s
  | some i =>
    obtain ⟨x, hx⟩ := (capture_spec hi c mark).2.frame
    rw [hx]
    exact .of_egress rfl

theorem keepsFrames_captureLatest (a : Nat) (slot : Option Nat) (c : CapturedFrame) (s : State) :
    KeepsFrames s (captureLatest a slot c s).1 := by
  unfold captureLatest
  split
  · exact keepsFrames_capture _ _ _ _ _
  · exact .of_egress rfl

theorem trunk_appendHold (a : Nat) (x : HeldFrame) (s : State) : (appendHold a x s).1.trunk = s.trunk := by
  unfold appendHold
  split
  · split <;> rfl
  · rfl

theorem keepsFrames_appendHold (a : Nat) (x : HeldFrame) (s : State) : KeepsFrames s (appendHold a x s).1 :=
  .of_egress (congrArg TrunkPort.egress (trunk_appendHold a x s))

theorem keepsFrames_absentTreatment (e : PassEntry) (a : Nat) (s : State) : KeepsFrames s (absentTreatment e a s) := by
  unfold absentTreatment
  split
  · exact keepsFrames_appendHold _ _ _
  · exact keepsFrames_captureLatest _ _ _ _
  · exact .of_egress rfl

/-- The answer code of a returned entry (R105). -/
structure ReturnCode (s : State) (e : PassEntry) (c : AnswerCode) : Prop where
  refuse : e.action.absent = .refuse → c = s.refuseCode
  queue : e.action.absent = .queue → c = .held ∨ c = .holdFull
  latest : ∀ n k, s.entry e.destination = some n → e.action.absent = .latest → e.action.slot = some k →
    c = if k < n.shadowCount then .stored else .holdFull

theorem refuseCode_congr {s t : State} (h : t.gap = s.gap) : t.refuseCode = s.refuseCode := by
  unfold State.refuseCode State.gapInProgress
  rw [h]

theorem Stores.gap {s t : State} (h : Stores s t) : t.gap = s.gap := by
  obtain ⟨_, _, _, _, rfl⟩ := h
  rfl

theorem ReturnCode.of_stores {s t : State} (h : Stores s t) {e : PassEntry} {c : AnswerCode} (k : ReturnCode t e c) :
    ReturnCode s e c :=
  ⟨fun hp => (k.refuse hp).trans (refuseCode_congr h.gap), k.queue, fun n j hn => k.latest n j ((h.entry _).trans hn)⟩

theorem captureLatest_made {a k : Nat} {n : NodeEntry} {s : State} (hn : s.entry a = some n) (c : CapturedFrame) :
    (captureLatest a (some k) c s).2 = decide (k < n.shadowCount) := by
  show (capture a k c true s).2 = _
  by_cases hk : k < n.shadowCount
  · rw [(capture_spec (poolSlot_of_entry hn hk) c true).1, decide_eq_true hk]
  · rw [capture_miss (poolSlot_beyond hn (Nat.not_lt.1 hk)), decide_eq_false hk]

theorem disposeReturned_answers (e : PassEntry) (s : State) :
    ∃ v c, disposeReturned e s = answerPass e c [] v ∧ KeepsFrames s v ∧ ReturnCode s e c := by
  unfold disposeReturned
  cases hpolicy : e.action.absent with
  | queue =>
    refine ⟨_, _, rfl, keepsFrames_appendHold _ _ _, ⟨fun h => ?_, fun _ => ?_, fun _ _ _ h => ?_⟩⟩
    · rw [hpolicy] at h; cases h
    · split
      · exact .inl rfl
      · exact .inr rfl
    · rw [hpolicy] at h; cases h
  | latest =>
    refine ⟨_, _, rfl, keepsFrames_captureLatest _ _ _ _, ⟨fun h => ?_, fun h => ?_, fun n k hn _ hk => ?_⟩⟩
    · rw [hpolicy] at h; cases h
    · rw [hpolicy] at h; cases h
    · rw [hk, captureLatest_made hn]
      simp only [decide_eq_true_eq]
  | refuse =>
    refine ⟨_, _, rfl, .of_egress rfl, ⟨fun _ => rfl, fun h => ?_, fun _ _ _ h => ?_⟩⟩
    · rw [hpolicy] at h; cases h
    · rw [hpolicy] at h; cases h

/-- A frame that waits in an entry which no returned pass entry holds stays there. -/
theorem walkReturned_keeps (l : List Nat) (q : List PassEntry) {i : Nat} (hi : ∀ e ∈ q, e.reservation ≠ i) (s : State)
    {f : TrunkFrame} (h : s.trunk.egress[i]? = some (.waiting f)) :
    (walkReturned l q s).2.trunk.egress[i]? = some (.waiting f) := by
  induction q generalizing s with
  | nil => exact h
  | cons e q ih =>
    have hq := fun x hx => hi x (List.mem_cons_of_mem e hx)
    unfold walkReturned
    split
    · exact ih hq _ (forNodes_keeps (P := KeepsFrames s) (fun a t ht => ht.trans (keepsFrames_absentTreatment e a t)) _
        (.of_egress rfl) i f h)
    · split
      · obtain ⟨v, c, hv, hkeeps, -⟩ := disposeReturned_answers e s
        refine ih hq _ ?_
        rw [hv]
        exact (egress_enqueue_other (Ne.symm (hi e List.mem_cons_self)) _).trans (hkeeps i f h)
      · exact ih hq s h

/-- Every queued unicast entry of a leaving node is answered through its reservation. -/
theorem walkReturned_answers (l : List Nat) (q : List PassEntry) (hq : (q.map (·.reservation)).Nodup) (s : State)
    {e : PassEntry} (he : e ∈ q) (hkind : e.kind ≠ .broadcast) (hl : e.destination ∈ l) (hi : e.reservation < 24) :
    ∃ c, ReturnCode s e c
      ∧ (walkReturned l q s).2.trunk.egress[e.reservation]? = some (.waiting (segmentAnswer e.tag c [])) := by
  induction q generalizing s with
  | nil => cases he
  | cons x q ih =>
    obtain ⟨hx, hq⟩ := List.nodup_cons.1 hq
    rcases List.mem_cons.1 he with rfl | he
    · obtain ⟨v, c, hv, -, hc⟩ := disposeReturned_answers e s
      refine ⟨c, hc, ?_⟩
      have hwalk : walkReturned l (e :: q) s = walkReturned l q (disposeReturned e s) := by
        rw [walkReturned.eq_2]
        split
        · next hbroadcast => exact absurd hbroadcast hkind
        · exact if_pos (by simpa using hl)
      rw [hwalk, hv]
      refine walkReturned_keeps l q (fun y hy heq => hx ?_) _ (egress_enqueue_self hi _)
      exact List.mem_map.2 ⟨y, hy, heq⟩
    · unfold walkReturned
      split
      · obtain ⟨c, hc, hshown⟩ := ih hq (forNodes (x.live.filter (l.contains ·)) (absentTreatment x) s) he
        exact ⟨c, hc.of_stores (stores_forNodes (stores_absentTreatment x) _ s), hshown⟩
      · split
        · obtain ⟨c, hc, hshown⟩ := ih hq (disposeReturned x s) he
          exact ⟨c, hc.of_stores (stores_disposeReturned x s), hshown⟩
        · exact ih hq s he

theorem returnPasses_answers (l : List Nat) (s : State)
    (hq : ((s.segment.urgent ++ s.segment.normal).map (·.reservation)).Nodup) {e : PassEntry}
    (he : e ∈ s.segment.urgent ++ s.segment.normal) (hkind : e.kind ≠ .broadcast) (hl : e.destination ∈ l)
    (hi : e.reservation < 24) :
    ∃ c, ReturnCode s e c
      ∧ (returnPasses l s).trunk.egress[e.reservation]? = some (.waiting (segmentAnswer e.tag c [])) := by
  rw [List.map_append] at hq
  obtain ⟨hurgent, hnormal, hapart⟩ := List.nodup_append.1 hq
  rcases List.mem_append.1 he with he | he
  · obtain ⟨c, hc, hshown⟩ := walkReturned_answers l _ hurgent s he hkind hl hi
    refine ⟨c, hc, walkReturned_keeps l _ (fun x hx heq => ?_) _ hshown⟩
    exact hapart _ (List.mem_map_of_mem he) _ (List.mem_map_of_mem hx) heq.symm
  · obtain ⟨c, hc, hshown⟩ :=
      walkReturned_answers l _ hnormal (walkReturned l s.segment.urgent s).2 he hkind hl hi
    exact ⟨c, hc.of_stores (stores_walkReturned l _ s), hshown⟩

/-- A gap start answers every queued unicast entry of a node that enters SUSPECT. -/
theorem confirmGapStart_answers (start : Time) (s : State)
    (hq : ((s.segment.urgent ++ s.segment.normal).map (·.reservation)).Nodup) {e : PassEntry}
    (he : e ∈ s.segment.urgent ++ s.segment.normal) (hkind : e.kind ≠ .broadcast) (hl : e.destination ∈ s.leavingNodes)
    (hi : e.reservation < 24) :
    ∃ c, ReturnCode (s.gapOpened start) e c
      ∧ (confirmGapStart start s).trunk.egress[e.reservation]? = some (.waiting (segmentAnswer e.tag c [])) := by
  obtain ⟨v, hv⟩ := gapOpened_only s start
  obtain ⟨x, y, hxy⟩ := (suspendMembers_spec s.leavingNodes ((addresses_nodup.filter _).filter _) (s.gapOpened start)).1
  have hsegment : (forNodes s.leavingNodes suspendMember (s.gapOpened start)).segment = s.segment := by rw [hxy, hv]; rfl
  obtain ⟨c, hc, hshown⟩ := returnPasses_answers s.leavingNodes (forNodes s.leavingNodes suspendMember (s.gapOpened start))
    (by rwa [hsegment]) (by rwa [hsegment]) hkind hl hi
  refine ⟨c, ⟨fun h => (hc.refuse h).trans ?_, hc.queue, fun n k hn => hc.latest n k ?_⟩, ?_⟩
  · rw [hxy]; rfl
  · rw [hxy]; exact hn
  · rw [confirmGapStart_eq]
    exact keepsFrames_offerGap _ _ _ _ _ _ _ _ _ hshown

theorem disposeReturned_queue {e : PassEntry} (h : e.action.absent = .queue) (s : State) :
    disposeReturned e s = disposeHold e s := by
  unfold disposeReturned; rw [h]; rfl

theorem disposeReturned_latest {e : PassEntry} (h : e.action.absent = .latest) (s : State) :
    disposeReturned e s = disposeLatest e s := by
  unfold disposeReturned; rw [h]; rfl

theorem disposeReturned_refuse {e : PassEntry} (h : e.action.absent = .refuse) (s : State) :
    disposeReturned e s = answerPass e s.refuseCode [] s := by
  unfold disposeReturned; rw [h]

/-- Settles O47: a returned entry is disposed of as a request is, and the walks of a gap start answer each into its entry. -/
theorem returnedPassEntriesAreAnswered : Obligations.ReturnedPassEntriesAreAnswered := by
  refine ⟨fun s e n hn => ?_, ?_⟩
  · refine ⟨fun hpolicy hroom hfree => ?_, fun hpolicy hfull => ?_, fun k hpolicy hslot hk hpool => ?_,
      fun k hpolicy hslot hk => ?_, fun hpolicy hgap => ?_, fun hpolicy hgap => ?_⟩
    · exact (disposeReturned_queue hpolicy s).trans (disposeHold_made hn ⟨hroom, hfree⟩)
    · exact (disposeReturned_queue hpolicy s).trans (disposeHold_full hn hfull)
    · have hcaptured := (capture_spec (poolSlot_of_entry hn hk) e.captured true).2
      have hmade : ∀ j, j = n.shadowBase + k ∧ n.shadowBase + k < 96 ↔ j = n.shadowBase + k := fun j => by omega
      refine ⟨_, (disposeReturned_latest hpolicy s).trans (disposeLatest_stored hn hslot hk), ?_, ?_, hcaptured.flight,
        fun b hb => ?_, fun j hj => ?_, hold_capture .., ?_⟩
      · exact (hcaptured.slots _).trans (if_pos ((hmade _).2 rfl))
      · exact (hcaptured.lists _).trans (if_pos ⟨rfl, isAddress_of_entry hn⟩)
      · exact (hcaptured.flights b).trans (if_neg (Ne.symm hb))
      · exact (hcaptured.slots j).trans (if_neg (hj ∘ And.left))
      · obtain ⟨_, _, _, _, h⟩ := stores_capture e.destination k e.captured true s
        rw [h]
    · obtain ⟨hflag, hshadow, hhold, -⟩ := shadowMiss_spec s
      exact ⟨_, (disposeReturned_latest hpolicy s).trans (disposeLatest_miss hn hslot hk), hflag, hhold, hshadow⟩
    · rw [disposeReturned_refuse hpolicy, State.refuseCode, hgap]
      rfl
    · rw [disposeReturned_refuse hpolicy, State.refuseCode, hgap]
      rfl
  · intro s edge hcond entries suspended hq
    have hleaves : ∀ a m, suspended a m → a ∈ s.leavingNodes := fun a m h => mem_leavingNodes.2 ⟨⟨m, h.1, h.2.1⟩, h.2.2⟩
    refine ⟨_, exec_gapStart_due hcond (reached_self _), fun e n he hkind hi hn => ?_, fun e he hkind a n hn hlive => ?_⟩
    · obtain ⟨c, hc, hshown⟩ := confirmGapStart_answers edge s hq he hkind (hleaves _ _ hn) hi
      have hshows : (endCommand (confirmGapStart edge s)).Shows e.reservation (segmentAnswer e.tag c []) :=
        State.Shows.endCommand (.inl hshown)
      obtain ⟨v, hv⟩ := gapOpened_only s edge
      refine ⟨fun hpolicy => ?_, fun hpolicy => ?_, fun k hpolicy hslot => ?_⟩
      · have hcode := hc.refuse hpolicy
        rw [hv] at hcode
        rw [hcode] at hshows
        exact hshows
      · obtain hcode | hcode := hc.queue hpolicy
        · rw [hcode] at hshows; exact .inl hshows
        · rw [hcode] at hshows; exact .inr hshows
      · have hcode := hc.latest n k (by rw [hv]; exact hn.1) hpolicy hslot
        rw [hcode] at hshows
        split at hshows
        · next hk => rw [if_pos hk]; exact hshows
        · next hk => rw [if_neg hk]; exact hshows
    · rw [endCommand_transmit] at he
      exact ((confirmGapStart_started edge s).passes e he).2 hkind a (hleaves a n hn) hlive

end Sys2Proof.Machine
end

section
/-! SUPPORT. Power-on and RESET (R34, R60, R179, R191): the first sample, the table load and the directory load. -/

namespace Sys2Proof.Machine

/-! ### A gap start without sessions, queued frames and notices -/

/-- `t` differs from `s` at most in the runtime records. -/
def OnlyNodes (s t : State) : Prop := ∃ v, t = s.withRestore { s.restore with nodes := v }

theorem OnlyNodes.refl (s : State) : OnlyNodes s s := ⟨s.restore.nodes, rfl⟩

theorem OnlyNodes.trans {s t u : State} (h : OnlyNodes s t) (g : OnlyNodes t u) : OnlyNodes s u := by
  obtain ⟨_, rfl⟩ := h
  obtain ⟨_, rfl⟩ := g
  exact ⟨_, rfl⟩

theorem onlyNodes_mapRuntime (s : State) (a : Nat) (f : Runtime → Runtime) : OnlyNodes s (s.mapRuntime a f) := by
  unfold State.mapRuntime
  split
  · exact ⟨_, rfl⟩
  · exact .refl s

theorem session_mapRuntime_keeping {s : State} {a : Nat} {f : Runtime → Runtime} (hf : ∀ r, (f r).session = r.session)
    (b : Nat) : (s.mapRuntime a f).session b = s.session b := by
  unfold State.session
  rw [runtime_mapRuntime]
  split
  · cases s.runtime b with
    | none => rfl
    | some r => exact hf r
  · rfl

theorem endSession_idle {s : State} {a : Nat} (h : s.session a = none) : endSession a s = s := by
  unfold endSession; rw [h]

/-- No node holds a session. -/
def State.Idle (s : State) : Prop := ∀ a, s.session a = none

theorem session_cancelStep (a b : Nat) (s : State) : (cancelStep a s).session b = s.session b :=
  session_mapRuntime_keeping (f := fun r => { r with step := r.step.cancel }) (fun _ => rfl) b

theorem session_enterSuspect (a b : Nat) (phase : NodeState) (s : State) : (enterSuspect a phase s).session b = s.session b := by
  unfold enterSuspect
  refine session_mapRuntime_keeping (fun r => ?_) b
  rfl

theorem suspendMember_idle {s : State} (h : s.Idle) (a : Nat) :
    OnlyNodes s (suspendMember a s) ∧ (suspendMember a s).Idle := by
  have hcancel : (cancelStep a s).Idle := fun b => (session_cancelStep a b s).trans (h b)
  have heq : suspendMember a s = enterSuspect a (s.nodeState a) (cancelStep a s) :=
    congrArg (enterSuspect a (s.nodeState a)) (endSession_idle (hcancel a))
  rw [heq]
  exact ⟨(onlyNodes_mapRuntime s a _).trans (onlyNodes_mapRuntime _ a _),
    fun b => (session_enterSuspect ..).trans (hcancel b)⟩

theorem suspendMembers_idle {s : State} (h : s.Idle) (l : List Nat) :
    OnlyNodes s (forNodes l suspendMember s) :=
  (forNodes_keeps (P := fun t => OnlyNodes s t ∧ t.Idle)
    (fun a _ ht => ⟨ht.1.trans (suspendMember_idle ht.2 a).1, (suspendMember_idle ht.2 a).2⟩) l ⟨.refl s, h⟩).1

theorem returnPasses_empty {s : State} (hurgent : s.segment.urgent = []) (hnormal : s.segment.normal = []) (l : List Nat) :
    returnPasses l s = s := by
  have hkept : returnPasses l s = setPassQueues s.segment.urgent s.segment.normal s := by
    unfold returnPasses
    rw [hurgent, hnormal]
    rfl
  rw [hkept]
  have hrun : ((if (s.segment.normal.isEmpty && !s.segment.normal.isEmpty) = true then 0 else s.segment.runCount) : Nat)
      = s.segment.runCount := if_neg (by simp)
  unfold setPassQueues
  dsimp only
  rw [hrun]
  rfl

/-- A gap start of a machine without sessions and queued frames and with bit 2 of the mask clear. -/
theorem confirmGapStart_idle {s : State} (hidle : s.Idle) (hurgent : s.segment.urgent = []) (hnormal : s.segment.normal = [])
    (hmask : s.maskGap = false) (start : Time) :
    ∃ v w, confirmGapStart start s =
      (s.withGap { s.gap with condition := .inGap start, aged := false, gapSet := s.fedNodes, reserves := v }).withRestore
        { s.restore with nodes := w } := by
  obtain ⟨v, hv⟩ := gapOpened_only s start
  obtain ⟨w, hw⟩ := suspendMembers_idle (s := s.gapOpened start) (by rw [hv]; exact hidle) s.leavingNodes
  have hempty : returnPasses s.leavingNodes (forNodes s.leavingNodes suspendMember (s.gapOpened start)) = _ :=
    returnPasses_empty (by rw [hw, hv]; exact hurgent) (by rw [hw, hv]; exact hnormal) s.leavingNodes
  rw [confirmGapStart_eq, hempty, hw, hv]
  refine ⟨v, w, if_neg fun hset => Bool.false_ne_true (hmask.symm.trans hset)⟩

/-! ### The first sample (R34) -/

theorem restart_maskGap (x : Straps) (high : Bool) (s : State) : (restart x high s).maskGap = false := by
  show (0 : BitVec 3).getLsbD 2 = false
  rfl

theorem restart_idle (x : Straps) (high : Bool) (s : State) : (restart x high s).Idle := by
  intro a
  unfold State.session
  rw [restart_runtime]
  cases (restart x high s).entry a <;> rfl

section
variable {x : Straps} {high : Bool} {s : State}

theorem firstSample_present (h : high ≠ x.gapPol) : firstSample (restart x high s) = restart x high s :=
  if_neg fun hlevel => h (eq_of_beq hlevel)

theorem firstSample_pending (h : high = x.gapPol) (hd : (restart x high s).tables.params.debounce ≠ 0) :
    firstSample (restart x high s) =
      (restart x high s).setCondition (.startPending 0 (BitVec.ofNat 32 (restart x high s).tables.params.debounce)) := by
  have hexpiry : (restart x high s).expiryOfEdge = BitVec.ofNat 32 (restart x high s).tables.params.debounce :=
    BitVec.zero_add ..
  have hlevel : ((restart x high s).gap.gapHigh == (restart x high s).straps.gapPol) = true := beq_iff_eq.2 h
  unfold firstSample
  rw [if_pos hlevel, hexpiry]
  exact if_neg hd

theorem firstSample_gap (h : high = x.gapPol) (hd : (restart x high s).tables.params.debounce = 0) :
    firstSample (restart x high s) = confirmGapStart 0 (restart x high s) := by
  have hlevel : ((restart x high s).gap.gapHigh == (restart x high s).straps.gapPol) = true := beq_iff_eq.2 h
  unfold firstSample
  rw [if_pos hlevel]
  exact if_pos hd

/-- The first sample writes the gap record and the runtime records, and nothing else. -/
theorem firstSample_frame :
    ∃ c l v w, firstSample (restart x high s) =
      ((restart x high s).withGap { (restart x high s).gap with condition := c, gapSet := l, reserves := v }).withRestore
        { (restart x high s).restore with nodes := w } := by
  by_cases h : high = x.gapPol
  · by_cases hd : (restart x high s).tables.params.debounce = 0
    · obtain ⟨v, w, hvw⟩ := confirmGapStart_idle (restart_idle x high s) rfl rfl (restart_maskGap x high s) 0
      exact ⟨_, _, v, w, (firstSample_gap h hd).trans hvw⟩
    · exact ⟨.startPending 0 (BitVec.ofNat 32 (restart x high s).tables.params.debounce), (restart x high s).gap.gapSet,
        (restart x high s).gap.reserves, (restart x high s).restore.nodes, firstSample_pending h hd⟩
  · exact ⟨(restart x high s).gap.condition, (restart x high s).gap.gapSet, (restart x high s).gap.reserves,
      (restart x high s).restore.nodes, firstSample_present h⟩

end

theorem rechargedReserve_fresh (e : NodeEntry) :
    rechargedReserve 0 0 e { estimate := 0, origin := 0, aged := false } = { estimate := 0, origin := 0, aged := false } := by
  refine (rechargedReserve_of_interval (n := 0) (.inl ⟨rfl, Nat.le_refl _, rfl⟩)).trans ?_
  simp

/-- The runtime record of a configured node at power-on (R60). -/
def startRuntime : Runtime := { freshRuntime false with step := .ready .probe }

/-- A node's records after the first sample. -/
theorem firstSample_records {x : Straps} {high : Bool} {s : State} {a : Nat} {e : NodeEntry}
    (he : (restart x high s).entry a = some e) :
    (firstSample (restart x high s)).reserve a = some { estimate := 0, origin := 0, aged := false }
      ∧ (firstSample (restart x high s)).runtime a =
          some (if high = x.gapPol ∧ (restart x high s).tables.params.debounce = 0 ∧ e.supply = .fed
            then suspendedRecord startRuntime else startRuntime) := by
  have hreserve := restart_reserve x high s a
  have hruntime := restart_runtime x high s a
  rw [he] at hreserve hruntime
  by_cases h : high = x.gapPol
  · by_cases hd : (restart x high s).tables.params.debounce = 0
    · have hstarted := confirmGapStart_started 0 (restart x high s)
      rw [firstSample_gap h hd]
      refine ⟨(hstarted.members a e _ he hreserve).trans ?_, ?_⟩
      · rw [show (restart x high s).now = 0 from rfl, rechargedReserve_fresh, ite_self]
      · by_cases hfed : e.supply = .fed
        · rw [if_pos ⟨h, hd, hfed⟩]
          refine hstarted.suspended a (mem_leavingNodes.2 ⟨⟨e, he, hfed⟩, ?_⟩) _ hruntime
          rw [nodeState_of_runtime hruntime]
          exact (by decide : NodeState.probe ∉ [NodeState.suspect, .failed, .isolated, .unconfigured])
        · rw [if_neg fun h => hfed h.2.2]
          refine ((hstarted.others a fun hmem => hfed ?_).idle (restart_idle x high s a)).trans hruntime
          obtain ⟨⟨e', he', hfed'⟩, -⟩ := mem_leavingNodes.1 hmem
          rw [he] at he'
          cases he'
          exact hfed'
    · rw [firstSample_pending h hd, if_neg fun h => hd h.2.1]
      exact ⟨hreserve, hruntime⟩
  · rw [firstSample_present h, if_neg fun k => h k.1]
    exact ⟨hreserve, hruntime⟩

/-! ### The command (R191) -/

/-- A transmitter with nothing WAITING begins nothing (R181). -/
theorem endCommand_of_order_nil {s : State} (h : s.trunk.order = []) : endCommand s = { s with moment := s.moment + 1 } := by
  have hsame : startTransmitter s = s := by
    unfold startTransmitter
    rw [h]
    split <;> rfl
  unfold endCommand
  rw [hsame]

/-- Both resets restart every block and then take the first sample of GAP. -/
theorem exec_reset {c : Instr} {x : Straps} {high : Bool} (h : c = .powerOn x high ∨ c = .reset x high) (s : State) :
    exec c s = .next { firstSample (restart x high s) with moment := s.moment + 1 } := by
  have hend : took (firstSample (restart x high s)) = .next { firstSample (restart x high s) with moment := s.moment + 1 } := by
    obtain ⟨c, l, v, w, hframe⟩ := firstSample_frame (x := x) (high := high) (s := s)
    unfold took
    rw [endCommand_of_order_nil (by rw [hframe]; rfl), hframe]
    rfl
  obtain rfl | rfl := h
  · exact hend
  · exact hend

theorem restart_flags (x : Straps) (high : Bool) (s : State) (f : Flag) :
    (restart x high s).flagSet f = true ↔
      (f = .tablesInvalid ∧ loadTables (cutTables s) = none)
        ∨ (f = .directoryInvalid ∧ (restart x high s).store.saved = false) := by
  show ((if (loadTables (cutTables s)).isSome then (0 : BitVec 10) else BitVec.twoPow 10 6)
    ||| (if (restart x high s).store.saved then 0 else BitVec.twoPow 10 7)).getLsbD f.code = true ↔ _
  cases loadTables (cutTables s) <;> cases (restart x high s).store.saved <;> cases f <;> simp [Flag.code]

/-- Settles O9: what `restart` gives every block, and what the first sample writes. -/
theorem powerOnAndResetStartEveryBlock : Obligations.PowerOnAndResetStartEveryBlock := by
  intro c x high s hc
  refine ⟨_, exec_reset hc s, ?_⟩
  have hrecords := fun a e => firstSample_records (x := x) (high := high) (s := s) (a := a) (e := e)
  have hgap := fun h => firstSample_gap (x := x) (high := high) (s := s) h
  have hpending := fun h => firstSample_pending (x := x) (high := high) (s := s) h
  have hpresent := fun h => firstSample_present (x := x) (high := high) (s := s) h
  have hstarted := (confirmGapStart_started 0 (restart x high s))
  obtain ⟨d, l, v, w, hframe⟩ := firstSample_frame (x := x) (high := high) (s := s)
  have htables : (firstSample (restart x high s)).tables = (restart x high s).tables := by rw [hframe]; rfl
  generalize firstSample (restart x high s) = t at *
  refine ⟨?_, ?_, ?_, ?_, ?_, ?_, ?_, ?_, ?_, ?_, ?_, ?_, ?_, fun f hf hg => ?_, ?_, ?_, ?_, ?_, ?_, fun h => ?_,
    fun h hd => ?_, fun h hd => ?_, fun a e he => ?_⟩
  case refine_20 => rw [hpresent h]; exact ⟨rfl, rfl⟩
  case refine_21 =>
    have hd' : (restart x high s).tables.params.debounce ≠ 0 := by rw [← htables]; exact hd
    rw [hpending h hd']
    exact ⟨rfl, rfl⟩
  case refine_22 =>
    have hd' : (restart x high s).tables.params.debounce = 0 := by rw [← htables]; exact hd
    rw [hgap h hd']
    refine ⟨congrArg Quiet.condition hstarted.kept, fun a => ?_⟩
    have hentry : (confirmGapStart 0 (restart x high s)).entry a = (restart x high s).entry a :=
      congrArg (fun t => Tables.node t a) (congrArg Quiet.tables hstarted.kept)
    show a ∈ (confirmGapStart 0 (restart x high s)).gap.gapSet ↔
      ∃ e, (confirmGapStart 0 (restart x high s)).entry a = some e ∧ e.supply = .fed
    rw [hstarted.gapSet, hentry]
    exact mem_fedNodes
  case refine_23 =>
    have he' : (restart x high s).entry a = some e := by rw [State.entry, ← htables]; exact he
    obtain ⟨hreserve, hruntime⟩ := hrecords a e he'
    refine ⟨hreserve, _, hruntime, ?_⟩
    rw [show Tables.params _ = (restart x high s).tables.params from congrArg Tables.params htables]
    by_cases h : high = x.gapPol ∧ (restart x high s).tables.params.debounce = 0 ∧ e.supply = .fed
    · rw [if_pos h, decide_eq_true h]
      exact ⟨rfl, rfl, rfl, rfl, rfl, rfl, rfl, rfl, rfl, rfl, rfl, rfl, rfl, rfl, rfl, rfl⟩
    · rw [if_neg h, decide_eq_false h]
      exact ⟨rfl, rfl, rfl, rfl, rfl, rfl, rfl, rfl, rfl, rfl, rfl, rfl, rfl, rfl, rfl, rfl⟩
  case refine_14 =>
    rw [hframe]
    refine Bool.eq_false_iff.2 fun hset => ?_
    obtain h | h := (restart_flags x high s f).1 hset
    · exact hf h.1
    · exact hg h.1
  all_goals (rw [hframe]; rfl)

/-! ### The table load (R190, R191) -/

theorem cutTables_of_writing {s : State} {w : Tables} (haccess : s.store.access = some .operation)
    (hprogress : s.store.progress = some (.tableWriting w)) : cutTables s = none := by
  unfold cutTables; rw [haccess, hprogress]

theorem cutTables_of_kept {s : State}
    (h : ∀ w, s.store.access = some .operation → s.store.progress ≠ some (.tableWriting w)) : cutTables s = s.stored := by
  unfold cutTables
  split
  · next w haccess hprogress => exact absurd hprogress (h w haccess)
  · rfl

theorem cutTables_cases (s : State) : cutTables s = none ∨ cutTables s = s.stored := by
  unfold cutTables
  split
  · exact .inl rfl
  · exact .inr rfl

theorem loadTables_good {k : StoredTables} (hcheck : k.check = tableCheck k.tables) (hfault : k.tables.firstFault = none) :
    loadTables (some k) = some k.tables := by
  refine if_pos ?_
  rw [StoredTables.good, beq_iff_eq.2 hcheck, hfault]
  rfl

theorem loadTables_bad {k : StoredTables} (h : k.check ≠ tableCheck k.tables ∨ k.tables.firstFault ≠ none) :
    loadTables (some k) = none := by
  refine if_neg fun hgood => ?_
  obtain ⟨hcheck, hfault⟩ := Bool.and_eq_true_iff.1 hgood
  obtain h | h := h
  · exact h (eq_of_beq hcheck)
  · exact h (Option.isNone_iff_eq_none.1 hfault)

/-- What the loads leave in the Table Store and the responder. -/
theorem restart_loaded {x : Straps} {high : Bool} {s : State} {k : Tables} (h : loadTables (cutTables s) = some k) :
    (restart x high s).tables = k ∧ (restart x high s).responder.mode = .service
      ∧ (restart x high s).flagSet .tablesInvalid = false := by
  refine ⟨congrArg (Option.getD · Tables.empty) h, ?_, Bool.eq_false_iff.2 fun hset => ?_⟩
  · show (if (loadTables (cutTables s)).isSome then Mode.service else Mode.depot) = _
    rw [h]
    rfl
  · obtain ⟨-, hnone⟩ | ⟨hflag, -⟩ := (restart_flags x high s .tablesInvalid).1 hset
    · rw [h] at hnone; cases hnone
    · cases hflag

theorem restart_unloaded {x : Straps} {high : Bool} {s : State} (h : loadTables (cutTables s) = none) :
    (restart x high s).tables = Tables.empty ∧ (restart x high s).responder.mode = .depot
      ∧ (restart x high s).flagSet .tablesInvalid = true := by
  refine ⟨congrArg (Option.getD · Tables.empty) h, ?_, (restart_flags x high s .tablesInvalid).2 (.inl ⟨rfl, h⟩)⟩
  show (if (loadTables (cutTables s)).isSome then Mode.service else Mode.depot) = _
  rw [h]
  rfl

/-- What a reset leaves besides the gap record and the runtime records is what `restart` leaves. -/
theorem exec_reset_frame {c : Instr} {x : Straps} {high : Bool} {s t : State} (hc : c = .powerOn x high ∨ c = .reset x high)
    (h : exec c s = .next t) :
    t.tables = (restart x high s).tables ∧ t.responder = (restart x high s).responder
      ∧ t.stored = (restart x high s).stored ∧ t.store = (restart x high s).store := by
  obtain ⟨d, l, v, w, hframe⟩ := firstSample_frame (x := x) (high := high) (s := s)
  have heq := (exec_reset hc s).symm.trans h
  rw [hframe] at heq
  cases heq
  exact ⟨rfl, rfl, rfl, rfl⟩

/-- Settles O10: the load reads the stored copy that the reset leaves, and its two tests decide. -/
theorem tableLoadDecidesMode : Obligations.TableLoadDecidesMode := by
  intro c x high s t hc h
  obtain ⟨htables, hresponder, hstored, -⟩ := exec_reset_frame hc h
  have hflag : t.flagSet .tablesInvalid = (restart x high s).flagSet .tablesInvalid :=
    congrArg (fun r : Responder => r.flags.getLsbD Flag.tablesInvalid.code) hresponder
  rw [htables, hresponder, hstored, hflag]
  refine ⟨fun k hk hkept hcheck hfault => ?_, fun hbad => ?_⟩
  · have hcut : cutTables s = some k := (cutTables_of_kept hkept).trans hk
    obtain ⟨h1, h2, h3⟩ := restart_loaded (x := x) (high := high) (s := s) (k := k.tables)
      (by rw [hcut]; exact loadTables_good hcheck hfault)
    exact ⟨h1, h2, h3, hcut⟩
  · refine restart_unloaded ?_
    obtain hnone | ⟨w, haccess, hprogress⟩ | ⟨k, hk, hbad⟩ := hbad
    · obtain hcut | hcut := cutTables_cases s
      · rw [hcut]; rfl
      · rw [hcut, hnone]; rfl
    · rw [cutTables_of_writing haccess hprogress]; rfl
    · obtain hcut | hcut := cutTables_cases s
      · rw [hcut]; rfl
      · rw [hcut, hk]; exact loadTables_bad hbad

/-! ### Valid directory copies (R179) -/

/-- Two images of different kinds on extents that share no block. -/
def ImageEntry.Apart (e d : ImageEntry) : Prop :=
  d.kind ≠ e.kind ∧ (e.first + e.length ≤ d.first ∨ d.first + d.length ≤ e.first)

theorem ImageEntry.Apart.symm {e d : ImageEntry} (h : e.Apart d) : d.Apart e := ⟨Ne.symm h.1, h.2.symm⟩

theorem ImageEntry.apart_iff {e d : ImageEntry} (he : 1 ≤ e.length) (hd : 1 ≤ d.length) :
    e.Apart d ↔
      d.kind ≠ e.kind ∧ ∀ b, ¬ (e.first ≤ b ∧ b < e.first + e.length ∧ d.first ≤ b ∧ b < d.first + d.length) := by
  refine and_congr_right fun _ => ⟨fun h b => by omega, fun h => ?_⟩
  have := h (max e.first d.first)
  omega

theorem entriesApart_iff (l : List ImageEntry) : entriesApart l = true ↔ l.Pairwise ImageEntry.Apart := by
  induction l with
  | nil => simp [entriesApart]
  | cons e l ih => simp [entriesApart, ih, ImageEntry.Apart]

theorem pairwise_places_iff (l : List (Option ImageEntry)) :
    (l.filterMap id).Pairwise ImageEntry.Apart ↔
      ∀ (i j : Nat) (e d : ImageEntry), i < j → l[i]? = some (some e) → l[j]? = some (some d) → e.Apart d := by
  rw [List.pairwise_filterMap, List.pairwise_iff_getElem]
  constructor
  · intro h i j e d hij hi hj
    obtain ⟨hi, he⟩ := List.getElem?_eq_some_iff.1 hi
    obtain ⟨hj, hd⟩ := List.getElem?_eq_some_iff.1 hj
    exact h i j hi hj hij e he d hd
  · intro h i j hi hj hij e he d hd
    exact h i j e d hij (List.getElem?_eq_some_iff.2 ⟨hi, he⟩) (List.getElem?_eq_some_iff.2 ⟨hj, hd⟩)

/-- The tests of R179 on the entries of a copy. -/
def DirectoryCopy.Fits (k : DirectoryCopy) (n : Nat) : Prop :=
  ∀ (i : Nat) (e : ImageEntry), k.places[i]? = some (some e) →
    1 ≤ e.length ∧ e.length ≤ 4096 ∧ e.first + e.length ≤ n
      ∧ ∀ (j : Nat) (d : ImageEntry), j ≠ i → k.places[j]? = some (some d) →
          d.kind ≠ e.kind ∧ ∀ b, ¬ (e.first ≤ b ∧ b < e.first + e.length ∧ d.first ≤ b ∧ b < d.first + d.length)

theorem DirectoryCopy.valid_iff (k : DirectoryCopy) (n : Nat) :
    k.valid n = true ↔ k.check = directoryCheck k.sequence k.places ∧ k.Fits n := by
  have hlengths : ((k.places.toList.filterMap id).all fun e =>
      decide (1 ≤ e.length ∧ e.length ≤ 4096 ∧ e.first + e.length ≤ n)) = true ↔
      ∀ (i : Nat) (e : ImageEntry), k.places[i]? = some (some e) →
        1 ≤ e.length ∧ e.length ≤ 4096 ∧ e.first + e.length ≤ n := by
    rw [List.all_eq_true]
    refine ⟨fun h i e hi => of_decide_eq_true (h e (List.mem_filterMap.2 ⟨some e, ?_, rfl⟩)), fun h e he => ?_⟩
    · exact List.mem_iff_getElem?.2 ⟨i, by rw [Vector.getElem?_toList]; exact hi⟩
    · obtain ⟨o, hmem, ho⟩ := List.mem_filterMap.1 he
      obtain ⟨i, hi⟩ := List.mem_iff_getElem?.1 hmem
      rw [Vector.getElem?_toList, show o = some e from ho] at hi
      exact decide_eq_true (h i e hi)
  unfold DirectoryCopy.valid
  dsimp only
  rw [Bool.and_eq_true, Bool.and_eq_true, beq_iff_eq, hlengths, entriesApart_iff, pairwise_places_iff, and_assoc]
  simp only [Vector.getElem?_toList]
  refine and_congr_right fun _ => ⟨fun ⟨hlen, hapart⟩ i e hi => ?_, fun h => ⟨fun i e hi => ?_, fun i j e d hij hi hj => ?_⟩⟩
  · obtain ⟨h1, h2, h3⟩ := hlen i e hi
    refine ⟨h1, h2, h3, fun j d hji hj => (ImageEntry.apart_iff h1 (hlen j d hj).1).1 ?_⟩
    rcases Nat.lt_or_gt_of_ne hji with hlt | hlt
    · exact (hapart j i d e hlt hj hi).symm
    · exact hapart i j e d hlt hi hj
  · obtain ⟨h1, h2, h3, -⟩ := h i e hi
    exact ⟨h1, h2, h3⟩
  · obtain ⟨h1, -, -, h4⟩ := h i e hi
    obtain ⟨h1', -⟩ := h j d hj
    exact (ImageEntry.apart_iff h1 h1').2 (h4 j d (Nat.ne_of_gt hij) hj)

/-! ### The directory load (R165, R171, R179) -/

/-- A directory write is in progress. -/
def ImageStore.WritesDirectory (m : ImageStore) : Prop :=
  ∃ p, (m.access = some .operation ∧ m.progress = some p) ∧ p.writesDirectory = true

theorem cutDirectory_of_kept {m : ImageStore} (h : ¬ m.WritesDirectory) : cutDirectory m = m := by
  unfold cutDirectory
  split
  · next p haccess hprogress => exact if_neg fun hp => h ⟨p, ⟨haccess, hprogress⟩, hp⟩
  · rfl

theorem cutDirectory_of_writing {m : ImageStore} (h : m.WritesDirectory) : cutDirectory m = m.setCopy m.target none := by
  obtain ⟨p, ⟨haccess, hprogress⟩, hp⟩ := h
  unfold cutDirectory
  rw [haccess, hprogress]
  exact if_pos hp

/-- The copies that a reset leaves. -/
theorem cutDirectory_copies {m : ImageStore} {c0 c1 : Option DirectoryCopy}
    (h : (¬ m.WritesDirectory ∧ c0 = m.copy0 ∧ c1 = m.copy1)
      ∨ (m.WritesDirectory ∧ m.latest = some .copy0 ∧ c0 = m.copy0 ∧ c1 = none)
      ∨ (m.WritesDirectory ∧ m.latest ≠ some .copy0 ∧ c0 = none ∧ c1 = m.copy1)) :
    (cutDirectory m).copy0 = c0 ∧ (cutDirectory m).copy1 = c1 := by
  obtain ⟨hw, rfl, rfl⟩ | ⟨hw, hlatest, rfl, rfl⟩ | ⟨hw, hlatest, rfl, rfl⟩ := h
  · rw [cutDirectory_of_kept hw]
    exact ⟨rfl, rfl⟩
  · have htarget : m.target = .copy1 := by unfold ImageStore.target; rw [hlatest]
    rw [cutDirectory_of_writing hw, htarget]
    exact ⟨rfl, rfl⟩
  · have htarget : m.target = .copy0 := by
      unfold ImageStore.target
      split
      · next h => exact absurd h hlatest
      · rfl
      · rfl
    rw [cutDirectory_of_writing hw, htarget]
    exact ⟨rfl, rfl⟩

theorem cutProgram_of_kept {s : State}
    (h : ∀ i b d, ¬ (s.store.access = some .operation ∧ s.store.progress = some (.programming i b d))) :
    cutProgram s = s.store.blocks := by
  unfold cutProgram
  split
  · next i b d haccess hprogress => exact absurd ⟨haccess, hprogress⟩ (h i b d)
  · rfl

theorem cutProgram_of_programming {s : State} {i b : Nat} {d : List Byte} (haccess : s.store.access = some .operation)
    (hprogress : s.store.progress = some (.programming i b d)) :
    cutProgram s = writeBlock s.store.blocks b (tornBlock s.moment) := by
  unfold cutProgram; rw [haccess, hprogress]

theorem newerCopy_cases (k k' : DirectoryCopy) :
    (k'.sequence = k.sequence + 1 → newerCopy k k' = .copy1)
      ∧ (k'.sequence ≠ k.sequence + 1 →
          (k.sequence = k'.sequence + 1 ∨ k'.sequence.toNat ≤ k.sequence.toNat) → newerCopy k k' = .copy0)
      ∧ (k'.sequence ≠ k.sequence + 1 → k.sequence ≠ k'.sequence + 1 → k.sequence.toNat < k'.sequence.toNat →
          newerCopy k k' = .copy1) := by
  unfold newerCopy
  refine ⟨fun h => if_pos h, fun h hle => ?_, fun h h' hlt => ?_⟩
  · rw [if_neg h]
    by_cases h' : k.sequence = k'.sequence + 1
    · exact if_pos h'
    · rw [if_neg h']
      exact if_neg (Nat.not_lt.2 (hle.resolve_left h'))
  · rw [if_neg h, if_neg h']
    exact if_pos hlt

/-- N for the straps that a reset samples (R165). -/
def strappedBlocks (x : Straps) : Nat := if x.storeSz then 16384 else 8192

theorem restart_store (x : Straps) (high : Bool) (s : State) :
    (restart x high s).store = startStore (strappedBlocks x) (cutProgram s) (cutDirectory s.store) := rfl

section
variable {x : Straps} {high : Bool} {s : State}

theorem restart_taken {p : CopyPlace} {k : DirectoryCopy}
    (h : takenCopy (strappedBlocks x) (cutDirectory s.store) = some (p, k)) :
    (restart x high s).store.saved = true ∧ (restart x high s).flagSet .directoryInvalid = false
      ∧ ∀ i, (hi : i < 12) → (restart x high s).place i = (k.places[i]).map (fun e => { image := e, readers := 0 }) := by
  have hsaved : (restart x high s).store.saved = true := congrArg Option.isSome h
  refine ⟨hsaved, Bool.eq_false_iff.2 fun hset => ?_, fun i hi => ?_⟩
  · obtain ⟨hflag, -⟩ | ⟨-, hnot⟩ := (restart_flags x high s .directoryInvalid).1 hset
    · cases hflag
    · rw [hsaved] at hnot; cases hnot
  · unfold State.place
    rw [restart_store, startStore, h]
    simp [loadedCatalogue, hi]

theorem restart_untaken (h : takenCopy (strappedBlocks x) (cutDirectory s.store) = none) :
    (restart x high s).store.saved = false ∧ (restart x high s).flagSet .directoryInvalid = true
      ∧ ∀ i, (restart x high s).place i = none := by
  have hsaved : (restart x high s).store.saved = false := congrArg Option.isSome h
  refine ⟨hsaved, (restart_flags x high s .directoryInvalid).2 (.inr ⟨rfl, hsaved⟩), fun i => ?_⟩
  unfold State.place
  rw [restart_store, startStore, h]
  exact reset_place i

end

/-- Settles O11: the tests of a copy are `Fits`, a reset cuts off the write in progress, and the load takes the newer copy. -/
theorem directoryLoadTakesNewerValidCopy : Obligations.DirectoryLoadTakesNewerValidCopy := by
  refine ⟨fun n => ⟨rfl, fun k => ⟨fun h => if_pos ((k.valid_iff n).2 h), fun h => if_neg (h ∘ (k.valid_iff n).1)⟩⟩, ?_⟩
  intro c x high s t n c0 c1 hc hn hexec m running writing taken hcopies
  have hn : strappedBlocks x = n := hn.symm
  obtain ⟨-, hresponder, -, hstore⟩ := exec_reset_frame hc hexec
  obtain ⟨hcopy0, hcopy1⟩ := cutDirectory_copies hcopies
  have hflag : t.flagSet .directoryInvalid = (restart x high s).flagSet .directoryInvalid :=
    congrArg (fun r : Responder => r.flags.getLsbD Flag.directoryInvalid.code) hresponder
  have hplace : ∀ i, t.place i = (restart x high s).place i := fun i => by unfold State.place; rw [hstore]
  have hload : takenCopy n (cutDirectory s.store) =
      match validCopy n c0, validCopy n c1 with
      | some k, some k' => match newerCopy k k' with | .copy0 => some (.copy0, k) | .copy1 => some (.copy1, k')
      | some k, none => some (.copy0, k)
      | none, some k' => some (.copy1, k')
      | none, none => none := by
    rw [← hcopy0, ← hcopy1]; rfl
  have htaken : ∀ p k, takenCopy n (cutDirectory s.store) = some (p, k) → taken k := fun p k h => by
    obtain ⟨hsaved, hvalid, hplaces⟩ := restart_taken (high := high) (by rw [hn]; exact h)
    exact ⟨by rw [hstore]; exact hsaved, hflag.trans hvalid, fun i hi => (hplace i).trans (hplaces i hi)⟩
  have hboth : ∀ k k' p, validCopy n c0 = some k → validCopy n c1 = some k' → newerCopy k k' = p →
      taken (match p with | .copy0 => k | .copy1 => k') := fun k k' p h0 h1 hp => by
    rw [h0, h1] at hload
    dsimp only at hload
    rw [hp] at hload
    cases p <;> exact htaken _ _ hload
  refine ⟨?_, ?_, ?_, ?_, ?_, fun hnone => ?_, fun i b d j hrun hj => ?_, fun h0 h1 => ?_, fun k h0 h1 => ?_, fun k h0 h1 => ?_,
    fun k k' h0 h1 hnext => ?_, fun k k' h0 h1 hnot hle => ?_, fun k k' h0 h1 hnot hnot' hlt => ?_⟩
  · rw [hstore]; exact hcopy0
  · rw [hstore]; exact hcopy1
  · rw [hstore]; rfl
  · rw [hstore]; rfl
  · unfold State.storeBusy; rw [hstore]; rfl
  · rw [hstore]; exact cutProgram_of_kept hnone
  · rw [hstore]
    show readBlock (cutProgram s) j = _
    rw [cutProgram_of_programming hrun.1 hrun.2]
    exact readBlock_writeBlock_other _ _ _ _ hj
  · rw [h0, h1] at hload
    obtain ⟨hsaved, hinvalid, hplaces⟩ := restart_untaken (high := high) (by rw [hn]; exact hload)
    exact ⟨by rw [hstore]; exact hsaved, hflag.trans hinvalid, fun i => (hplace i).trans (hplaces i)⟩
  · rw [h0, h1] at hload
    exact htaken _ _ hload
  · rw [h0, h1] at hload
    exact htaken _ _ hload
  · exact hboth k k' _ h0 h1 ((newerCopy_cases k k').1 hnext)
  · exact hboth k k' _ h0 h1 ((newerCopy_cases k k').2.1 hnot hle)
  · exact hboth k k' _ h0 h1 ((newerCopy_cases k k').2.2 hnot hnot' hlt)

end Sys2Proof.Machine
end

section
/-! SUPPORT. The Image Store and the Table Store (chapter 9): how operations start, and how their accesses end. -/

namespace Sys2Proof.Machine

/-! ### The arbiter (R169) -/

/-- What is left of an operation whose answer has gone out (R172). -/
def ImageStore.finished (m : ImageStore) (more : List Operation) : ImageStore :=
  { m with operations := more, progress := none, cut := false }

theorem finishOperation_answered {s : State} {k : OperationKind} {ref : RequestRef} {more : List Operation}
    (hops : s.store.operations = { kind := k, request := some ref } :: more) (c : AnswerCode) (data : List Byte) :
    finishOperation c data s =
      ({ s with store := s.store.finished more } : State).fills ref.reservation
        { kind := 0x42, tag := ref.tag, outcome := c.code, body := ref.code :: data } := by
  unfold finishOperation
  rw [hops]
  show State.withStore _ { s.store with operations := s.store.operations.tail, progress := none, cut := false } = _
  rw [hops]
  rfl

theorem finishOperation_unasked {s : State} {k : OperationKind} {more : List Operation}
    (hops : s.store.operations = { kind := k, request := none } :: more) (c : AnswerCode) (data : List Byte) :
    finishOperation c data s = { s with store := s.store.finished more } := by
  unfold finishOperation
  rw [hops]
  show State.withStore _ { s.store with operations := s.store.operations.tail, progress := none, cut := false } = _
  rw [hops]
  rfl

theorem chooseAccess_idle {s : State} (haccess : s.store.access = none) (hreads : s.store.reads = [])
    (hprogress : s.store.progress = none) : chooseAccess s = s := by
  unfold chooseAccess; rw [haccess, hreads, hprogress]

theorem chooseAccess_operation {s : State} {p : Progress} (haccess : s.store.access = none) (hreads : s.store.reads = [])
    (hprogress : s.store.progress = some p) : chooseAccess s = s.withStore { s.store with access := some .operation } := by
  unfold chooseAccess; rw [haccess, hreads, hprogress]

/-! ### OPERATION_START (R172 to R178, R190) -/

section
variable {s : State} {o : Operation} {more : List Operation} (hops : s.store.operations = o :: more)
  (haccess : s.store.access = none) (hreads : s.store.reads = []) (hprogress : s.store.progress = none)
include hops haccess hreads hprogress

theorem exec_operationStart : exec .operationStart s = took (chooseAccess (beginOperation o.kind s)) := by
  have hstart : operationStart s = some (chooseAccess (beginOperation o.kind s)) := by
    unfold operationStart; rw [hops, haccess, hreads, hprogress]
  exact congrArg (happens · s) hstart

/-- An operation that begins an access. -/
theorem operationStart_begins {m : ImageStore} {p : Progress} (hm : m.access = none) (hr : m.reads = [])
    (h : beginOperation o.kind s = setProgress p (s.withStore m)) :
    exec .operationStart s =
      .next (endCommand { s with store := { m with progress := some p, access := some .operation } }) := by
  rw [exec_operationStart hops haccess hreads hprogress, h]
  exact took_congr (chooseAccess_operation hm hr rfl)

/-- An operation that is answered at its start. -/
theorem operationStart_ends {m : ImageStore} {k : OperationKind} {ref : RequestRef} {c : AnswerCode} {data : List Byte}
    (hm : m.access = none ∧ m.reads = [] ∧ m.progress = none)
    (hmops : m.operations = { kind := k, request := some ref } :: more)
    (h : beginOperation o.kind s = finishOperation c data (s.withStore m)) :
    exec .operationStart s =
      .next (endCommand
        ({ s with store := { m with operations := more, cut := false } }.fills ref.reservation
          { kind := 0x42, tag := ref.tag, outcome := c.code, body := ref.code :: data })) := by
  have hdone : m.finished more = { m with operations := more, cut := false } := by
    unfold ImageStore.finished
    rw [← hm.2.2]
  rw [exec_operationStart hops haccess hreads hprogress, h, finishOperation_answered hmops, ← hdone]
  exact took_congr (chooseAccess_idle hm.1 hm.2.1 rfl)

end

theorem startLoading_depot {s : State} (h : s.responder.mode = .depot) (go : State → State) : startLoading go s = go s := by
  unfold startLoading; rw [h]

theorem startLoading_service {s : State} (h : s.responder.mode = .service) (go : State → State) :
    startLoading go s = finishOperation .mode [] s := by
  unfold startLoading; rw [h]

theorem catalogueFull_iff (s : State) (kind : Byte) :
    s.catalogueFull kind = true ↔ (∀ p, p < 12 → s.place p ≠ none) ∧ s.placeOfKind kind = none := by
  unfold State.catalogueFull
  rw [Bool.and_eq_true, List.all_eq_true, Option.isNone_iff_eq_none]
  simp only [List.mem_range, Option.isSome_iff_ne_none]

theorem firstMissing_eq {x : StagedImage} {j : Nat} (hj : j < x.length) (hmissing : j ∉ x.written)
    (hlow : ∀ n, n < j → n ∈ x.written) : x.firstMissing = j := by
  unfold StagedImage.firstMissing
  have hfind : (List.range x.length).find? (fun i => !x.written.contains i) = some j := by
    rw [List.find?_range_eq_some]
    exact ⟨by simpa using hmissing, List.mem_range.2 hj, fun n hn => by simpa using hlow n hn⟩
  rw [hfind]
  rfl

/-- IMAGE OPEN at its start: the tests of R173 in their order. -/
theorem startOpen_cases (kind : Byte) (version : Word16) (len : Nat) (check : Word32) (s : State) :
    let full := (∀ p, p < 12 → s.place p ≠ none) ∧ s.placeOfKind kind = none
    (s.store.staged ≠ none → startOpen kind version len check s = finishOperation .busy [] s)
      ∧ (s.store.staged = none → (len = 0 ∨ 4096 < len) → startOpen kind version len check s = finishOperation .invalid [] s)
      ∧ (s.store.staged = none → 0 < len → len ≤ 4096 →
          (full → startOpen kind version len check s = finishOperation .noSpace [] s)
            ∧ (¬ full → s.store.saved = false → startOpen kind version len check s = setProgress .opening s)
            ∧ (¬ full → s.store.saved = true → startOpen kind version len check s = openStaged kind version len check s)) := by
  intro full
  unfold startOpen
  have hfull := catalogueFull_iff s kind
  refine ⟨fun h => if_pos (Option.isSome_iff_ne_none.2 h), fun h hlen => ?_, fun h hlow hhigh => ⟨fun hf => ?_, fun hf hs => ?_,
    fun hf hs => ?_⟩⟩
  all_goals rw [h, if_neg (by simp)]
  · exact if_pos hlen
  all_goals rw [if_neg (show ¬ (len = 0 ∨ len > 4096) by omega)]
  · exact if_pos (hfull.2 hf)
  · rw [if_neg (hf ∘ hfull.1), hs]
    rfl
  · rw [if_neg (hf ∘ hfull.1), hs]
    rfl

/-- Settles O37: each operation's own tests, in the order of its rule. -/
theorem operationStartJudgesHead : Obligations.OperationStartJudgesHead := by
  intro s o more hops haccess hreads hprogress begins m depot
  have hbegins : ∀ {m : ImageStore} {p : Progress}, m.access = none → m.reads = [] →
      beginOperation o.kind s = setProgress p (s.withStore m) → begins m p :=
    fun hm hr h => operationStart_begins hops haccess hreads hprogress hm hr h
  refine ⟨fun hkind => hbegins haccess hreads (by rw [hkind]; rfl), fun k ref ho => ?_⟩
  subst ho
  intro ends
  have hends : ∀ {c : AnswerCode} {data : List Byte},
      beginOperation k s = finishOperation c data s → ends s.store c data :=
    fun h => operationStart_ends hops haccess hreads hprogress ⟨haccess, hreads, hprogress⟩ hops h
  refine ⟨fun hservice h1 h2 => hends ?_, fun hk => hbegins haccess hreads (by rw [hk]; rfl),
    ?_, fun index data hdepot hk => ?_, fun hdepot hk => ?_, fun hdepot hk => ?_,
    fun kind hdepot hk => ?_⟩
  · cases k with
    | tableWrite => exact absurd rfl h1
    | markWrite => exact absurd rfl h2
    | _ => exact startLoading_service hservice _
  · intro kind version len check hdepot hk full
    have hstart : beginOperation k s = startOpen kind version len check s := by
      rw [hk]; exact startLoading_depot hdepot _
    obtain ⟨hbusy, hinvalid, hsized⟩ := startOpen_cases kind version len check s
    refine ⟨fun h => hends (hstart.trans (hbusy h)), fun h hlen => hends (hstart.trans (hinvalid h hlen)),
      fun h hlow hhigh hfull => hends (hstart.trans ((hsized h hlow hhigh).1 hfull)), fun h hlow hhigh hfull hsaved => ?_,
      fun h hlow hhigh hfull hsaved hfit => hends ?_, fun f h hlow hhigh hfull hsaved hfit => ?_⟩
    · exact hbegins haccess hreads (hstart.trans ((hsized h hlow hhigh).2.1 hfull hsaved))
    · refine (hstart.trans ((hsized h hlow hhigh).2.2 hfull hsaved)).trans ?_
      unfold openStaged
      rw [hfit]
    · have hopen := hstart.trans ((hsized h hlow hhigh).2.2 hfull hsaved)
      refine operationStart_ends hops haccess hreads hprogress
        (m := { s.store with
          staged := some { kind := kind, version := version, length := len, check := check, first := f, written := [] } })
        ⟨haccess, hreads, hprogress⟩ hops ?_
      rw [show Operation.kind { kind := k, request := some ref } = k from rfl, hopen]
      unfold openStaged
      rw [hfit]
      cases (s.placeOfKind kind).bind s.place <;> rfl
  · have hstart : beginOperation k s = startBlock index data s := by
      rw [hk]; exact startLoading_depot hdepot _
    refine ⟨fun h => hends (hstart.trans ?_), fun x h => ⟨fun hlen => hends (hstart.trans ?_), fun hlen => ?_⟩⟩
    · unfold startBlock; rw [h]
    · unfold startBlock; rw [h]; exact if_pos hlen
    · refine hbegins haccess hreads (hstart.trans ?_)
      unfold startBlock; rw [h]; exact if_neg (Nat.not_le.2 hlen)
  · have hstart : beginOperation k s = startClose s := by
      rw [hk]; exact startLoading_depot hdepot _
    refine ⟨fun h => hends (hstart.trans ?_), fun x h => ⟨fun hlen j hj hmissing hlow => hends (hstart.trans ?_),
      fun hlen => hbegins haccess hreads (hstart.trans ?_)⟩⟩
    · unfold startClose; rw [h]
    · unfold startClose
      rw [h, ← firstMissing_eq hj hmissing hlow]
      exact if_pos (Nat.sub_pos_of_lt hlen)
    · unfold startClose
      rw [h]
      exact if_neg (by unfold StagedImage.remaining; omega)
  · have hstart : beginOperation k s = startDiscard s := by
      rw [hk]; exact startLoading_depot hdepot _
    refine ⟨fun h => hends (hstart.trans ?_), fun h => ?_⟩
    · unfold startDiscard; rw [h]
    · obtain ⟨x, hx⟩ := Option.ne_none_iff_exists'.1 h
      refine operationStart_ends hops haccess hreads hprogress (m := { s.store with staged := none })
        ⟨haccess, hreads, hprogress⟩ hops (hstart.trans ?_)
      unfold startDiscard
      rw [show s.store.staged = some x from hx]
  · have hstart : beginOperation k s = startDrop kind s := by
      rw [hk]; exact startLoading_depot hdepot _
    refine ⟨fun h => hends (hstart.trans ?_), fun p e hp he => ⟨fun hr => hends (hstart.trans ?_), fun hr => ?_⟩⟩
    · unfold startDrop; rw [h]
    · unfold startDrop
      rw [hp]
      dsimp only
      rw [he]
      exact if_pos hr
    · refine hbegins haccess hreads (hstart.trans ?_)
      unfold startDrop
      rw [hp]
      dsimp only
      rw [he]
      exact if_neg (by omega)

/-! ### The ends of accesses (R165, R169) -/

theorem chooseAccess_chosen {s : State} (h : s.store.access = none) : chooseAccess s = s.withStore s.store.chosen := by
  obtain ⟨_, _, _, _, _, _, _, _, _, _, _, _, ⟨_, _, _, _, _, _, _, _, reads, _, progress, _, access⟩, _⟩ := s
  cases h
  cases reads with
  | cons r rest => rfl
  | nil => cases progress <;> rfl

/-- An operation that is answered as its access ends. -/
theorem chooseAccess_finished {s : State} {k : OperationKind} {ref : RequestRef} {more : List Operation}
    (haccess : s.store.access = none) (hops : s.store.operations = { kind := k, request := some ref } :: more)
    (c : AnswerCode) (data : List Byte) :
    chooseAccess (finishOperation c data s) =
      ({ s with store := (s.store.finished more).chosen } : State).fills ref.reservation
        { kind := 0x42, tag := ref.tag, outcome := c.code, body := ref.code :: data } := by
  rw [finishOperation_answered hops]
  exact chooseAccess_chosen (s := ({ s with store := s.store.finished more } : State).fills ref.reservation _) haccess

theorem shows_fills {i : Nat} (hi : i < 24) (s : State) (f : TrunkFrame) : (endCommand (s.fills i f)).Shows i f :=
  State.Shows.endCommand (shows_enqueue hi s f)

theorem withinStore_took {go : State → Option State} {s t : State} (h : go s = some t)
    (hblock : ∀ b, s.accessBlock = some b → b < s.blockCount) : withinStore go s = took t := by
  unfold withinStore
  rw [h]
  cases hb : s.accessBlock with
  | none => rfl
  | some b => exact if_pos (hblock b hb)

/-! ### BLOCK_PROGRAM_END (R174) -/

theorem check16_unprogrammed : check16 unprogrammedBlock.data ≠ unprogrammedBlock.check := by decide +kernel

theorem programmedBlock_ne (data : List Byte) : programmedBlock data ≠ unprogrammedBlock := by
  intro h
  have hdata : data = unprogrammedBlock.data := congrArg StoreBlock.data h
  have hcheck : check16 data = unprogrammedBlock.check := congrArg StoreBlock.check h
  rw [hdata] at hcheck
  exact check16_unprogrammed hcheck

theorem mem_insertIndex (i j : Nat) (l : List Nat) : j ∈ insertIndex i l ↔ j ∈ l ∨ j = i := by
  induction l with
  | nil => simp [insertIndex]
  | cons k l ih =>
    unfold insertIndex
    split
    · simp [or_comm]
    · split
      · next h => rw [h, List.mem_cons]; tauto
      · simp [ih, or_assoc]

/-- The machine after a program's access, before its operation is answered. -/
def State.programmed (s : State) (failed : Bool) (block : Nat) (data : List Byte) : State :=
  if failed then raiseFlag .storeWriteError (endAccess s) else (endAccess s).writeStoreBlock block (programmedBlock data)

/-- What the access changes: the array, or the flag. -/
structure State.Programmed (s t : State) (failed : Bool) (block : Nat) (data : List Byte) (blocks : List (Nat × StoreBlock)) :
    Prop where
  frame : ∃ x y, t = { s with trunk := x, responder := y, store := { s.store with access := none, blocks := blocks } }
  others : ∀ j, j ≠ block → readBlock blocks j = readBlock s.store.blocks j
  good : failed = false → t.responder = s.responder ∧ readBlock blocks block = programmedBlock data
  bad : failed = true → t.flagSet .storeWriteError = true ∧ blocks = s.store.blocks

theorem programmed_spec (s : State) (failed : Bool) (block : Nat) (data : List Byte) :
    ∃ blocks, s.Programmed (s.programmed failed block data) failed block data blocks := by
  unfold State.programmed
  cases failed with
  | true =>
    rw [if_pos rfl]
    obtain ⟨x, y, h⟩ := reports_raiseFlag .storeWriteError (endAccess s)
    exact ⟨s.store.blocks, ⟨x, y, h⟩, fun _ _ => rfl, (nomatch ·), fun _ => ⟨flagSet_raiseFlag .storeWriteError _, rfl⟩⟩
  | false =>
    rw [if_neg Bool.false_ne_true]
    exact ⟨writeBlock s.store.blocks block (programmedBlock data), ⟨s.trunk, s.responder, rfl⟩,
      fun j hj => readBlock_writeBlock_other _ _ _ _ hj,
      fun _ => ⟨rfl, readBlock_writeBlock_same _ _ _ (programmedBlock_ne data)⟩, (nomatch ·)⟩

section
variable {s : State} {index block : Nat} {data : List Byte} (haccess : s.store.access = some .operation)
  (hprogress : s.store.progress = some (.programming index block data)) (hblock : block < s.blockCount)
include haccess hprogress hblock

theorem exec_blockProgramEnd (failed : Bool) :
    exec (.blockProgramEnd failed) s = took (chooseAccess (programEnded failed index (s.programmed failed block data))) := by
  have hend : blockProgramEnd failed s = some (chooseAccess (programEnded failed index (s.programmed failed block data))) := by
    unfold blockProgramEnd
    rw [haccess, hprogress]
    rfl
  refine withinStore_took hend fun b hb => ?_
  unfold State.accessBlock at hb
  rw [haccess, hprogress] at hb
  cases hb
  exact hblock

/-- The command's end, where the operation is answered with `y` staged. -/
theorem blockProgramEnd_ended {k : OperationKind} {ref : RequestRef} {more : List Operation}
    (hops : s.store.operations = { kind := k, request := some ref } :: more) (href : ref.reservation < 24) (failed : Bool)
    {c : AnswerCode} {answered : List Byte} {y : Option StagedImage}
    (hended : ∀ t : State, t.store.cut = s.store.cut → t.store.staged = s.store.staged →
      programEnded failed index t = finishOperation c answered (t.withStore { t.store with staged := y })) :
    ∃ t, exec (.blockProgramEnd failed) s = .next t
      ∧ t.store =
          ImageStore.chosen
            { s.store with
              blocks := t.store.blocks, staged := y, operations := more, progress := none, cut := false, access := none }
      ∧ (∀ j, j ≠ block → readBlock t.store.blocks j = readBlock s.store.blocks j)
      ∧ (failed = false → t.responder = s.responder ∧ (readBlock t.store.blocks block).data = data
          ∧ (readBlock t.store.blocks block).check = [u8 (fletcher16 data).2, u8 (fletcher16 data).1])
      ∧ (failed = true → t.flagSet .storeWriteError = true ∧ t.store.blocks = s.store.blocks)
      ∧ t.restore = s.restore ∧ t.segment = s.segment ∧ t.gap = s.gap ∧ t.shadow = s.shadow ∧ t.hold = s.hold
      ∧ t.tables = s.tables ∧ t.stored = s.stored
      ∧ t.Shows ref.reservation { kind := 0x42, tag := ref.tag, outcome := c.code, body := ref.code :: answered } := by
  obtain ⟨blocks, h⟩ := programmed_spec s failed block data
  have hexec := exec_blockProgramEnd haccess hprogress hblock failed
  generalize s.programmed failed block data = v at h hexec
  obtain ⟨x, z, hv⟩ := h.frame
  rw [hended v (by rw [hv]) (by rw [hv]), chooseAccess_finished (by rw [hv]; rfl) (by rw [hv]; exact hops)] at hexec
  have hblocks : ∀ m : ImageStore, m.chosen.blocks = m.blocks := fun m => by
    unfold ImageStore.chosen; split <;> rfl
  have hsame : ∀ m : ImageStore, m.chosen = ImageStore.chosen { m with blocks := m.chosen.blocks } := fun m => by rw [hblocks]
  refine ⟨_, hexec, ?_, ?_, fun hgood => ?_, fun hbad => ?_, ?_, ?_, ?_, ?_, ?_, ?_, ?_, shows_fills href _ _⟩
  case refine_4 =>
    refine ⟨(flagSet_endCommand ..).trans (h.bad hbad).1, ?_⟩
    rw [endCommand_transmit, hv]
    exact (hblocks _).trans (h.bad hbad).2
  case refine_2 =>
    rw [endCommand_transmit, hv]
    show ∀ j, j ≠ block → readBlock (ImageStore.chosen _).blocks j = _
    rw [hblocks]
    exact h.others
  case refine_3 =>
    have hgood := h.good hgood
    rw [hv] at hgood
    rw [endCommand_transmit, hv]
    show z = s.responder ∧ (readBlock (ImageStore.chosen _).blocks block).data = data ∧
      (readBlock (ImageStore.chosen _).blocks block).check = _
    rw [hblocks]
    show z = s.responder ∧ (readBlock blocks block).data = data ∧ (readBlock blocks block).check = _
    rw [hgood.2]
    exact ⟨hgood.1, rfl, rfl⟩
  case refine_1 =>
    rw [endCommand_transmit, hv]
    exact hsame _
  all_goals (rw [endCommand_transmit, hv]; rfl)

end

/-- Settles O38: the access writes the block or raises the flag, and the operation is answered by what is staged. -/
theorem blockProgramEndWritesBlock : Obligations.BlockProgramEndWritesBlock := by
  intro s index block data ref more k haccess hprogress hops hblock href ended
  refine ⟨fun hcut failed => ?_, ?_⟩
  · refine blockProgramEnd_ended haccess hprogress hblock hops href failed fun t htcut htstaged => ?_
    unfold programEnded
    rw [htcut, hcut, ← htstaged]
    rfl
  · intro x hcut hx counted
    have hprogram : ∀ (failed : Bool) (t : State), t.store.cut = s.store.cut → t.store.staged = s.store.staged →
        programEnded failed index t =
          let y := { x with written := if failed then x.written.filter (· != index) else insertIndex index x.written }
          finishOperation (if failed then .storeFault else .done) (le16n index ++ le16n y.remaining)
            (t.withStore { t.store with staged := some y }) := fun failed t htcut htstaged => by
      unfold programEnded
      rw [htcut, hcut, htstaged, hx]
      rfl
    obtain ⟨t, ht⟩ := blockProgramEnd_ended haccess hprogress hblock hops href false (hprogram false)
    obtain ⟨u, hu⟩ := blockProgramEnd_ended haccess hprogress hblock hops href true (hprogram true)
    exact ⟨⟨t, _, ht, rfl, fun j => mem_insertIndex index j x.written⟩,
      ⟨u, _, hu, rfl, fun j => by simp⟩⟩

/-! ### CHECK_READ_END (R175, R176) -/

theorem chosen_of_access (m : ImageStore) (a : Option Access) : ImageStore.chosen { m with access := a } = m.chosen := by
  obtain ⟨_, _, _, _, _, _, _, _, reads, _, _, _, _⟩ := m
  cases reads <;> rfl

/-- An operation that goes on with its next access. -/
theorem chooseAccess_goes {s : State} (haccess : s.store.access = none) (p : Progress) (a : Option Access) :
    chooseAccess (setProgress p s) =
      { s with store := ImageStore.chosen { s.store with progress := some p, access := a } } := by
  rw [chosen_of_access { s.store with progress := some p } a]
  exact chooseAccess_chosen (s := setProgress p s) haccess

theorem checkGood_iff (b : StoreBlock) : b.checkGood = true ↔ b.check = check16 b.data := by
  unfold StoreBlock.checkGood; rw [beq_iff_eq]

/-- A read error is a failure of the array or a check that differs (R165, R175). -/
theorem readBad_iff (fails : Bool) (b : StoreBlock) :
    (fails || !b.checkGood) = true ↔ ¬ (fails = false ∧ b.check = check16 b.data) := by
  rw [← checkGood_iff]
  cases fails <;> cases b.checkGood <;> simp

section
variable {s : State} {x : StagedImage} {index : Nat} {sums : Nat × Nat} (haccess : s.store.access = some .operation)
  (hprogress : s.store.progress = some (.checking x index sums)) (hblock : x.first + index < s.blockCount)
include haccess hprogress hblock

theorem exec_checkReadEnd_good {fails : Bool} {b : StoreBlock} (hb : readBlock s.store.blocks (x.first + index) = b)
    (hgood : fails = false ∧ b.check = check16 b.data) :
    exec (.checkReadEnd fails) s =
      took (chooseAccess (if s.store.cut then finishOperation .mode [] (endAccess s)
        else checkReadGood x index sums b (endAccess s))) := by
  have hend : checkReadEnd fails s =
      some (chooseAccess (if s.store.cut then finishOperation .mode [] (endAccess s)
        else checkReadGood x index sums b (endAccess s))) := by
    have hbad : (fails || !(readBlock (endAccess s).store.blocks (x.first + index)).checkGood) = false := by
      rw [Bool.eq_false_iff, Ne, readBad_iff, not_not, show (endAccess s).store.blocks = s.store.blocks from rfl, hb]
      exact hgood
    unfold checkReadEnd
    rw [haccess, hprogress]
    dsimp only
    rw [hbad]
    subst hb
    rfl
  refine withinStore_took hend fun n hn => ?_
  unfold State.accessBlock at hn
  rw [haccess, hprogress] at hn
  cases hn
  exact hblock

theorem exec_checkReadEnd_bad {fails : Bool} {b : StoreBlock} (hb : readBlock s.store.blocks (x.first + index) = b)
    (hbad : ¬ (fails = false ∧ b.check = check16 b.data)) :
    exec (.checkReadEnd fails) s =
      took (chooseAccess (if (raiseFlag .storeReadError (endAccess s)).store.cut
        then finishOperation .mode [] (raiseFlag .storeReadError (endAccess s))
        else checkReadFailed x index (raiseFlag .storeReadError (endAccess s)))) := by
  have hend : checkReadEnd fails s =
      some (chooseAccess (if (raiseFlag .storeReadError (endAccess s)).store.cut
        then finishOperation .mode [] (raiseFlag .storeReadError (endAccess s))
        else checkReadFailed x index (raiseFlag .storeReadError (endAccess s)))) := by
    have hbad : (fails || !(readBlock (endAccess s).store.blocks (x.first + index)).checkGood) = true := by
      rw [readBad_iff, show (endAccess s).store.blocks = s.store.blocks from rfl, hb]
      exact hbad
    unfold checkReadEnd
    rw [haccess, hprogress]
    dsimp only
    rw [hbad]
    rfl
  refine withinStore_took hend fun n hn => ?_
  unfold State.accessBlock at hn
  rw [haccess, hprogress] at hn
  cases hn
  exact hblock

end

/-- A flag is raised and then the operation is answered. -/
theorem failed_answered {c : Instr} {f : Flag} {s u : State} {n : ImageStore} {k : OperationKind} {ref : RequestRef}
    {more : List Operation} {code : AnswerCode} {data : List Byte} (href : ref.reservation < 24)
    (hops : n.operations = { kind := k, request := some ref } :: more) (haccess : n.access = none)
    (hexec : exec c s = took (chooseAccess (finishOperation code data ((raiseFlag f u).withStore n)))) :
    ∃ t, exec c s = .next t ∧ t.flagSet f = true ∧ t.store = (n.finished more).chosen
      ∧ t.Shows ref.reservation { kind := 0x42, tag := ref.tag, outcome := code.code, body := ref.code :: data } := by
  rw [chooseAccess_finished (s := (raiseFlag f u).withStore n) haccess hops] at hexec
  refine ⟨_, hexec, (flagSet_endCommand ..).trans (flagSet_raiseFlag f u), ?_, shows_fills href _ _⟩
  rw [endCommand_transmit]
  rfl

theorem emptyPlace_eq {s : State} {p : Nat} (hp : p < 12) (hempty : s.place p = none) (hlow : ∀ q, q < p → s.place q ≠ none) :
    s.emptyPlace = some p := by
  unfold State.emptyPlace
  rw [List.find?_range_eq_some]
  refine ⟨by rw [hempty]; rfl, List.mem_range.2 hp, fun q hq => ?_⟩
  cases h : s.place q with
  | none => exact absurd h (hlow q hq)
  | some e => rfl

/-- Settles O39: the read is good or bad, and a good last block is judged by the check and by the entry's readers. -/
theorem checkReadEndJudgesImage : Obligations.CheckReadEndJudgesImage := by
  intro s x index sums ref more k fails haccess hprogress hops hblock href b good last next m ended ends goes image
  have hgoodExec := fun h => exec_checkReadEnd_good haccess hprogress hblock (fails := fails) (b := b) rfl h
  have hbadExec := fun h => exec_checkReadEnd_bad haccess hprogress hblock (fails := fails) (b := b) rfl h
  have hstore : (raiseFlag .storeReadError (endAccess s)).store = (endAccess s).store := by
    obtain ⟨_, _, h⟩ := reports_raiseFlag .storeReadError (endAccess s)
    rw [h]; rfl
  have hends : ∀ {n : ImageStore} {c : AnswerCode} {data : List Byte}, n.operations = m.operations →
      exec (.checkReadEnd fails) s = took (chooseAccess (finishOperation c data (s.withStore { n with access := none }))) →
      ends n c data := fun hn h => by
    refine h.trans ?_
    rw [chooseAccess_finished rfl (hn.trans hops)]
    rfl
  have hgoes : ∀ {n : ImageStore} {p : Progress},
      exec (.checkReadEnd fails) s = took (chooseAccess (setProgress p (s.withStore { n with access := none }))) →
      goes n p := fun {n p} h => h.trans (took_congr (chooseAccess_goes (s := s.withStore { n with access := none }) rfl p n.access))
  refine ⟨fun hcut => ⟨fun h => hends rfl ?_, fun h => ?_⟩, fun hcut => ?_⟩
  · rw [hgoodExec h, if_pos hcut]
    rfl
  · have hexec := hbadExec h
    rw [if_pos (by rw [hstore]; exact hcut)] at hexec
    have hsame : (raiseFlag .storeReadError (endAccess s)).withStore (endAccess s).store =
        raiseFlag .storeReadError (endAccess s) := by rw [← hstore]; rfl
    rw [← hsame] at hexec
    obtain ⟨t, ht⟩ := failed_answered (n := (endAccess s).store) href hops rfl hexec
    exact ⟨t, ht⟩
  · have hnotCut : ¬ (s.store.cut = true) := by rw [hcut]; exact Bool.false_ne_true
    have hgoodExec := fun h => (hgoodExec h).trans (took_congr (congrArg chooseAccess (if_neg hnotCut)))
    have hlastExec : last → exec (.checkReadEnd fails) s =
        took (chooseAccess (if check32 next = x.check then closeMatched x (endAccess s)
          else finishOperation .checkFail (le32 (check32 next)) (endAccess s))) := fun h =>
      (hgoodExec h.1).trans (took_congr (congrArg chooseAccess (if_neg (Nat.not_lt.2 h.2))))
    have hmatched : last → check32 next = x.check → exec (.checkReadEnd fails) s =
        took (chooseAccess (closeMatched x (endAccess s))) := fun h hcheck =>
      (hlastExec h).trans (took_congr (congrArg chooseAccess (if_pos hcheck)))
    refine ⟨fun h => ?_, fun h hlen => hgoes ?_, fun h hcheck => hends rfl ?_, fun p e h hcheck hp he hr => hends rfl ?_,
      fun p e h hcheck hp he hr => hgoes ?_, fun p h hcheck hp hp12 hempty hlow => hgoes ?_⟩
    · have hexec := hbadExec h
      rw [if_neg (by rw [hstore]; exact hnotCut)] at hexec
      unfold checkReadFailed at hexec
      rw [hstore] at hexec
      obtain ⟨t, ht⟩ := failed_answered
        (n := { s.store with staged := some { x with written := x.written.filter (· != index) }, access := none })
        href hops rfl hexec
      rw [filter_ne_eq] at ht
      exact ⟨t, ht⟩
    · exact (hgoodExec h).trans (took_congr (congrArg chooseAccess (if_pos hlen)))
    · exact (hlastExec h).trans (took_congr (congrArg chooseAccess (if_neg hcheck)))
    · rw [hmatched h hcheck]
      unfold closeMatched
      rw [show (endAccess s).placeOfKind x.kind = some p from hp]
      dsimp only
      rw [show (endAccess s).place p = some e from he]
      dsimp only
      rw [if_pos hr]
      rfl
    · rw [hmatched h hcheck]
      unfold closeMatched
      rw [show (endAccess s).placeOfKind x.kind = some p from hp]
      dsimp only
      rw [show (endAccess s).place p = some e from he]
      dsimp only
      rw [if_neg (by omega)]
      rfl
    · rw [hmatched h hcheck]
      unfold closeMatched
      rw [show (endAccess s).placeOfKind x.kind = none from hp]
      dsimp only
      rw [show (endAccess s).emptyPlace = some p from emptyPlace_eq hp12 hempty hlow]
      rfl

/-! ### An operation's answer at the end of its access -/

theorem chooseAccess_frame (s : State) : ∃ a r, chooseAccess s = s.withStore { s.store with access := a, reads := r } := by
  unfold chooseAccess
  split
  · exact ⟨s.store.access, s.store.reads, rfl⟩
  · split
    · exact ⟨_, _, rfl⟩
    · split
      · exact ⟨_, _, rfl⟩
      · exact ⟨s.store.access, s.store.reads, rfl⟩

/-- What the end of an operation leaves, whether or not a request waits for its answer (R170, R172). -/
structure AnswersOperation (v : State) (c : AnswerCode) (data : List Byte) (t : State) : Prop where
  frame : ∃ x n a r, t =
    { v with
      trunk := x, moment := n, store := { v.store.finished v.store.operations.tail with access := a, reads := r } }
  shows : ∀ k ref more, v.store.operations = { kind := k, request := some ref } :: more → ref.reservation < 24 →
    t.Shows ref.reservation { kind := 0x42, tag := ref.tag, outcome := c.code, body := ref.code :: data }
  silent : (∀ o more, v.store.operations = o :: more → o.request = none) → t.trunk = (endCommand v).trunk

theorem finishOperation_silent {v : State} (h : ∀ o more, v.store.operations = o :: more → o.request = none)
    (c : AnswerCode) (data : List Byte) :
    finishOperation c data v = { v with store := v.store.finished v.store.operations.tail } := by
  unfold finishOperation
  split
  · next hops => exact nomatch h _ _ hops
  · rfl

theorem answersOperation (c : AnswerCode) (data : List Byte) (v : State) :
    AnswersOperation v c data (endCommand (chooseAccess (finishOperation c data v))) := by
  obtain ⟨a, r, hchoose⟩ := chooseAccess_frame (finishOperation c data v)
  rw [hchoose, endCommand_transmit]
  refine ⟨?_, fun k ref more hops href => ?_, fun hsilent => ?_⟩
  · unfold finishOperation
    split
    · next hops => exact ⟨_, _, a, r, rfl⟩
    · exact ⟨_, _, a, r, rfl⟩
  · rw [finishOperation_answered hops, ← endCommand_transmit]
    exact State.Shows.endCommand (shows_enqueue href _ _)
  · rw [finishOperation_silent hsilent, endCommand_transmit]
    rfl

/-! ### TABLE_WRITE_END (R190) -/

/-- Settles O41: the copy is written or left invalid, and the operation is answered. -/
theorem tableWriteEndStoresTables : Obligations.TableWriteEndStoresTables := by
  intro s w ref more k haccess hprogress hops href ended
  have hblock : ∀ b, s.accessBlock = some b → b < s.blockCount := fun b hb => by
    unfold State.accessBlock at hb
    rw [haccess, hprogress] at hb
    cases hb
  have hend : ∀ failed, tableWriteEnd failed s = some (chooseAccess
      (if failed then finishOperation .storeFault [] (raiseFlag .storeWriteError ((endAccess s).withStored none))
        else finishOperation .done (le32 (tableCheck w))
          ((endAccess s).withStored (some { tables := w, check := tableCheck w })))) := fun failed => by
    unfold tableWriteEnd
    rw [haccess, hprogress]
  constructor
  · refine (withinStore_took (hend false) hblock).trans (took_congr ?_)
    exact chooseAccess_finished (s := (endAccess s).withStored _) rfl hops _ _
  · obtain ⟨x, y, h⟩ := reports_raiseFlag .storeWriteError ((endAccess s).withStored none)
    have hflag := flagSet_raiseFlag .storeWriteError ((endAccess s).withStored none)
    have hexec : exec (.tableWriteEnd true) s = _ := withinStore_took (hend true) hblock
    rw [if_pos rfl, chooseAccess_finished (by rw [h]; rfl) (by rw [h]; exact hops)] at hexec
    refine ⟨_, hexec, ?_, (flagSet_endCommand ..).trans hflag, ?_, ?_, shows_fills href _ _⟩
    all_goals (rw [endCommand_transmit, h]; rfl)

/-! ### DIRECTORY_WRITE_END (R171, R173, R176, R178) -/

theorem ImageStore.target_eq (m : ImageStore) : m.target = if m.latest = some .copy0 then .copy1 else .copy0 := by
  unfold ImageStore.target
  split
  · next h => rw [h, if_pos rfl]
  · next h => rw [h, if_neg (by decide)]
  · next h => rw [h, if_neg (by decide)]

theorem copy_setCopy_same (m : ImageStore) (p : CopyPlace) (c : Option DirectoryCopy) : (m.setCopy p c).copy p = c := by
  cases p <;> rfl

theorem copy_setCopy_other (m : ImageStore) {p q : CopyPlace} (hpq : q ≠ p) (c : Option DirectoryCopy) :
    (m.setCopy p c).copy q = m.copy q := by
  cases p with
  | copy0 => cases q with
    | copy0 => exact absurd rfl hpq
    | copy1 => rfl
  | copy1 => cases q with
    | copy0 => rfl
    | copy1 => exact absurd rfl hpq

theorem setCopy_frame (m : ImageStore) (p : CopyPlace) (c : Option DirectoryCopy) :
    ∃ a b, m.setCopy p c = { m with copy0 := a, copy1 := b } := by
  cases p <;> exact ⟨_, _, rfl⟩

theorem directoryPlaces_get (s : State) (k : Nat) (h : k < 12) : s.directoryPlaces[k] = (s.place k).map (·.image) := by
  unfold State.directoryPlaces State.place
  simp [h]

/-- The machine after a directory write, before its operation is answered. -/
def State.directoryDone (s : State) (failed : Bool) : State := directoryWritten failed (endAccess s)

theorem exec_directoryWriteEnd {s : State} {p : Progress} (haccess : s.store.access = some .operation)
    (hprogress : s.store.progress = some p) (hwrites : p.writesDirectory = true) (failed : Bool) :
    exec (.directoryWriteEnd failed) s =
      .next (endCommand (chooseAccess (directoryWriteAnswered failed p (s.directoryDone failed)))) := by
  have hend : directoryWriteEnd failed s =
      some (chooseAccess (directoryWriteAnswered failed p (s.directoryDone failed))) := by
    unfold directoryWriteEnd
    rw [haccess, hprogress]
    exact if_pos hwrites
  refine withinStore_took hend fun b hb => ?_
  unfold State.accessBlock at hb
  rw [haccess, hprogress] at hb
  cases p with
  | programming _ _ _ => cases hwrites
  | checking _ _ _ => cases hwrites
  | _ => cases hb

/-- What a directory write without error leaves. -/
theorem directoryDone_good (s : State) :
    ∃ c a b, s.directoryDone false =
        { s with
          store :=
            { s.store with
              access := none, copy0 := a, copy1 := b, latest := some s.store.target, saved := true, retained := none } }
      ∧ (s.directoryDone false).store.copy s.store.target = some c
      ∧ (∀ q, q ≠ s.store.target → (s.directoryDone false).store.copy q = s.store.copy q)
      ∧ c.sequence = s.store.nextSequence ∧ ∀ k, (h : k < 12) → c.places[k] = (s.place k).map (·.image) := by
  let c : DirectoryCopy :=
    { sequence := s.store.nextSequence, places := s.directoryPlaces
      check := directoryCheck s.store.nextSequence s.directoryPlaces }
  obtain ⟨a, b, hab⟩ := setCopy_frame (endAccess s).store (endAccess s).store.target (some c)
  have heq : s.directoryDone false =
      { s with
        store :=
          { (endAccess s).store.setCopy (endAccess s).store.target (some c) with
            latest := some s.store.target, saved := true, retained := none } } := rfl
  refine ⟨c, a, b, ?_, copy_setCopy_same _ _ _, fun q hq => copy_setCopy_other _ hq _, rfl, directoryPlaces_get s⟩
  rw [heq, hab]
  rfl

/-- What a directory write with an error leaves. -/
theorem directoryDone_bad (s : State) :
    ∃ x y a b, s.directoryDone true =
        { s with
          trunk := x, responder := y, store := { s.store with access := none, copy0 := a, copy1 := b, saved := false } }
      ∧ (s.directoryDone true).store.copy s.store.target = none
      ∧ (∀ q, q ≠ s.store.target → (s.directoryDone true).store.copy q = s.store.copy q)
      ∧ (s.directoryDone true).flagSet .storeWriteError = true
      ∧ (s.responder.mask = 0 → (s.directoryDone true).trunk = s.trunk) := by
  let n : ImageStore := { (endAccess s).store.setCopy (endAccess s).store.target none with saved := false }
  obtain ⟨a, b, hab⟩ := setCopy_frame (endAccess s).store (endAccess s).store.target none
  have heq : s.directoryDone true = raiseFlag .storeWriteError ((endAccess s).withStore n) := rfl
  obtain ⟨x, y, hxy⟩ := reports_raiseFlag .storeWriteError ((endAccess s).withStore n)
  have hn : n = { s.store with access := none, copy0 := a, copy1 := b, saved := false } := by
    show { (endAccess s).store.setCopy (endAccess s).store.target none with saved := false } = _
    rw [hab]
    rfl
  have hstore : (s.directoryDone true).store = n := by rw [heq, hxy]; rfl
  refine ⟨x, y, a, b, ?_, ?_, fun q hq => ?_, flagSet_raiseFlag .storeWriteError _, fun hmask => ?_⟩
  · rw [heq, hxy, ← hn]; rfl
  · rw [hstore]; exact copy_setCopy_same _ _ _
  · rw [hstore]; exact copy_setCopy_other _ hq _
  · refine (raiseFlag_trunk (.inr ?_)).trans rfl
    show s.responder.mask.getLsbD 0 = false
    rw [hmask]
    rfl

theorem openStaged_full {s : State} {kind : Byte} {version : Word16} {length : Nat} {check : Word32}
    (h : firstFit length s.blockCount 0 s.extents = none) :
    openStaged kind version length check s = finishOperation .noSpace [] s := by
  unfold openStaged; rw [h]

theorem openStaged_fits {s : State} {kind : Byte} {version : Word16} {length : Nat} {check : Word32} {f : Nat}
    (h : firstFit length s.blockCount 0 s.extents = some f) :
    openStaged kind version length check s =
      finishOperation .done
        (le16n f ++ le16n length
          ++ (match (s.placeOfKind kind).bind s.place with
              | some e => 1 :: (le16 e.image.version ++ [if e.image.damaged then 1 else 0])
              | none => [0, 0, 0, 0]))
        (s.withStore
          { s.store with
            staged :=
              some { kind := kind, version := version, length := length, check := check, first := f, written := [] } }) := by
  unfold openStaged
  rw [h]
  cases (s.placeOfKind kind).bind s.place <;> rfl

/-- Whatever asked for the write, its operation ends; only an IMAGE OPEN changes what is staged. -/
theorem directoryWriteAnswered_good (p : Progress) (v : State) :
    ∃ c data y, directoryWriteAnswered false p v = finishOperation c data (v.withStore { v.store with staged := y })
      ∧ (p ≠ .opening → y = v.store.staged) := by
  cases p with
  | opening =>
    unfold directoryWriteAnswered
    dsimp only
    rw [if_neg Bool.false_ne_true]
    split
    · exact ⟨_, _, v.store.staged, rfl, fun _ => rfl⟩
    · split
      · next kind version len check _ _ _ =>
        cases hfit : firstFit len v.blockCount 0 v.extents with
        | none => exact ⟨_, _, v.store.staged, openStaged_full hfit, fun _ => rfl⟩
        | some f => exact ⟨_, _, _, openStaged_fits hfit, fun h => absurd rfl h⟩
      · exact ⟨_, _, v.store.staged, rfl, fun _ => rfl⟩
  | _ => exact ⟨_, _, v.store.staged, rfl, fun _ => rfl⟩

/-- After an error the operation fails, and a dropped entry comes back. -/
theorem directoryWriteAnswered_bad {p : Progress} (hp : p.writesDirectory = true) (v : State) :
    ∃ c w, directoryWriteAnswered true p v = finishOperation c [] (v.withStore { v.store with catalogue := w })
      ∧ (p ≠ .marking → c = .storeFault)
      ∧ (∀ n e, p = .dropping n e → w = v.store.catalogue.setIfInBounds n (some { image := e, readers := 0 }))
      ∧ ((∀ n e, p ≠ .dropping n e) → w = v.store.catalogue) := by
  cases p with
  | dropping n e =>
    refine ⟨.storeFault, v.store.catalogue.setIfInBounds n (some { image := e, readers := 0 }), rfl, fun _ => rfl,
      fun n' e' h => ?_, fun h => absurd rfl (h n e)⟩
    cases h
    rfl
  | opening => exact ⟨.storeFault, v.store.catalogue, rfl, fun _ => rfl, fun _ _ => (nomatch ·), fun _ => rfl⟩
  | committing n f => exact ⟨.storeFault, v.store.catalogue, rfl, fun _ => rfl, fun _ _ => (nomatch ·), fun _ => rfl⟩
  | marking => exact ⟨.done, v.store.catalogue, rfl, fun h => absurd rfl h, fun _ _ => (nomatch ·), fun _ => rfl⟩
  | _ => cases hp

/-- Settles O40: the write goes to the target copy or fails, and then the operation that asked for it ends. -/
theorem directoryWriteEndSavesOrFails : Obligations.DirectoryWriteEndSavesOrFails := by
  intro s p haccess hprogress hwrites m target other answers
  have htarget : s.store.target = target := s.store.target_eq
  have hother : other ≠ s.store.target := by
    rw [htarget]
    show (if m.latest = some .copy0 then CopyPlace.copy0 else .copy1) ≠ if m.latest = some .copy0 then .copy1 else .copy0
    split <;> decide
  constructor
  · have hexec := exec_directoryWriteEnd haccess hprogress hwrites false
    obtain ⟨c, a, b, hdone, hcopy, hkept, hsequence, hplaces⟩ := directoryDone_good s
    have hanswered : ∀ {code data n}, directoryWriteAnswered false p (s.directoryDone false) =
        finishOperation code data ((s.directoryDone false).withStore n) →
        AnswersOperation ((s.directoryDone false).withStore n) code data
          (endCommand (chooseAccess (directoryWriteAnswered false p (s.directoryDone false)))) := fun h => by
      rw [h]; exact answersOperation ..
    have hops : (s.directoryDone false).store.operations = m.operations := by rw [hdone]
    have hshows : ∀ {code data n}, directoryWriteAnswered false p (s.directoryDone false) =
        finishOperation code data ((s.directoryDone false).withStore n) → n.operations = m.operations →
        answers (endCommand (chooseAccess (directoryWriteAnswered false p (s.directoryDone false)))) code.code data :=
      fun h hn k ref more hmore href => (hanswered h).shows k ref more (hn.trans hmore) href
    have hstaged : ∀ {code data n}, directoryWriteAnswered false p (s.directoryDone false) =
        finishOperation code data ((s.directoryDone false).withStore n) →
        (endCommand (chooseAccess (directoryWriteAnswered false p (s.directoryDone false)))).store.staged = n.staged :=
      fun h => by
        obtain ⟨x, k, d, r, hframe⟩ := (hanswered h).frame
        rw [hframe]
        rfl
    obtain ⟨code, data, y, heq, hy⟩ := directoryWriteAnswered_good p (s.directoryDone false)
    obtain ⟨x, n, d, r, hframe⟩ := (hanswered heq).frame
    refine ⟨_, hexec, ?_, ?_, ?_, ?_, ?_, ?_, ?_, ?_, ⟨c, ?_, hsequence, hplaces⟩, fun n first hp => ?_, fun n e hp => ?_,
      fun hp hcut => ?_, ?_, fun hp hsilent => ?_, fun hp => ?_⟩
    case refine_2 =>
      rw [← htarget, hframe, hdone]
      rfl
    case refine_9 =>
      rw [← htarget]
      refine Eq.trans ?_ hcopy
      rw [hframe]
      rfl
    case refine_5 =>
      refine Eq.trans ?_ (hkept other hother)
      rw [hframe]
      rfl
    case refine_10 => exact hshows (n := (s.directoryDone false).store) (by rw [hp]; rfl) hops
    case refine_11 => exact hshows (n := (s.directoryDone false).store) (by rw [hp]; rfl) hops
    case refine_12 =>
      have hmode : directoryWriteAnswered false p (s.directoryDone false) =
          finishOperation .mode [] ((s.directoryDone false).withStore (s.directoryDone false).store) := by
        rw [hp]
        unfold directoryWriteAnswered
        dsimp only
        rw [if_neg Bool.false_ne_true]
        exact if_pos (by rw [hdone]; exact hcut)
      exact ⟨hshows hmode hops, (hstaged hmode).trans (by rw [hdone])⟩
    case refine_13 =>
      intro kind version len check ref more hp hcut hmore fit
      have hopen : directoryWriteAnswered false p (s.directoryDone false) =
          openStaged kind version len check (s.directoryDone false) := by
        rw [hp]
        unfold directoryWriteAnswered
        dsimp only
        rw [if_neg Bool.false_ne_true, if_neg (by rw [hdone]; exact Bool.eq_false_iff.1 hcut), hops, hmore]
      have hfit : firstFit len (s.directoryDone false).blockCount 0 (s.directoryDone false).extents = fit := by
        rw [hdone]; rfl
      refine ⟨fun h => ?_, fun f h => ?_⟩
      · have hfull := hopen.trans (openStaged_full (hfit.trans h))
        exact ⟨hshows (n := (s.directoryDone false).store) hfull hops, (hstaged (n := (s.directoryDone false).store) hfull).trans
          (by rw [hdone])⟩
      · have hfits := hopen.trans (openStaged_fits (hfit.trans h))
        refine ⟨hstaged hfits, ?_⟩
        have hanswer := hshows hfits hops
        rw [hdone] at hanswer ⊢
        exact hanswer
    case refine_14 =>
      have hsilent' := (hanswered (n := (s.directoryDone false).store) (by rw [hp]; rfl)).silent fun o more h =>
        hsilent o more (hops.symm.trans h)
      rw [hsilent', endCommand_transmit, endCommand_transmit, hdone]
      rfl
    case refine_15 =>
      rw [hframe]
      exact (hy hp).trans (by rw [hdone])
    all_goals (rw [hframe, hdone]; rfl)
  · have hexec := exec_directoryWriteEnd haccess hprogress hwrites true
    obtain ⟨x', y', a, b, hdone, hcopy, hkept, hflag, hmask⟩ := directoryDone_bad s
    obtain ⟨code, w, heq, hcode, hdropped, hothers⟩ := directoryWriteAnswered_bad hwrites (s.directoryDone true)
    have hanswered := answersOperation code [] ((s.directoryDone true).withStore { (s.directoryDone true).store with catalogue := w })
    have hops : (s.directoryDone true).store.operations = m.operations := by rw [hdone]
    rw [heq] at hexec
    obtain ⟨x, n, d, r, hframe⟩ := hanswered.frame
    refine ⟨_, hexec, ?_, ?_, ?_, ?_, ?_, ?_, ?_, ?_, ?_, fun hp k ref more hmore href => ?_, fun hp hsilent hmask0 => ?_,
      fun n e hp => ?_, fun hp => ?_⟩
    case refine_4 =>
      refine Eq.trans ?_ (hkept other hother)
      rw [hframe]
      rfl
    case refine_5 =>
      rw [← htarget]
      refine Eq.trans ?_ hcopy
      rw [hframe]
      rfl
    case refine_6 =>
      refine Eq.trans ?_ hflag
      rw [hframe]
      rfl
    case refine_10 =>
      have hshows := hanswered.shows k ref more (hops.trans hmore) href
      rw [hcode hp] at hshows ⊢
      exact hshows
    case refine_11 =>
      rw [hanswered.silent fun o more h => hsilent o more (hops.symm.trans h), endCommand_transmit, endCommand_transmit]
      have htrunk := hmask hmask0
      rw [hdone] at htrunk ⊢
      dsimp only at htrunk
      subst htrunk
      rfl
    case refine_12 =>
      rw [hframe]
      refine (hdropped n e hp).trans ?_
      rw [hdone]
    case refine_13 =>
      rw [hframe]
      refine (hothers hp).trans ?_
      rw [hdone]
    all_goals (rw [hframe, hdone]; rfl)

end Sys2Proof.Machine
end

section
/-! SUPPORT. What the moves of nodes change in the Image Store and at other nodes (R53, R148, R149, R159), and the end of a
session read (R149, R161, R170). -/

namespace Sys2Proof.Machine

/-! ### What transfers leave of the Image Store -/

/-- The Image Store but for its readers counts, its read list and its arbiter. -/
structure StoreKept (s t : State) : Prop where
  frame : ∃ c r a, t.store = { s.store with catalogue := c, reads := r, access := a }
  images : ∀ p, (t.place p).map (·.image) = (s.place p).map (·.image)

theorem place_of_store {s t : State} (h : t.store = s.store) (p : Nat) : t.place p = s.place p := by
  unfold State.place; rw [h]

theorem StoreKept.of_eq {s t : State} (h : t.store = s.store) : StoreKept s t :=
  ⟨⟨_, _, _, h⟩, fun p => by rw [place_of_store h]⟩

theorem StoreKept.trans {s t u : State} (h : StoreKept s t) (g : StoreKept t u) : StoreKept s u := by
  obtain ⟨_, _, _, ht⟩ := h.frame
  obtain ⟨_, _, _, hu⟩ := g.frame
  rw [ht] at hu
  exact ⟨⟨_, _, _, hu⟩, fun p => (g.images p).trans (h.images p)⟩

theorem withRestore_kept (s : State) (x : RestoreEngine) : StoreKept s (s.withRestore x) := .of_eq rfl

theorem withReads_kept (s : State) (r : List ReadRequest) : StoreKept s (s.withStore { s.store with reads := r }) :=
  ⟨⟨s.store.catalogue, r, s.store.access, rfl⟩, fun _ => rfl⟩

theorem chooseAccess_kept (s : State) : StoreKept s (chooseAccess s) := by
  obtain ⟨a, r, h⟩ := chooseAccess_frame s
  rw [h]
  exact ⟨⟨_, _, _, rfl⟩, fun _ => rfl⟩

theorem requestRead_kept (q : ReadRequest) (s : State) : StoreKept s (requestRead q s) :=
  (withReads_kept s (s.store.reads ++ [q])).trans (chooseAccess_kept _)

theorem mapRuntime_kept (s : State) (a : Nat) (f : Runtime → Runtime) : StoreKept s (s.mapRuntime a f) :=
  .of_eq (store_mapRuntime s a f)

theorem startRead_kept (a b : Nat) (s : State) : StoreKept s (startRead a b s) := by
  unfold startRead
  split
  · exact .of_eq rfl
  · exact ((mapRuntime_kept s a _).trans (withRestore_kept _ _)).trans (requestRead_kept _ _)

theorem freeBuffer_kept (b : Nat) (s : State) : StoreKept s (freeBuffer b s) := by
  unfold freeBuffer
  split
  · exact .of_eq rfl
  · exact (withRestore_kept s _).trans (startRead_kept ..)

theorem releaseBuffer_kept (a : Nat) (s : State) : StoreKept s (releaseBuffer a s) := by
  unfold releaseBuffer
  split
  · dsimp only
    split
    · exact (mapRuntime_kept s a _).trans (withRestore_kept _ _)
    · exact (mapRuntime_kept s a _).trans (freeBuffer_kept ..)
  · exact .of_eq rfl

theorem place_setPlace (s : State) (i p : Nat) (x : Option CatalogueEntry) :
    (s.setPlace i x).place p = if i = p ∧ i < 12 then x else s.place p := by
  show ((s.store.catalogue.setIfInBounds i x)[p]?).join = _
  rw [Vector.getElem?_setIfInBounds]
  by_cases hip : i = p
  · subst hip
    by_cases hi : i < 12
    · simp [hi]
    · rw [if_pos rfl, if_neg hi, if_neg fun h => hi h.2]
      unfold State.place
      rw [Vector.getElem?_eq_none (Nat.not_lt.1 hi)]
  · rw [if_neg hip, if_neg fun h => hip h.1]
    rfl

/-- A change of the readers count of a place leaves every image as it is. -/
theorem setPlace_readers_kept {s : State} {i : Nat} {e : CatalogueEntry} (he : s.place i = some e) (n : Nat) :
    StoreKept s (s.setPlace i (some { e with readers := n })) := by
  refine ⟨⟨_, _, _, rfl⟩, fun p => ?_⟩
  rw [place_setPlace]
  split
  · next h => rw [← h.1, he]; rfl
  · rfl

theorem dropReader_kept (i : Nat) (s : State) : StoreKept s (dropReader i s) := by
  unfold dropReader
  split
  · next e he => exact setPlace_readers_kept he _
  · exact .of_eq rfl

theorem endSession_kept (a : Nat) (s : State) : StoreKept s (endSession a s) := by
  unfold endSession
  split
  · exact .of_eq rfl
  · exact ((((mapRuntime_kept s a _).trans (withRestore_kept _ _)).trans (releaseBuffer_kept a _)).trans (dropReader_kept _ _)).trans
      (mapRuntime_kept _ a _)

/-! ### Entry to FAILED, beside the node (R53, R73) -/

theorem Reports.store {s t : State} (h : Reports s t) : t.store = s.store := by
  obtain ⟨_, _, rfl⟩ := h
  rfl

theorem refusePasses_only (a : Nat) (c : AnswerCode) (s : State) :
    ∃ x t, Reports s t ∧ refusePasses a c s = t.withSegment x :=
  ⟨_, _, (reports_walkRefused a c s.segment.urgent s).trans
    (reports_walkRefused a c s.segment.normal (walkRefused a c s.segment.urgent s).2), rfl⟩

theorem refusePasses_store (a : Nat) (c : AnswerCode) (s : State) : (refusePasses a c s).store = s.store := by
  obtain ⟨x, t, h, heq⟩ := refusePasses_only a c s
  rw [heq]
  exact h.store

theorem discardQueue_store (a : Nat) (s : State) : (discardQueue a s).store = s.store :=
  (reports_reportDiscarded (s.queue a) s).store

theorem discardQueue_other {a b : Nat} (hb : b ≠ a) (s : State) : (discardQueue a s).queue b = s.queue b := by
  unfold discardQueue
  rw [queue_setQueue, if_neg fun h => hb h.1.symm]
  exact (reports_reportDiscarded (s.queue a) s).sameBlocks.queue b

theorem OnlyTransfers.queue {s t : State} (h : OnlyTransfers s t) (a : Nat) : t.queue a = s.queue a := by
  obtain ⟨_, _, rfl⟩ := h
  rfl

/-- What an entry to FAILED or ISOLATED does after the record has moved: refused frames, the discard, the notice. -/
theorem leaveQueues_other (a : Nat) (c : AnswerCode) (st : NodeState) (s : State) :
    (offerNodeState a st (discardQueue a (refusePasses a c s))).store = s.store
      ∧ (∀ b, (offerNodeState a st (discardQueue a (refusePasses a c s))).runtime b = s.runtime b)
      ∧ ∀ b, b ≠ a → (offerNodeState a st (discardQueue a (refusePasses a c s))).queue b = s.queue b := by
  have hnotice := reports_offerNodeState a st (discardQueue a (refusePasses a c s))
  obtain ⟨hrefused, hkept⟩ := refusePasses_cases a c s
  refine ⟨?_, fun b => ?_, fun b hb => ?_⟩
  · rw [hnotice.store, discardQueue_store, refusePasses_store]
  · rw [hnotice.runtime, (discardQueue_cases a _).2.1, hkept]
  · rw [hnotice.sameBlocks.queue, discardQueue_other hb, hrefused.queue]

/-- Entry to FAILED: another node keeps its record but for a grant, and its queue; the store keeps its images. -/
theorem enterFailed_other (a : Nat) (s : State) :
    StoreKept s (enterFailed a s)
      ∧ ∀ b, b ≠ a → GrantedAt s (enterFailed a s) b ∧ (enterFailed a s).queue b = s.queue b := by
  have hended : OnlyTransfers s (endSession a (cancelStep a s)) :=
    (onlyTransfers_mapRuntime s a _).trans (onlyTransfers_endSession a _)
  have hmoved := onlyTransfers_mapRuntime (endSession a (cancelStep a s)) a
    (fun r => { r.move .failed with bootCount := none, expected := none })
  obtain ⟨hstore, hruntime, hqueue⟩ := leaveQueues_other a .nodeFailed .failed
    ((endSession a (cancelStep a s)).mapRuntime a fun r => { r.move .failed with bootCount := none, expected := none })
  have hkept := (((mapRuntime_kept s a _).trans (endSession_kept a _)).trans (mapRuntime_kept _ a _)).trans (.of_eq hstore)
  refine ⟨hkept, fun b hb => ⟨?_, ?_⟩⟩
  · exact (((GrantedAt.of_eq (runtime_mapRuntime_other s hb _)).trans (granted_endSession hb _)).trans
      (.of_eq (runtime_mapRuntime_other _ hb _))).trans (.of_eq (hruntime b))
  · exact (hqueue b hb).trans ((hended.trans hmoved).queue b)

/-! ### One record changed twice -/

theorem putNode_putNode {α : Type} (v : PerNode α) (a : Nat) (x y : α) : putNode (putNode v a x) a y = putNode v a y := by
  unfold putNode
  split
  · rfl
  · exact Vector.setIfInBounds_setIfInBounds ..

theorem mapRuntime_mapRuntime (s : State) (a : Nat) (f g : Runtime → Runtime) :
    (s.mapRuntime a f).mapRuntime a g = s.mapRuntime a (g ∘ f) := by
  cases hr : s.runtime a with
  | none => rw [mapRuntime_of_none hr, mapRuntime_of_none hr, mapRuntime_of_none hr]
  | some r =>
    rw [mapRuntime_of_runtime (runtime_mapRuntime_same hr f), mapRuntime_of_runtime hr, mapRuntime_of_runtime hr]
    unfold State.setRuntime
    rw [State.withRestore_restore, putNode_putNode]
    rfl

/-! ### Sessions ended by a read error (R161) -/

/-- A node whose session a read error has ended: its record, and its hold queue. -/
structure LeftDamaged (y : Session) (v z : Runtime) (queue : List HoldEntry) : Prop where
  session : z.session = none
  attempts : z.attempts = v.attempts
  config : y.reported = some .intact → z.state = .config ∧ z.bootCount = v.bootCount
  failed : y.reported ≠ some .intact → z.state = .failed ∧ z.bootCount = none ∧ queue = []

theorem runtime_endSession {s : State} {a : Nat} {r : Runtime} {x : Session} (hr : s.runtime a = some r)
    (hx : r.session = some x) : (endSession a s).runtime a = some { r with step := r.step.cancel, session := none } := by
  have hcancel := runtime_mapRuntime_same hr fun r => { r with step := r.step.cancel }
  have hsame : endSession a s = endSession a (cancelStep a s) := by
    have htwice : cancelStep a (cancelStep a s) = cancelStep a s := by
      unfold cancelStep
      rw [mapRuntime_mapRuntime]
      congr 1
      funext r
      exact congrArg (fun c => { r with step := c }) r.step.cancel_cancel
    unfold endSession
    rw [session_of_runtime hr, session_cancelStep, session_of_runtime hr, hx]
    dsimp only
    rw [htwice]
  rw [hsame]
  exact (endSession_of_cancelled hcancel r.step.cancel_cancel).2

theorem leaveDamaged_self {s : State} {n : Nat} {v : Runtime} {y : Session} (hv : s.runtime n = some v)
    (hy : v.session = some y) :
    ∃ z, (leaveDamaged y.entry n s).runtime n = some z ∧ LeftDamaged y v z ((leaveDamaged y.entry n s).queue n) := by
  have hleave : leaveDamaged y.entry n s =
      match y.reported with
      | some .intact => enterConfig n (endSession n s)
      | _ => enterFailed n s := by
    unfold leaveDamaged
    rw [session_of_runtime hv, hy]
    exact if_pos rfl
  rw [hleave]
  obtain ⟨hrecord, hqueue, -⟩ := enterFailed_cases hv
  split
  · next hintact =>
    exact ⟨_, runtime_mapRuntime_same (runtime_endSession hv hy) _, rfl, rfl, fun _ => ⟨rfl, rfl⟩,
      fun h => absurd hintact h⟩
  · next hother =>
    refine ⟨_, hrecord, rfl, rfl, fun h => ?_, fun _ => ⟨rfl, rfl, hqueue⟩⟩
    rw [h] at hother
    exact absurd rfl hother

theorem leaveDamaged_skips {s : State} {a place : Nat} (h : ∀ y, s.session a = some y → y.entry ≠ place) :
    leaveDamaged place a s = s := by
  unfold leaveDamaged
  split
  · next y hy => exact if_neg (h y hy)
  · rfl

theorem enterConfig_other (a : Nat) (s : State) :
    StoreKept s (enterConfig a (endSession a s))
      ∧ ∀ b, b ≠ a → GrantedAt s (enterConfig a (endSession a s)) b
          ∧ (enterConfig a (endSession a s)).queue b = s.queue b :=
  ⟨(endSession_kept a s).trans (mapRuntime_kept _ a _), fun b hb =>
    ⟨(granted_endSession hb s).trans (.of_eq (runtime_mapRuntime_other _ hb _)),
      ((onlyTransfers_endSession a s).trans (onlyTransfers_mapRuntime _ a _)).queue b⟩⟩

theorem leaveDamaged_other (place a : Nat) (s : State) :
    StoreKept s (leaveDamaged place a s)
      ∧ ∀ b, b ≠ a → GrantedAt s (leaveDamaged place a s) b ∧ (leaveDamaged place a s).queue b = s.queue b := by
  unfold leaveDamaged
  split
  · split
    · split
      · exact enterConfig_other a s
      · exact enterFailed_other a s
    · exact ⟨.of_eq rfl, fun b _ => ⟨.of_eq rfl, rfl⟩⟩
  · exact ⟨.of_eq rfl, fun b _ => ⟨.of_eq rfl, rfl⟩⟩

theorem mem_addresses_of_runtime {s : State} {a : Nat} {r : Runtime} (h : s.runtime a = some r) : a ∈ addresses :=
  mem_addresses (isAddress_of_runtime h)

/-- The walk of R161: every session of the place ends, and no other. -/
theorem leaveDamaged_walk (place : Nat) (s : State) :
    StoreKept s (forNodes addresses (leaveDamaged place) s)
      ∧ (∀ n v y, s.runtime n = some v → v.session = some y → y.entry = place →
          ∃ z, (forNodes addresses (leaveDamaged place) s).runtime n = some z
            ∧ LeftDamaged y v z ((forNodes addresses (leaveDamaged place) s).queue n))
      ∧ ∀ n, (∀ y, s.session n = some y → y.entry ≠ place) →
          GrantedAt s (forNodes addresses (leaveDamaged place) s) n
            ∧ (forNodes addresses (leaveDamaged place) s).queue n = s.queue n := by
  refine ⟨forNodes_keeps (P := StoreKept s) (fun a t h => h.trans (leaveDamaged_other place a t).1) addresses (.of_eq rfl),
    fun n v y hv hy hplace => ?_, fun n hn => ?_⟩
  · refine forNodes_each (P := fun n t => GrantedAt s t n)
      (Q := fun n t => ∀ v y, s.runtime n = some v → v.session = some y → y.entry = place →
        ∃ z, t.runtime n = some z ∧ LeftDamaged y v z (t.queue n)) ?_ ?_ ?_ addresses addresses_nodup s (fun _ _ => .inl rfl)
      n (mem_addresses_of_runtime hv) v y hv hy hplace
    · intro n t h v y hv hy hplace
      subst hplace
      obtain ht | ⟨r, x, k, hr, hx, ht⟩ := h
      · exact leaveDamaged_self (ht.trans hv) hy
      · rw [hv] at hr
        cases hr
        rw [hy] at hx
        cases hx
        obtain ⟨z, hz, hleft⟩ := leaveDamaged_self (y := { y with buffer := some k, request := .reading }) ht rfl
        exact ⟨z, hz, hleft.session, hleft.attempts, hleft.config, hleft.failed⟩
    · exact fun a b t hab h => h.trans ((leaveDamaged_other place b t).2 a hab).1
    · intro a b t hab h v y hv hy hplace
      obtain ⟨z, hz, hleft⟩ := h v y hv hy hplace
      obtain ⟨hgranted, hqueue⟩ := (leaveDamaged_other place b t).2 a hab
      rw [hqueue]
      exact ⟨z, (hgranted.idle (by rw [session_of_runtime hz, hleft.session])).trans hz, hleft⟩
  · refine forNodes_keeps (P := fun t => GrantedAt s t n ∧ t.queue n = s.queue n) ?_ addresses ⟨.inl rfl, rfl⟩
    rintro a t ⟨hgranted, hqueue⟩
    by_cases hna : n = a
    · subst hna
      rw [leaveDamaged_skips]
      · exact ⟨hgranted, hqueue⟩
      · intro y hy
        obtain ht | ⟨r, x, k, hr, hx, ht⟩ := hgranted
        · exact hn y (by rw [← hy]; unfold State.session; rw [ht])
        · rw [session_of_runtime ht] at hy
          cases hy
          exact hn x (by rw [session_of_runtime hr, hx])
    · obtain ⟨hgranted', hqueue'⟩ := (leaveDamaged_other place a t).2 n hna
      exact ⟨hgranted.trans hgranted', hqueue'.trans hqueue⟩

theorem GrantedAt.stays {s t : State} {n : Nat} {v : Runtime} (h : GrantedAt s t n) (hv : s.runtime n = some v) :
    ∃ z, t.runtime n = some z ∧ z.state = v.state ∧ z.session.isSome = v.session.isSome := by
  obtain ht | ⟨r, x, k, hr, hx, ht⟩ := h
  · exact ⟨v, ht.trans hv, rfl, rfl⟩
  · rw [hv] at hr
    cases hr
    exact ⟨_, ht, rfl, by rw [hx]; rfl⟩

/-! ### What a read error marks (R170) -/

/-- The steps 1 to 3 of R170. -/
structure ReadErrorMarks (block : Nat) (s t : State) : Prop where
  frame : ∃ x y c o, t = { s with trunk := x, responder := y, store := { s.store with catalogue := c, operations := o } }
  flag : t.flagSet .storeReadError = true
  asked : ∃ o ∈ t.store.operations, o.kind = .markWrite
  damaged : ∀ p e, s.place p = some e → e.image.first ≤ block → block < e.image.first + e.image.length →
    (∀ p' e', p' < p → s.place p' = some e' → block < e'.image.first ∨ e'.image.first + e'.image.length ≤ block) →
    t.place p = some { e with image := { e.image with damaged := true } }
  firsts : ∀ p, (t.place p).map (·.image.first) = (s.place p).map (·.image.first)

theorem lt_of_place {s : State} {p : Nat} {e : CatalogueEntry} (h : s.place p = some e) : p < 12 := by
  by_contra hge
  unfold State.place at h
  rw [Vector.getElem?_eq_none (Nat.le_of_not_lt hge)] at h
  cases h

theorem placeOfBlock_eq {s : State} {block p : Nat} {e : CatalogueEntry} (he : s.place p = some e)
    (hlow : e.image.first ≤ block) (hhigh : block < e.image.first + e.image.length)
    (hbefore : ∀ p' e', p' < p → s.place p' = some e' →
      block < e'.image.first ∨ e'.image.first + e'.image.length ≤ block) : s.placeOfBlock block = some p := by
  unfold State.placeOfBlock
  rw [List.find?_range_eq_some]
  refine ⟨?_, List.mem_range.2 (lt_of_place he), fun q hq => ?_⟩
  · rw [he]
    exact decide_eq_true ⟨hlow, hhigh⟩
  · cases hplace : s.place q with
    | none => rfl
    | some d =>
      have hout := hbefore q d hq hplace
      simp only [Bool.not_eq_true', decide_eq_false_iff_not]
      omega

theorem requestMarkWrite_spec (s : State) :
    ∃ o, requestMarkWrite s = s.withStore { s.store with operations := o } ∧ ∃ x ∈ o, x.kind = .markWrite := by
  have hsub : ∀ x ∈ (if s.store.progress.isSome then s.store.operations.tail else s.store.operations),
      x ∈ s.store.operations := fun x hx => by
    split at hx
    · exact List.mem_of_mem_tail hx
    · exact hx
  unfold requestMarkWrite
  dsimp only
  generalize (if s.store.progress.isSome then s.store.operations.tail else s.store.operations) = waiting at hsub ⊢
  by_cases hany : (waiting.any fun o => o.kind == .markWrite) = true
  · obtain ⟨x, hx, hkind⟩ := List.any_eq_true.1 hany
    rw [if_pos hany]
    exact ⟨s.store.operations, rfl, x, hsub x hx, eq_of_beq hkind⟩
  · rw [if_neg hany]
    exact ⟨s.store.operations ++ [{ kind := .markWrite, request := none }], rfl, { kind := .markWrite, request := none },
      List.mem_append_right _ (List.mem_singleton_self _), rfl⟩

theorem markDamaged_spec (i : Nat) (s : State) :
    (∃ c, markDamaged i s = s.withStore { s.store with catalogue := c })
      ∧ (∀ e, s.place i = some e →
          (markDamaged i s).place i = some { e with image := { e.image with damaged := true } })
      ∧ ∀ p, ((markDamaged i s).place p).map (·.image.first) = (s.place p).map (·.image.first) := by
  unfold markDamaged
  cases he : s.place i with
  | none => exact ⟨⟨s.store.catalogue, rfl⟩, fun _ h => (by cases h), fun _ => rfl⟩
  | some e =>
    refine ⟨⟨_, rfl⟩, fun e' h => ?_, fun p => ?_⟩
    · cases h
      exact (place_setPlace ..).trans (if_pos ⟨rfl, lt_of_place he⟩)
    · rw [place_setPlace]
      split
      · next h => rw [← h.1, he]; rfl
      · rfl

theorem reportReadError_marks (block : Nat) (s : State) : ReadErrorMarks block s (reportReadError block s) := by
  have hflag := flagSet_raiseFlag .storeReadError s
  obtain ⟨x, y, hraised⟩ := reports_raiseFlag .storeReadError s
  unfold reportReadError
  dsimp only
  have hplace : ∀ p, (raiseFlag .storeReadError s).place p = s.place p := fun p => by rw [hraised]; rfl
  have hblock : (raiseFlag .storeReadError s).placeOfBlock block = s.placeOfBlock block := by rw [hraised]; rfl
  cases hp : (raiseFlag .storeReadError s).placeOfBlock block with
  | some i =>
    obtain ⟨⟨c, hc⟩, hdamaged, hfirsts⟩ := markDamaged_spec i (raiseFlag .storeReadError s)
    obtain ⟨o, ho, hasked⟩ := requestMarkWrite_spec (markDamaged i (raiseFlag .storeReadError s))
    dsimp only
    have hkept : ∀ p, (requestMarkWrite (markDamaged i (raiseFlag .storeReadError s))).place p =
        (markDamaged i (raiseFlag .storeReadError s)).place p := fun p => by rw [ho]; rfl
    refine ⟨⟨x, y, c, o, ?_⟩, ?_, ?_, fun p e he hlow hhigh hbefore => ?_, fun p => ?_⟩
    · rw [ho, hc, hraised]; rfl
    · rw [ho, hc]; exact hflag
    · rw [ho]; exact hasked
    · rw [hblock, placeOfBlock_eq he hlow hhigh hbefore] at hp
      cases hp
      exact (hkept _).trans (hdamaged e ((hplace _).trans he))
    · rw [hkept, hfirsts, hplace]
  | none =>
    obtain ⟨o, ho, hasked⟩ := requestMarkWrite_spec (raiseFlag .storeReadError s)
    refine ⟨⟨x, y, s.store.catalogue, o, ?_⟩, ?_, ?_, fun p e he hlow hhigh hbefore => ?_, fun p => ?_⟩
    · dsimp only; rw [ho, hraised]; rfl
    · dsimp only; rw [ho]; exact hflag
    · dsimp only; rw [ho]; exact hasked
    · rw [hblock, placeOfBlock_eq he hlow hhigh hbefore] at hp
      cases hp
    · dsimp only; rw [ho]; exact congrArg (Option.map (·.image.first)) (hplace _)

/-! ### STORE_READ_END (R149, R169) -/

theorem stopCutClose_kept {s : State} (h : s.store.cut = false ∨ ∀ y i c, s.store.progress ≠ some (.checking y i c)) :
    stopCutClose (endAccess s) = endAccess s := by
  unfold stopCutClose
  split
  · next y i c hprogress =>
    obtain hcut | hnot := h
    · exact if_neg (by rw [show (endAccess s).store.cut = false from hcut]; exact Bool.false_ne_true)
    · exact absurd hprogress (hnot y i c)
  · rfl

theorem stopCutClose_cut {s : State} {y : StagedImage} {i : Nat} {c : Nat × Nat} (hcut : s.store.cut = true)
    (hprogress : s.store.progress = some (.checking y i c)) :
    stopCutClose (endAccess s) = finishOperation .mode [] (endAccess s) := by
  unfold stopCutClose
  rw [show (endAccess s).store.progress = _ from hprogress]
  exact if_pos hcut

/-- A session's record when its read has filled its buffer (R149). -/
def filledRecord (x : Session) (r : Runtime) : Runtime :=
  { r with step := .ready .imageBlock, session := some { x with request := .filled } }

theorem readGood_live {q : ReadRequest} {data : List Byte} {s : State} {a : Nat} {r : Runtime} {x : Session}
    (hbuffer : s.restore.buffers[q.buffer]? = some (.reading a)) (hr : s.runtime a = some r) (hx : r.session = some x)
    (hstep : r.step = .waiting) :
    readGood q data s =
      { s with
        restore :=
          { s.restore with
            buffers := s.restore.buffers.setIfInBounds q.buffer (.filled a data)
            nodes := putNode s.restore.nodes a (some (filledRecord x r)) } } := by
  unfold readGood
  rw [hbuffer]
  dsimp only
  unfold offerKind State.mapSession
  rw [mapRuntime_mapRuntime, mapRuntime_of_runtime (s := s.setBuffer q.buffer _) hr]
  unfold State.setRuntime
  simp only [Function.comp, hx, hstep, StepCondition.offer, Option.map_some]
  rfl

section
variable {s : State} {q : ReadRequest} (haccess : s.store.access = some (.read q)) (hblock : q.block < s.blockCount)
include haccess hblock

theorem exec_storeReadEnd (fails : Bool) {u : State} (hu : stopCutClose (endAccess s) = u)
    (hblocks : u.store.blocks = s.store.blocks) :
    exec (.storeReadEnd fails) s =
      took (chooseAccess (if (fails || !(readBlock s.store.blocks q.block).checkGood) = true then readFailed q u
        else readGood q (readBlock s.store.blocks q.block).data u)) := by
  have hend : storeReadEnd fails s =
      some (chooseAccess (if (fails || !(readBlock s.store.blocks q.block).checkGood) = true then readFailed q u
        else readGood q (readBlock s.store.blocks q.block).data u)) := by
    unfold storeReadEnd
    rw [haccess]
    dsimp only
    rw [hu, hblocks]
  refine withinStore_took hend fun b hb => ?_
  unfold State.accessBlock at hb
  rw [haccess] at hb
  cases hb
  exact hblock

theorem exec_storeReadEnd_good {u : State} (hu : stopCutClose (endAccess s) = u)
    (hblocks : u.store.blocks = s.store.blocks)
    (hgood : (readBlock s.store.blocks q.block).check = check16 (readBlock s.store.blocks q.block).data) :
    exec (.storeReadEnd false) s = took (chooseAccess (readGood q (readBlock s.store.blocks q.block).data u)) := by
  rw [exec_storeReadEnd haccess hblock false hu hblocks, if_neg]
  rw [readBad_iff]
  exact fun h => h ⟨rfl, hgood⟩

end

theorem chooseAccess_access (q : ReadRequest) (s : State)
    (h : s.store.access = some (.read q) ∨ q ∈ s.store.reads) :
    (chooseAccess s).store.access = some (.read q) ∨ q ∈ (chooseAccess s).store.reads := by
  unfold chooseAccess
  split
  · exact h
  · next hnone =>
    rw [hnone] at h
    have h := h.resolve_left (nomatch ·)
    split
    · next r rest hreads =>
      rw [hreads] at h
      rcases List.mem_cons.1 h with rfl | h
      · exact .inl rfl
      · exact .inr h
    · next hreads =>
      rw [hreads] at h
      cases h

theorem requestRead_pending (q : ReadRequest) (s : State) :
    (requestRead q s).store.access = some (.read q) ∨ q ∈ (requestRead q s).store.reads :=
  chooseAccess_access q _ (.inr (List.mem_append_right _ (List.mem_singleton_self q)))

theorem requestRead_restore (q : ReadRequest) (s : State) : (requestRead q s).restore = s.restore := by
  obtain ⟨n, hn, -⟩ := requestRead_eq q s
  rw [hn]
  rfl

/-- What a session that takes or is granted buffer `b` leaves (R148, R149). -/
theorem startRead_spec {s : State} {m : Nat} {y : Session} (hy : s.session m = some y) (b : Nat) :
    (startRead m b s).restore.waiting = s.restore.waiting
      ∧ (startRead m b s).restore.buffers = s.restore.buffers.setIfInBounds b (.reading m)
      ∧ (startRead m b s).session m = some { y with buffer := some b, request := .reading }
      ∧ ∀ e, s.place y.entry = some e →
          let q : ReadRequest := { block := e.image.first + y.next, buffer := b }
          (startRead m b s).store.access = some (.read q) ∨ q ∈ (startRead m b s).store.reads := by
  cases hr : s.runtime m with
  | none => unfold State.session at hy; rw [hr] at hy; cases hy
  | some r =>
    have hx : r.session = some y := (session_of_runtime hr).symm.trans hy
    have hsession := (startRead_cases m b s).2.2 r y hr hx
    refine ⟨?_, ?_, session_of_runtime hsession, fun e he => ?_⟩
    all_goals unfold startRead; rw [hy]; dsimp only
    · rw [requestRead_restore]
      exact waiting_mapRuntime s m _
    · rw [requestRead_restore, mapRuntime_of_runtime hr]
      rfl
    · have himage : s.sessionImage y = some e.image := by unfold State.sessionImage; rw [he]; rfl
      rw [himage]
      exact requestRead_pending _ _

theorem freeBuffer_waiting {s : State} {m : Nat} {rest : List Nat} (h : s.restore.waiting = m :: rest) (b : Nat) :
    freeBuffer b s =
      startRead m b ((s.setBuffer b .free).withRestore { (s.setBuffer b .free).restore with waiting := rest }) := by
  unfold freeBuffer; rw [h]

theorem freeBuffer_alone {s : State} (h : s.restore.waiting = []) (b : Nat) : freeBuffer b s = s.setBuffer b .free := by
  unfold freeBuffer; rw [h]

theorem lt_of_buffer {s : State} {b : Nat} {x : Buffer} (h : s.restore.buffers[b]? = some x) : b < 4 := by
  by_contra hge
  rw [Vector.getElem?_eq_none (Nat.le_of_not_lt hge)] at h
  cases h

/-- A read without a session ends: the buffer falls FREE, whatever the read found. -/
theorem drained {s : State} {q : ReadRequest} (hbuffer : s.restore.buffers[q.buffer]? = some .draining) (data : List Byte) :
    readGood q data s = freeBuffer q.buffer s ∧ readFailed q s = freeBuffer q.buffer (reportReadError q.block s) := by
  obtain ⟨_, _, _, _, hframe⟩ := (reportReadError_marks q.block s).frame
  have hsame : (reportReadError q.block s).restore.buffers[q.buffer]? = some .draining := by rw [hframe]; exact hbuffer
  have hdrain : ∀ {t : State}, t.restore.buffers[q.buffer]? = some .draining →
      drainBuffer q.buffer t = freeBuffer q.buffer t := fun h => by unfold drainBuffer; rw [h]
  constructor
  · unfold readGood
    rw [hbuffer]
    exact hdrain hbuffer
  · unfold readFailed
    dsimp only
    rw [hsame]
    exact hdrain hsame

/-- A read of a live session fails: the sessions of the entry end. -/
theorem readFailed_live {s : State} {q : ReadRequest} {a : Nat} {x : Session}
    (hbuffer : s.restore.buffers[q.buffer]? = some (.reading a)) (hx : s.session a = some x) :
    readFailed q s = forNodes addresses (leaveDamaged x.entry) (reportReadError q.block s) := by
  obtain ⟨_, _, _, _, hframe⟩ := (reportReadError_marks q.block s).frame
  unfold readFailed
  dsimp only
  rw [show (reportReadError q.block s).restore.buffers[q.buffer]? = some (.reading a) by rw [hframe]; exact hbuffer]
  dsimp only
  unfold endDamaged
  rw [show (reportReadError q.block s).session a = some x by rw [hframe]; exact hx]

theorem flagSet_chooseAccess (f : Flag) (s : State) : (chooseAccess s).flagSet f = s.flagSet f := by
  obtain ⟨a, r, h⟩ := chooseAccess_frame s
  rw [h]
  rfl

/-- The marks of a read error are kept by what follows it in its command. -/
theorem ReadErrorMarks.after {block : Nat} {s v t : State} (h : ReadErrorMarks block s v) (hkept : StoreKept v t)
    (hquiet : t.quiet = v.quiet)
    (hflags : ∀ {F : BitVec 10} {n : Nat}, v.Within F n false false → t.Within F n false false) :
    (endCommand (chooseAccess t)).flagSet .storeReadError = true
      ∧ (endCommand (chooseAccess t)).store.blocks = s.store.blocks ∧ (endCommand (chooseAccess t)).tables = s.tables
      ∧ (∃ o ∈ (endCommand (chooseAccess t)).store.operations, o.kind = .markWrite)
      ∧ ∀ p e, s.place p = some e → e.image.first ≤ block → block < e.image.first + e.image.length →
          (∀ p' e', p' < p → s.place p' = some e' →
            block < e'.image.first ∨ e'.image.first + e'.image.length ≤ block) →
          ∃ e', (endCommand (chooseAccess t)).place p = some e' ∧ e'.image = { e.image with damaged := true } := by
  obtain ⟨x, y, c, o, hframe⟩ := h.frame
  have hall := hkept.trans (chooseAccess_kept t)
  obtain ⟨c', r', a', hstore⟩ := hall.frame
  have htables : (chooseAccess t).tables = s.tables := by
    obtain ⟨a, r, hchoose⟩ := chooseAccess_frame t
    rw [hchoose]
    refine (congrArg Quiet.tables hquiet).trans ?_
    rw [hframe]
    rfl
  refine ⟨?_, ?_, ?_, ?_, fun p e he hlow hhigh hbefore => ?_⟩
  · rw [flagSet_endCommand, flagSet_chooseAccess]
    exact flagSet_of_within hflags h.flag
  · rw [endCommand_transmit]
    show (chooseAccess t).store.blocks = _
    rw [hstore, hframe]
  · rw [endCommand_transmit]
    exact htables
  · rw [endCommand_transmit]
    show ∃ o ∈ (chooseAccess t).store.operations, _
    rw [hstore]
    exact h.asked
  · have himage := hall.images p
    rw [h.damaged p e he hlow hhigh hbefore] at himage
    obtain ⟨e', he', heq⟩ := Option.map_eq_some_iff.1 himage
    refine ⟨e', ?_, heq⟩
    rw [endCommand_transmit]
    exact he'

/-- The end of a read whose session has gone (R161): the buffer falls FREE, or the head of the waiting list takes it. -/
theorem drained_end {s v : State} {q : ReadRequest} (hbuffer : s.restore.buffers[q.buffer]? = some .draining)
    (hrestore : v.restore = s.restore) (hhold : v.hold = s.hold)
    (hfirsts : ∀ p, (v.place p).map (·.image.first) = (s.place p).map (·.image.first)) :
    let t := endCommand (chooseAccess (freeBuffer q.buffer v))
    t.hold = s.hold
      ∧ (∀ n v, s.runtime n = some v →
          ∃ z, t.runtime n = some z ∧ z.state = v.state ∧ z.session.isSome = v.session.isSome)
      ∧ (s.restore.waiting = [] → t.restore.buffers[q.buffer]? = some .free)
      ∧ (∀ m rest y, s.restore.waiting = m :: rest → s.session m = some y →
          t.restore.waiting = rest ∧ t.restore.buffers[q.buffer]? = some (.reading m)
            ∧ (∃ z, t.session m = some z ∧ z.next = y.next ∧ z.buffer = some q.buffer ∧ z.request = .reading)
            ∧ ∀ e, s.place y.entry = some e →
                t.store.access = some (.read { block := e.image.first + y.next, buffer := q.buffer })
                  ∨ { block := e.image.first + y.next, buffer := q.buffer } ∈ t.store.reads) := by
  intro t
  have hlt := lt_of_buffer hbuffer
  have ht : t.hold = (freeBuffer q.buffer v).hold ∧ t.restore = (freeBuffer q.buffer v).restore := by
    obtain ⟨a, r, hchoose⟩ := chooseAccess_frame (freeBuffer q.buffer v)
    show (endCommand (chooseAccess _)).hold = _ ∧ (endCommand (chooseAccess _)).restore = _
    rw [endCommand_transmit, hchoose]
    exact ⟨rfl, rfl⟩
  have hstore : t.store = (chooseAccess (freeBuffer q.buffer v)).store := by
    show (endCommand _).store = _
    rw [endCommand_transmit]
  have hruntime : ∀ n, t.runtime n = (freeBuffer q.buffer v).runtime n := fun n => by
    unfold State.runtime; rw [ht.2]
  have hsession : ∀ n, t.session n = (freeBuffer q.buffer v).session n := fun n => by
    unfold State.session; rw [hruntime]
  have hset : ∀ x : Buffer, (v.restore.buffers.setIfInBounds q.buffer x)[q.buffer]? = some x := fun x => by
    rw [Vector.getElem?_setIfInBounds, if_pos rfl, if_pos hlt]
  refine ⟨?_, fun n r hr => ?_, fun hnone => ?_, fun m rest y hwaiting hy => ?_⟩
  · obtain ⟨x, m, h⟩ := onlyTransfers_freeBuffer q.buffer v
    rw [ht.1, h]
    exact hhold
  · obtain ⟨z, hz, h⟩ := (granted_freeBuffer q.buffer v n).stays
      (v := r) (by unfold State.runtime at hr ⊢; rw [hrestore]; exact hr)
    exact ⟨z, (hruntime n).trans hz, h⟩
  · rw [ht.2, freeBuffer_alone (by rw [hrestore]; exact hnone)]
    exact hset _
  · have hgrant := freeBuffer_waiting (s := v) (by rw [hrestore]; exact hwaiting) q.buffer
    have hy' : ((v.setBuffer q.buffer .free).withRestore
        { (v.setBuffer q.buffer .free).restore with waiting := rest }).session m = some y := by
      have hv : v.session m = some y := by
        unfold State.session State.runtime at hy ⊢
        rw [hrestore]
        exact hy
      exact hv
    obtain ⟨hrest, hbuffers, hrecord, hread⟩ := startRead_spec hy' q.buffer
    rw [ht.2, hsession, hstore, hgrant]
    refine ⟨hrest, ?_, ⟨_, hrecord, rfl, rfl, rfl⟩, fun e he => ?_⟩
    · rw [hbuffers]
      show ((v.restore.buffers.setIfInBounds _ _).setIfInBounds _ _)[_]? = _
      rw [Vector.getElem?_setIfInBounds, if_pos rfl, if_pos hlt]
    · have himage := hfirsts y.entry
      rw [he] at himage
      obtain ⟨e', he', hfirst⟩ := Option.map_eq_some_iff.1 himage
      rw [show e.image.first = e'.image.first from hfirst.symm]
      exact chooseAccess_access _ _ (hread e' he')

theorem leaveDamaged_walk_quiet (place : Nat) (s : State) : (forNodes addresses (leaveDamaged place) s).quiet = s.quiet :=
  forNodes_quiet _ _ (fun a t => leaveDamaged_quiet t place a) s

/-- Settles O42: the frames of the arbiter, the buffers and the sessions at the end of a session read, case by case. -/
theorem storeReadEndFillsOrMarksDamaged : Obligations.StoreReadEndFillsOrMarksDamaged := by
  intro s q haccess hblock b bad marks filled
  have hchosen : ∀ t : State, t.store = (endAccess s).store →
      chooseAccess t = { t with store := s.store.chosen } := fun t ht => by
    rw [chooseAccess_chosen (by rw [ht]; rfl), ht]
    exact congrArg (t.withStore ·) (chosen_of_access s.store none)
  refine ⟨fun y i c o ref more a r x hcut hprogress hops hbuffer hr hx hstep hgood => ?_, fun hkept => ⟨fun a r x hbuffer hr hx =>
    ⟨fun hstep hgood => ?_, fun fails hbad => ?_⟩, fun hbuffer => ⟨fun hgood hwaiting => ?_, fun fails => ?_⟩⟩⟩
  · have hanswered := finishOperation_answered (s := endAccess s) hops .mode []
    rw [exec_storeReadEnd_good haccess hblock ((stopCutClose_cut hcut hprogress).trans hanswered) rfl hgood,
      readGood_live (s := ({ endAccess s with store := _ } : State).fills _ _) hbuffer hr hx hstep, chooseAccess_chosen rfl]
    exact took_congr (congrArg
      (fun m => { (({ s with restore := filled a r x } : State).fills ref.reservation _) with store := m })
      (chosen_of_access { s.store with operations := more, progress := none, cut := false } none))
  · rw [exec_storeReadEnd_good haccess hblock (stopCutClose_kept hkept) rfl hgood,
      readGood_live (s := endAccess s) hbuffer hr hx hstep]
    exact took_congr (hchosen _ rfl)
  · have hmarks := reportReadError_marks q.block (endAccess s)
    obtain ⟨_, _, _, _, hframe⟩ := hmarks.frame
    obtain ⟨hstore, hends, hstays⟩ := leaveDamaged_walk x.entry (reportReadError q.block (endAccess s))
    have hexec := exec_storeReadEnd haccess hblock fails (stopCutClose_kept hkept) rfl
    rw [if_pos ((readBad_iff ..).2 fun h => hbad.elim (fun hf => by rw [h.1] at hf; cases hf) fun hne => hne h.2),
      readFailed_live (s := endAccess s) hbuffer ((session_of_runtime (s := endAccess s) hr).trans hx)] at hexec
    have hruntime : ∀ n, (reportReadError q.block (endAccess s)).runtime n = s.runtime n := fun n => by rw [hframe]; rfl
    have hqueue : ∀ n, (reportReadError q.block (endAccess s)).queue n = s.queue n := fun n => by rw [hframe]; rfl
    have hend : ∀ t : State, (endCommand (chooseAccess t)).restore = t.restore ∧ (endCommand (chooseAccess t)).hold = t.hold := by
      intro t
      obtain ⟨_, _, hchoose⟩ := chooseAccess_frame t
      rw [endCommand_transmit, hchoose]
      exact ⟨rfl, rfl⟩
    refine ⟨_, hexec, hmarks.after hstore (leaveDamaged_walk_quiet ..) fun h => forNodes_within _ _
      (fun a t ht => leaveDamaged_within _ _ ht) h, fun n v y hv hy hentry => ?_, fun n v hv hne => ?_⟩
    · obtain ⟨z, hz, hleft⟩ := hends n v y ((hruntime n).trans hv) hy hentry
      refine ⟨z, ?_, hleft.session, hleft.attempts, hleft.config, fun hnot => ?_⟩
      · refine Eq.trans ?_ hz
        unfold State.runtime
        rw [(hend _).1]
      · obtain ⟨hstate, hcount, hempty⟩ := hleft.failed hnot
        refine ⟨hstate, hcount, Eq.trans ?_ hempty⟩
        unfold State.queue
        rw [(hend _).2]
    · obtain ⟨hgranted, hsame⟩ := hstays n fun y hy => hne y
        ((session_of_runtime hv).symm.trans (Eq.trans (by unfold State.session; rw [hruntime]) hy))
      obtain ⟨z, hz, hstate, hsession⟩ := hgranted.stays ((hruntime n).trans hv)
      refine ⟨z, Eq.trans ?_ hz, hstate, hsession, Eq.trans ?_ (hsame.trans (hqueue n))⟩
      · unfold State.runtime; rw [(hend _).1]
      · unfold State.queue; rw [(hend _).2]
  · rw [exec_storeReadEnd_good haccess hblock (stopCutClose_kept hkept) rfl hgood,
      (drained (s := endAccess s) hbuffer b.data).1, freeBuffer_alone (s := endAccess s) hwaiting]
    exact took_congr (hchosen _ rfl)
  · have hexec := exec_storeReadEnd haccess hblock fails (stopCutClose_kept hkept) rfl
    by_cases hbad : (fails || !b.checkGood) = true
    · have hmarks := reportReadError_marks q.block (endAccess s)
      obtain ⟨_, _, _, _, hframe⟩ := hmarks.frame
      rw [if_pos hbad, (drained (s := endAccess s) hbuffer b.data).2] at hexec
      exact ⟨_, hexec, fun _ => hmarks.after (freeBuffer_kept ..) (freeBuffer_quiet ..) (freeBuffer_within _),
        drained_end hbuffer (by rw [hframe]; rfl) (by rw [hframe]; rfl) hmarks.firsts⟩
    · rw [if_neg hbad, (drained (s := endAccess s) hbuffer b.data).1] at hexec
      refine ⟨_, hexec, fun h => ?_, drained_end (v := endAccess s) hbuffer rfl rfl fun _ => rfl⟩
      rw [readBad_iff, not_not] at hbad
      exact h.elim (fun hf => by rw [hbad.1] at hf; cases hf) fun hne => absurd hbad.2 hne

end Sys2Proof.Machine
end

section
/-! SUPPORT. A node that is isolated or restored by request (R54, R55, R58), and the effect of RESTART ENGINE (R61, R83). -/

namespace Sys2Proof.Machine

/-! ### Hold queues that take more entries -/

/-- Queues only grow at their tails, and only those of the nodes of `l`. -/
def Appends (l : List Nat) (s t : State) : Prop :=
  ∀ a, (∃ q, t.queue a = s.queue a ++ q) ∧ (a ∉ l → t.queue a = s.queue a)

theorem appends_of_hold {s t : State} (h : t.hold = s.hold) (l : List Nat) : Appends l s t := fun a => by
  have hqueue : t.queue a = s.queue a := by unfold State.queue; rw [h]
  exact ⟨⟨[], by rw [hqueue, List.append_nil]⟩, fun _ => hqueue⟩

theorem Appends.trans {l : List Nat} {s t u : State} (h : Appends l s t) (g : Appends l t u) : Appends l s u := fun a => by
  obtain ⟨⟨p, hp⟩, hs⟩ := h a
  obtain ⟨⟨q, hq⟩, ht⟩ := g a
  exact ⟨⟨p ++ q, by rw [hq, hp, List.append_assoc]⟩, fun ha => (ht ha).trans (hs ha)⟩

theorem appends_appendHold {l : List Nat} {a : Nat} (ha : a ∈ l) (x : HeldFrame) (s : State) :
    Appends l s (appendHold a x s).1 := by
  unfold appendHold
  split
  · split
    · intro b
      rw [queue_setQueue]
      split
      · next h => exact ⟨⟨_, by rw [h.1]⟩, fun hb => absurd (h.1 ▸ ha) hb⟩
      · exact ⟨⟨[], (List.append_nil _).symm⟩, fun _ => rfl⟩
    · exact appends_of_hold rfl l
  · exact appends_of_hold rfl l

theorem appends_disposeReturned {l : List Nat} {e : PassEntry} (he : e.destination ∈ l) (s : State) :
    Appends l s (disposeReturned e s) := by
  unfold disposeReturned
  split
  · exact (appends_appendHold he _ s).trans (appends_of_hold rfl l)
  · exact appends_of_hold (hold_captureLatest e.destination e.action.slot e.captured s) l
  · exact appends_of_hold rfl l

theorem appends_absentTreatment {l : List Nat} {a : Nat} (ha : a ∈ l) (e : PassEntry) (s : State) :
    Appends l s (absentTreatment e a s) := by
  unfold absentTreatment
  split
  · exact appends_appendHold ha _ s
  · exact appends_of_hold (hold_captureLatest a e.action.slot e.captured s) l
  · exact appends_of_hold rfl l

theorem appends_forNodes {l : List Nat} {f : Nat → State → State} (hf : ∀ a ∈ l, ∀ s, Appends l s (f a s)) {m : List Nat}
    (hm : ∀ a ∈ m, a ∈ l) (s : State) : Appends l s (forNodes m f s) := by
  induction m generalizing s with
  | nil => exact appends_of_hold rfl l
  | cons a m ih =>
    exact (hf a (hm a (List.mem_cons_self ..)) s).trans (ih (fun b hb => hm b (List.mem_cons_of_mem a hb)) (f a s))

theorem appends_walkReturned (l : List Nat) (q : List PassEntry) (s : State) : Appends l s (walkReturned l q s).2 := by
  induction q generalizing s with
  | nil => exact appends_of_hold rfl l
  | cons e q ih =>
    unfold walkReturned
    split
    · refine (appends_forNodes (fun a ha s => appends_absentTreatment ha e s) (fun a ha => ?_) s).trans (ih _)
      simpa using (List.mem_filter.1 ha).2
    · split
      · next h => exact (appends_disposeReturned (by simpa using h) s).trans (ih _)
      · exact ih s

theorem appends_returnPasses (l : List Nat) (s : State) : Appends l s (returnPasses l s) :=
  ((appends_walkReturned l s.segment.urgent s).trans (appends_walkReturned l s.segment.normal _)).trans
    (appends_of_hold rfl l)

/-! ### What returned pass frames leave -/

theorem returnPasses_gap (l : List Nat) (s : State) : (returnPasses l s).gap = s.gap := by
  obtain ⟨t, _, _, _, h, heq, -⟩ := returnPasses_only l s
  obtain ⟨_, _, _, _, rfl⟩ := h
  rw [heq]
  rfl

theorem returnPasses_runtime (l : List Nat) (s : State) (a : Nat) : (returnPasses l s).runtime a = s.runtime a := by
  obtain ⟨t, _, _, _, h, heq, -⟩ := returnPasses_only l s
  rw [heq]
  exact h.runtime a

/-! ### Entry to PROBE or SUSPECT (R58) -/

/-- The record of a node that must enter PROBE: SUSPECT with phase PROBE when it is FED in a gap. -/
def doubtedRecord (suspect : Bool) (r : Runtime) : Runtime :=
  { r with
    state := if suspect then .suspect else .probe
    phase := if suspect then some .probe else none
    bootCount := r.countOnDoubt, window := none, nextProbe := none, misses := 0
    step := if suspect then r.step.cancel else r.step.offer .probe }

/-- What an entry to PROBE or SUSPECT leaves (R42, R56, R58, R72). -/
structure Doubted (a : Nat) (s t : State) : Prop where
  record : ∀ r, s.runtime a = some r → t.runtime a = some (doubtedRecord (s.gapInProgress && s.isFed a) r)
  others : ∀ b, b ≠ a → t.runtime b = s.runtime b
  queues : Appends [a] s t
  gap : t.gap = { s.gap with gapSet := t.gap.gapSet }
  joins : (s.gapInProgress && s.isFed a) = true → isAddress a = true → a ∈ t.gap.gapSet

theorem Doubted.returned {a : Nat} {s t : State} (h : Doubted a s t) : Doubted a s (returnPasses [a] t) where
  record := fun r hr => (returnPasses_runtime ..).trans (h.record r hr)
  others := fun b hb => (returnPasses_runtime ..).trans (h.others b hb)
  queues := h.queues.trans (appends_returnPasses [a] t)
  gap := by rw [returnPasses_gap]; exact h.gap
  joins := by rw [returnPasses_gap]; exact h.joins

theorem hold_mapRuntime (s : State) (a : Nat) (f : Runtime → Runtime) : (s.mapRuntime a f).hold = s.hold :=
  (sameBlocks_mapRuntime s a f).hold

theorem enterProbe_doubted {a : Nat} {s : State} (h : (s.gapInProgress && s.isFed a) = false) :
    Doubted a s (enterProbe a s) := by
  have hmoved : Doubted a s (s.mapRuntime a fun r =>
      { r.move .probe with misses := 0, bootCount := r.countOnDoubt, step := r.step.offer .probe }) :=
    { record := fun r hr => by rw [h]; exact runtime_mapRuntime_same hr _
      others := fun b hb => runtime_mapRuntime_other s hb _
      queues := appends_of_hold (hold_mapRuntime ..) _
      gap := by rw [(sameBlocks_mapRuntime s a _).gap]
      joins := fun hsuspect => by rw [h] at hsuspect; cases hsuspect }
  unfold enterProbe
  dsimp only
  split
  · exact hmoved.returned
  · exact hmoved

theorem enterProbeOrSuspect_doubted (a : Nat) (s : State) : Doubted a s (enterProbeOrSuspect a s) := by
  unfold enterProbeOrSuspect
  by_cases h : (s.gapInProgress && s.isFed a) = true
  · rw [if_pos h]
    have hmoved : Doubted a s (joinGapSet a (enterSuspect a .probe s)) :=
      { record := fun r hr => by rw [h]; exact runtime_mapRuntime_same hr _
        others := fun b hb => runtime_mapRuntime_other s hb _
        queues := appends_of_hold (hold_mapRuntime s a _) _
        gap := by
          unfold joinGapSet enterSuspect
          rw [(sameBlocks_mapRuntime s a _).gap]
          rfl
        joins := fun _ ha => by
          show a ∈ addressSet (a :: _)
          rw [addressSet_eq_filter]
          exact List.mem_filter.2 ⟨mem_addresses ha, by simp⟩ }
    dsimp only
    split
    · exact hmoved.returned
    · exact hmoved
  · rw [if_neg h]
    exact enterProbe_doubted (Bool.eq_false_of_not_eq_true h)

/-! ### Entry to ISOLATED (R54, R73) -/

/-- The record of a node that enters ISOLATED (R54). -/
def isolatedRecord (r : Runtime) : Runtime :=
  { r with
    state := .isolated, bootCount := none, expected := none, window := none, nextProbe := none
    session := none, step := r.step.cancel }

/-- No unicast entry for the node is in the queue, and no broadcast has it as a live member. -/
def NotAddressed (a : Nat) (q : List PassEntry) : Prop :=
  ∀ e ∈ q, (e.kind ≠ .broadcast → e.destination ≠ a) ∧ (e.kind = .broadcast → a ∉ e.live)

theorem walkRefused_kept (a : Nat) (c : AnswerCode) (q : List PassEntry) (s : State) :
    NotAddressed a (walkRefused a c q s).1 := by
  induction q generalizing s with
  | nil => exact fun e he => nomatch he
  | cons p q ih =>
    unfold walkRefused
    split
    · next hkind =>
      intro e he
      rcases List.mem_cons.1 he with rfl | he
      · exact ⟨fun h => absurd hkind h, fun _ hlive => by simp at hlive⟩
      · exact ih s e he
    · next hkind =>
      split
      · exact ih _
      · next hother =>
        intro e he
        rcases List.mem_cons.1 he with rfl | he
        · exact ⟨fun _ => hother, fun h => absurd h hkind⟩
        · exact ih s e he

theorem refusePasses_kept (a : Nat) (c : AnswerCode) (s : State) :
    NotAddressed a ((refusePasses a c s).segment.urgent ++ (refusePasses a c s).segment.normal) := fun e he =>
  (List.mem_append.1 he).elim (walkRefused_kept a c _ s e) (walkRefused_kept a c _ _ e)

theorem Reports.segment {s t : State} (h : Reports s t) : t.segment = s.segment := by
  obtain ⟨_, _, rfl⟩ := h
  rfl

/-- What an entry to ISOLATED leaves. -/
structure Isolated (a : Nat) (s t : State) : Prop where
  record : ∀ r, s.runtime a = some r → t.runtime a = some (isolatedRecord r) ∧ t.queue a = []
  others : ∀ b, b ≠ a → GrantedAt s t b ∧ t.queue b = s.queue b
  shadow : t.shadow = s.shadow
  gap : t.gap = s.gap
  passes : NotAddressed a (t.segment.urgent ++ t.segment.normal)

theorem enterIsolated_isolated (a : Nat) (s : State) : Isolated a s (enterIsolated a s) := by
  have hended : OnlyTransfers s (endSession a (cancelStep a s)) :=
    (onlyTransfers_mapRuntime s a _).trans (onlyTransfers_endSession a _)
  have hmoved := hended.trans (onlyTransfers_mapRuntime (endSession a (cancelStep a s)) a
    fun r => { r.move .isolated with bootCount := none, expected := none, phase := r.phase })
  have hothers : ∀ b, b ≠ a → GrantedAt s ((endSession a (cancelStep a s)).mapRuntime a
      fun r => { r.move .isolated with bootCount := none, expected := none, phase := r.phase }) b := fun b hb =>
    ((GrantedAt.of_eq (runtime_mapRuntime_other s hb _)).trans (granted_endSession hb _)).trans
      (.of_eq (runtime_mapRuntime_other _ hb _))
  have hself : ∀ r, s.runtime a = some r → ((endSession a (cancelStep a s)).mapRuntime a
      fun r => { r.move .isolated with bootCount := none, expected := none, phase := r.phase }).runtime a =
        some (isolatedRecord r) := fun r hr =>
    runtime_mapRuntime_same (endSession_of_cancelled
      (runtime_mapRuntime_same hr fun r => { r with step := r.step.cancel }) r.step.cancel_cancel).2 _
  unfold enterIsolated
  dsimp only
  generalize ((endSession a (cancelStep a s)).mapRuntime a _) = v at hmoved hothers hself ⊢
  obtain ⟨-, hruntime, hqueues⟩ := leaveQueues_other a .nodeIsolated .isolated v
  obtain ⟨hrefused, -⟩ := refusePasses_cases a .nodeIsolated v
  obtain ⟨hshadow, -, hqueue⟩ := discardQueue_cases a (refusePasses a .nodeIsolated v)
  have hdiscarded := reports_reportDiscarded ((refusePasses a .nodeIsolated v).queue a) (refusePasses a .nodeIsolated v)
  have hnotice := reports_offerNodeState a .isolated (discardQueue a (refusePasses a .nodeIsolated v))
  have hgap : (discardQueue a (refusePasses a .nodeIsolated v)).gap = v.gap :=
    hdiscarded.sameBlocks.gap.trans hrefused.gap
  have hsegment : (discardQueue a (refusePasses a .nodeIsolated v)).segment = (refusePasses a .nodeIsolated v).segment :=
    hdiscarded.segment
  obtain ⟨_, _, hv⟩ := hmoved
  refine ⟨fun r hr => ⟨(hruntime a).trans (hself r hr), ?_⟩, fun b hb => ⟨(hothers b hb).trans (.of_eq (hruntime b)), ?_⟩,
    ?_, ?_, ?_⟩
  · rw [hnotice.sameBlocks.queue, hqueue (isAddress_of_runtime hr)]
  · rw [hqueues b hb, hv]
    rfl
  · rw [hnotice.sameBlocks.shadow, hshadow, hrefused.shadow, hv]
  · rw [hnotice.sameBlocks.gap, hgap, hv]
  · rw [hnotice.segment, hsegment]
    exact refusePasses_kept a .nodeIsolated v

/-! ### ISOLATE NODE and RESTORE NODE (R54, R55) -/

section
variable {s w : State} {k : RequestCode} {tag : Word16} {rest : List TrunkFrame} {i a : Nat} {args : List Byte}

/-- What a node request keeps when its effect on the nodes leaves `w`. -/
theorem done_kept (hquiet : w.quiet = (s.reserved rest i).quiet) (hgap : w.gap = { s.gap with gapSet := w.gap.gapSet })
    (hothers : ∀ n, n ≠ a → w.nodeState n = s.nodeState n ∧ w.queue n = s.queue n) :
    let t := endCommand (done (asked k tag args i) [] w)
    t.tables = s.tables ∧ t.stored = s.stored ∧ t.store.blocks = s.store.blocks
      ∧ t.counters = s.counters ∧ t.segment.line = s.segment.line ∧ t.trunk.ingress = rest
      ∧ t.gap = { s.gap with gapSet := t.gap.gapSet } ∧ ∀ n, n ≠ a → t.nodeState n = s.nodeState n ∧ t.queue n = s.queue n := by
  intro t
  have ht : t = endCommand (done (asked k tag args i) [] w) := rfl
  rw [endCommand_transmit] at ht
  rw [ht]
  exact ⟨congrArg Quiet.tables hquiet, congrArg Quiet.stored hquiet, congrArg Quiet.blocks hquiet,
    congrArg Quiet.counters hquiet, congrArg Quiet.line hquiet, congrArg Quiet.ingress hquiet, hgap, hothers⟩

end

/-- The node's record before a RESTORE NODE moves it: what R55 forgets, the step cancelled, the session ended. -/
def readiedNode (a : Nat) (s : State) : State := endSession a (cancelStep a (s.mapRuntime a forgetBoot))

theorem readiedNode_spec (a : Nat) (s : State) :
    OnlyTransfers s (readiedNode a s)
      ∧ (∀ r, s.runtime a = some r →
          (readiedNode a s).runtime a = some { forgetBoot r with step := r.step.cancel, session := none })
      ∧ ∀ b, b ≠ a → GrantedAt s (readiedNode a s) b := by
  refine ⟨((onlyTransfers_mapRuntime s a _).trans (onlyTransfers_mapRuntime _ a _)).trans (onlyTransfers_endSession a _),
    fun r hr => ?_, fun b hb => ((GrantedAt.of_eq (runtime_mapRuntime_other s hb _)).trans
      (.of_eq (runtime_mapRuntime_other _ hb _))).trans (granted_endSession hb _)⟩
  have hstep : (forgetBoot r).step = r.step := by unfold forgetBoot; split <;> rfl
  rw [← hstep]
  exact (endSession_of_cancelled (runtime_mapRuntime_same (runtime_mapRuntime_same hr forgetBoot)
    fun r => { r with step := r.step.cancel }) (forgetBoot r).step.cancel_cancel).2

/-- The boot count a restored node moves with is unknown, and its expected version absent (R55). -/
theorem forgetBoot_forgets {r : Runtime}
    (h : (r.state = .failed ∨ r.state = .isolated) → r.bootCount = none ∧ r.expected = none) :
    forgetBoot r = { r with bootCount := none, expected := none } := by
  unfold forgetBoot
  split
  · next hstate =>
    obtain ⟨hcount, hexpected⟩ := h (.inl hstate)
    rw [← hcount, ← hexpected]
  · next hstate =>
    obtain ⟨hcount, hexpected⟩ := h (.inr hstate)
    rw [← hcount, ← hexpected]
  · rfl

/-- The condition of a step that a move replaces: a transaction in flight makes it ORPHANED (R39). -/
def StepCondition.orphanOr (c k : StepCondition) : StepCondition :=
  match c with
  | .inFlight _ | .orphaned => .orphaned
  | _ => k

theorem StepCondition.cancel_eq (c : StepCondition) : c.cancel = c.orphanOr .none := by cases c <;> rfl

theorem StepCondition.offer_cancel_eq (c : StepCondition) (k : StepKind) : c.cancel.offer k = c.orphanOr (.ready k) := by
  cases c <;> rfl

theorem exec_isolateNode {s : State} {tag : Word16} {b : Byte} {rest : List TrunkFrame} {i : Nat}
    (h : s.Asks .isolateNode tag [b] rest i) (hpending : s.segment.restartPending = false) :
    exec .isolateNode s = took
      (match s.nodeState b.toNat with
      | .unconfigured => invalid (asked .isolateNode tag [b] i) (s.reserved rest i)
      | .isolated => done (asked .isolateNode tag [b] i) [] (s.reserved rest i)
      | _ => done (asked .isolateNode tag [b] i) [] (enterIsolated b.toNat (s.reserved rest i))) := by
  show happens (takeRequest .isolateNode actIsolateNode s) s = _
  rw [h.take actIsolateNode nofun fun _ => hpending]
  rfl

theorem exec_restoreNode {s : State} {tag : Word16} {b : Byte} {rest : List TrunkFrame} {i : Nat}
    (h : s.Asks .restoreNode tag [b] rest i) (hpending : s.segment.restartPending = false) :
    exec .restoreNode s = took
      (match s.nodeState b.toNat with
      | .unconfigured => invalid (asked .restoreNode tag [b] i) (s.reserved rest i)
      | _ => done (asked .restoreNode tag [b] i) []
          (enterProbeOrSuspect b.toNat (readiedNode b.toNat (s.reserved rest i)))) := by
  show happens (takeRequest .restoreNode actRestoreNode s) s = _
  rw [h.take actRestoreNode nofun fun _ => hpending]
  rfl

theorem nodeState_of_none {s : State} {a : Nat} (h : s.runtime a = none) : s.nodeState a = .unconfigured := by
  unfold State.nodeState; rw [h]

/-- Settles O43: each request runs its own rule, whose effect on the node is the move that R54 and R55 name. -/
theorem nodeIsolatedAndRestored : Obligations.NodeIsolatedAndRestored := by
  intro s tag rest i b hpending a suspect orphan answers kept
  refine ⟨fun h => ?_, fun h => ?_⟩
  · have hexec := exec_isolateNode h hpending
    have hi := (freeEntry_eq_some h.1.2).1
    refine ⟨fun hnone => ?_, fun r hr hstate => ?_, fun r hr hisolated hunconfigured => ?_⟩
    · rw [nodeState_of_none hnone] at hexec
      exact hexec.trans (took_congr (invalid_asked s))
    · rw [(nodeState_of_runtime hr).trans hstate] at hexec
      exact hexec.trans (took_congr (done_asked s []))
    · have hmoves : exec .isolateNode s =
          took (done (asked .isolateNode tag [b] i) [] (enterIsolated a (s.reserved rest i))) := by
        rw [hexec, nodeState_of_runtime hr]
        split
        · next heq => exact absurd heq hunconfigured
        · next heq => exact absurd heq hisolated
        · rfl
      have hleft := enterIsolated_isolated a (s.reserved rest i)
      obtain ⟨hrecord, hqueue⟩ := hleft.record r hr
      have hkept := done_kept (k := .isolateNode) (tag := tag) (args := [b]) (enterIsolated_quiet (s.reserved rest i) a)
        (by rw [hleft.gap]; rfl) fun n hn => ⟨(hleft.others n hn).1.nodeState, (hleft.others n hn).2⟩
      refine ⟨_, hmoves, hkept, ?_⟩
      refine ⟨?_, ?_, ?_, ?_, ?_, State.Shows.endCommand (shows_enqueue hi _ _)⟩ <;> rw [endCommand_transmit]
      · exact hleft.shadow
      · exact congrArg (·.gapSet) hleft.gap
      · exact hqueue
      · refine hrecord.trans ?_
        unfold isolatedRecord
        rw [StepCondition.cancel_eq]
        rfl
      · exact hleft.passes
  · have hexec := exec_restoreNode h hpending
    have hi := (freeEntry_eq_some h.1.2).1
    refine ⟨fun hnone => ?_, fun r hr hunconfigured hforgotten => ?_⟩
    · rw [nodeState_of_none hnone] at hexec
      exact hexec.trans (took_congr (invalid_asked s))
    · have hmoves : exec .restoreNode s = took (done (asked .restoreNode tag [b] i) []
          (enterProbeOrSuspect a (readiedNode a (s.reserved rest i)))) := by
        rw [hexec, nodeState_of_runtime hr]
        split
        · next heq => exact absurd heq hunconfigured
        · rfl
      obtain ⟨honly, hself, hothers⟩ := readiedNode_spec a (s.reserved rest i)
      have hquiet : (readiedNode a (s.reserved rest i)).quiet = (s.reserved rest i).quiet := by
        unfold readiedNode
        rw [endSession_quiet]
        unfold cancelStep
        rw [mapRuntime_quiet, mapRuntime_quiet]
      generalize readiedNode a (s.reserved rest i) = v at hmoves honly hself hothers hquiet
      have hdoubted := enterProbeOrSuspect_doubted a v
      have hsuspect : (v.gapInProgress && v.isFed a) = suspect := by obtain ⟨_, _, rfl⟩ := honly; rfl
      have hqueues : ∀ n, v.queue n = s.queue n := honly.queue
      have hgap : v.gap = s.gap := by obtain ⟨_, _, rfl⟩ := honly; rfl
      have hsame : ∀ n, n ≠ a → (enterProbeOrSuspect a v).nodeState n = s.nodeState n
          ∧ (enterProbeOrSuspect a v).queue n = s.queue n := fun n hn => by
        refine ⟨Eq.trans ?_ (hothers n hn).nodeState, ((hdoubted.queues n).2 (by simpa using hn)).trans (hqueues n)⟩
        unfold State.nodeState
        rw [hdoubted.others n hn]
      have hkept := done_kept (k := .restoreNode) (tag := tag) (args := [b])
        ((enterProbeOrSuspect_quiet v a).trans hquiet) (by rw [← hgap]; exact hdoubted.gap) hsame
      refine ⟨_, hmoves, hkept, ?_⟩
      refine ⟨?_, ?_, ?_, State.Shows.endCommand (shows_enqueue hi _ _)⟩ <;> rw [endCommand_transmit]
      · refine (hdoubted.record _ (hself r hr)).trans ?_
        rw [hsuspect, forgetBoot_forgets hforgotten]
        unfold doubtedRecord
        have hcount : ({ r with bootCount := none, expected := none, step := r.step.cancel, session := none } : Runtime).countOnDoubt
            = none := by unfold Runtime.countOnDoubt; split <;> rfl
        rw [hcount]
        dsimp only
        rw [StepCondition.cancel_cancel, StepCondition.offer_cancel_eq, StepCondition.cancel_eq]
        cases suspect <;> rfl
      · obtain ⟨q, hq⟩ := (hdoubted.queues a).1
        exact ⟨q, hq.trans (by rw [hqueues])⟩
      · exact fun hs => hdoubted.joins (hsuspect.trans hs) (isAddress_of_runtime hr)

end Sys2Proof.Machine
end

section
/-! SUPPORT. How sessions, block buffers, the waiting list, pending reads and readers counts name one another (R144 to R149,
R159, R163, R169), while one node or one buffer is being served. -/

namespace Sys2Proof.Machine

/-! ### The agreement -/

/-- What a session says of the buffer it holds or waits for is so (R148). -/
def Session.Held (x : Session) (v : Vector Buffer 4) (a : Nat) : Prop :=
  match x.buffer, x.request with
  | some b, .reading => v[b]? = some (.reading a)
  | some b, .filled => ∃ data, v[b]? = some (.filled a data)
  | none, .waitingList | none, .none => True
  | _, _ => False

/-- Buffer `b` is READING or FILLED for node `a`. -/
def Engaged (v : Vector Buffer 4) (b a : Nat) : Prop :=
  v[b]? = some (.reading a) ∨ ∃ data, v[b]? = some (.filled a data)

/-- Buffer `b` is READING or DRAINING. -/
def Busy (v : Vector Buffer 4) (b : Nat) : Prop := (∃ a, v[b]? = some (.reading a)) ∨ v[b]? = some .draining

/-- The readers count of a catalogue place, 0 for an empty one. -/
def State.readersAt (s : State) (i : Nat) : Nat := match s.place i with | some e => e.readers | none => 0

/-- The number of sessions that name a catalogue place. -/
def State.sessionsOf (s : State) (i : Nat) : Nat :=
  (addresses.filter (fun a => (s.session a).any (fun x => x.entry == i))).length

/-- The agreement of R148, R169 and R145, but for the nodes of `o` and the buffers of `p`, which are being served. While the
waiting list is being given up (`w` false) a session may say that it waits and not be on the list. -/
structure Linked (w : Prop) (o p : Set Nat) (s : State) : Prop where
  nodup : s.restore.waiting.Nodup
  full : s.restore.waiting ≠ [] → ∀ b, b ∉ p → s.restore.buffers[b]? ≠ some .free
  listed : ∀ a ∈ s.restore.waiting, a ∉ o ∧ ∃ x, s.session a = some x ∧ x.request = .waitingList
  waits : w → ∀ a x, a ∉ o → s.session a = some x → x.request = .waitingList → a ∈ s.restore.waiting
  holds : ∀ a x, a ∉ o → s.session a = some x → x.Held s.restore.buffers a ∧ ∀ b ∈ p, x.buffer ≠ some b
  held : ∀ b a, b ∉ p → Engaged s.restore.buffers b a → a ∉ o ∧ ∃ x, s.session a = some x ∧ x.buffer = some b
  reads : s.readBuffers.Nodup
  read : ∀ b, b ∉ p → (b ∈ s.readBuffers ↔ Busy s.restore.buffers b)
  unread : ∀ b ∈ p, b ∉ s.readBuffers ∧ b < 4
  readers : ∀ i, s.readersAt i = s.sessionsOf i
  dropping : ∀ i e, s.store.progress = some (.dropping i e) → s.place i = none

/-- A runtime record agrees with its session and its step (R39, R144, R149). -/
def RecordSound (r : Runtime) : Prop :=
  (r.session ≠ none ↔ r.state = .image) ∧ (∀ k, r.step.offered = some k → r.state ∈ k.offeredIn)
    ∧ ∀ x, r.session = some x → x.Fits r.step

/-- The agreement, and sound records of the nodes that are not being served. -/
structure Sound (w : Prop) (o p : Set Nat) (s : State) : Prop where
  linked : Linked w o p s
  records : ∀ a r, a ∉ o → s.runtime a = some r → RecordSound r

theorem transfersSound_iff (s : State) : s.TransfersSound ↔ s.RuntimesSound ∧ Sound True ∅ ∅ s := by
  constructor
  · rintro ⟨hruntimes, hsessions, ⟨hnodup, hfull, hlist, hholds, hheld⟩, ⟨hreads, hread⟩, hreaders, hdropping⟩
    refine ⟨hruntimes, ⟨hnodup, fun hw b _ => hfull hw b, fun a ha => ⟨id, (hlist a).1 ha⟩,
      fun _ a x _ hx hwait => (hlist a).2 ⟨x, hx, hwait⟩, fun a x _ hx => ⟨hholds a x hx, fun _ hb => nomatch hb⟩,
      fun b a _ h => ⟨id, hheld b a h⟩, hreads, fun b _ => hread b, fun _ hb => (nomatch hb), hreaders, hdropping⟩,
      fun a r _ hr => hsessions a r hr⟩
  · rintro ⟨hruntimes, hlinked, hrecords⟩
    exact ⟨hruntimes, fun a r hr => hrecords a r id hr,
      ⟨hlinked.nodup, fun hw b => hlinked.full hw b id,
        fun a => ⟨fun ha => (hlinked.listed a ha).2, fun ⟨x, hx, hwait⟩ => hlinked.waits trivial a x id hx hwait⟩,
        fun a x hx => (hlinked.holds a x id hx).1, fun b a h => (hlinked.held b a id h).2⟩,
      ⟨hlinked.reads, fun b => hlinked.read b id⟩, hlinked.readers, hlinked.dropping⟩

/-! ### States that agree in what the agreement speaks of -/

theorem session_congr {s t : State} {a : Nat} (h : t.runtime a = s.runtime a) : t.session a = s.session a := by
  unfold State.session; rw [h]

/-- What links a session to buffers, lists and places. -/
def Session.link (x : Session) : Nat × Option Nat × BufferRequest := (x.entry, x.buffer, x.request)

theorem held_of_link {x y : Session} (h : x.link = y.link) {v : Vector Buffer 4} {a : Nat} : x.Held v a ↔ y.Held v a := by
  unfold Session.link at h
  obtain ⟨-, hb, hr⟩ := Prod.mk.inj h |>.imp_right Prod.mk.inj
  unfold Session.Held
  rw [hb, hr]

theorem sessionsOf_congr {s t : State} (h : ∀ a, (t.session a).map (·.entry) = (s.session a).map (·.entry)) (i : Nat) :
    t.sessionsOf i = s.sessionsOf i := by
  unfold State.sessionsOf
  refine congrArg List.length (List.filter_congr fun a _ => ?_)
  have hany : ∀ y : Option Session, y.any (fun x => x.entry == i) = (y.map (·.entry)).any (· == i) := fun y => by
    cases y <;> rfl
  rw [hany, hany, h]

/-- The agreement reads the links of the sessions that are not being served, the entry of each session, the buffers and the
waiting list, the read list, the readers counts and an IMAGE DROP in progress. -/
theorem Linked.congr {w : Prop} {o p : Set Nat} {s t : State} (h : Linked w o p s)
    (hlink : ∀ a, a ∉ o → (t.session a).map (·.link) = (s.session a).map (·.link))
    (hentry : ∀ a, (t.session a).map (·.entry) = (s.session a).map (·.entry))
    (hwaiting : t.restore.waiting = s.restore.waiting)
    (hbuffers : t.restore.buffers = s.restore.buffers) (hreads : t.readBuffers = s.readBuffers)
    (hreaders : ∀ i, t.readersAt i = s.readersAt i)
    (hdropping : ∀ i e, t.store.progress = some (.dropping i e) → t.place i = none) : Linked w o p t := by
  have hto : ∀ a x, a ∉ o → t.session a = some x → ∃ y, s.session a = some y ∧ y.link = x.link := fun a x ha hx => by
    have hsame := hlink a ha
    rw [hx] at hsame
    exact Option.map_eq_some_iff.1 hsame.symm
  have hfrom : ∀ a y, a ∉ o → s.session a = some y → ∃ x, t.session a = some x ∧ x.link = y.link := fun a y ha hy => by
    have hsame := hlink a ha
    rw [hy] at hsame
    exact Option.map_eq_some_iff.1 hsame
  have hbuffer : ∀ {x y : Session}, x.link = y.link → x.buffer = y.buffer := fun h => congrArg (·.2.1) h
  have hrequest : ∀ {x y : Session}, x.link = y.link → x.request = y.request := fun h => congrArg (·.2.2) h
  constructor
  case nodup => rw [hwaiting]; exact h.nodup
  case full => rw [hwaiting, hbuffers]; exact h.full
  case listed =>
    rw [hwaiting]
    intro a ha
    obtain ⟨ho, y, hy, hwait⟩ := h.listed a ha
    obtain ⟨x, hx, hsame⟩ := hfrom a y ho hy
    exact ⟨ho, x, hx, (hrequest hsame).trans hwait⟩
  case waits =>
    rw [hwaiting]
    intro hw a x ho hx hwait
    obtain ⟨y, hy, hsame⟩ := hto a x ho hx
    exact h.waits hw a y ho hy ((hrequest hsame).trans hwait)
  case holds =>
    rw [hbuffers]
    intro a x ho hx
    obtain ⟨y, hy, hsame⟩ := hto a x ho hx
    obtain ⟨hheld, hp⟩ := h.holds a y ho hy
    exact ⟨(held_of_link hsame).1 hheld, fun b hb => hbuffer hsame ▸ hp b hb⟩
  case held =>
    rw [hbuffers]
    intro b a hb hengaged
    obtain ⟨ho, y, hy, hbuf⟩ := h.held b a hb hengaged
    obtain ⟨x, hx, hsame⟩ := hfrom a y ho hy
    exact ⟨ho, x, hx, (hbuffer hsame).trans hbuf⟩
  case reads => rw [hreads]; exact h.reads
  case read => rw [hreads, hbuffers]; exact h.read
  case unread => rw [hreads]; exact h.unread
  case readers => intro i; rw [hreaders, h.readers]; exact (sessionsOf_congr hentry i).symm
  case dropping => exact hdropping

theorem readersAt_congr {s t : State} (h : t.store.catalogue = s.store.catalogue) (i : Nat) :
    t.readersAt i = s.readersAt i := by
  unfold State.readersAt
  rw [place_congr h]

/-- Operations that touch neither the Restore Engine nor the Image Store. -/
theorem Sound.of_restore {w : Prop} {o p : Set Nat} {s t : State} (h : Sound w o p s) (hrestore : t.restore = s.restore)
    (hstore : t.store = s.store) : Sound w o p t := by
  have hruntime : ∀ a, t.runtime a = s.runtime a := fun a => by unfold State.runtime; rw [hrestore]
  refine ⟨h.linked.congr (fun a _ => by rw [session_congr (hruntime a)]) (fun a => by rw [session_congr (hruntime a)])
    (by rw [hrestore]) (by rw [hrestore])
    (by unfold State.readBuffers; rw [hstore]) (readersAt_congr (by rw [hstore])) ?_,
    fun a r ha hr => h.records a r ha ((hruntime a).symm.trans hr)⟩
  rw [hstore]
  intro i e he
  rw [place_of_store hstore]
  exact h.linked.dropping i e he

/-! ### One record changes -/

theorem buffers_mapRuntime (s : State) (a : Nat) (f : Runtime → Runtime) :
    (s.mapRuntime a f).restore.buffers = s.restore.buffers := by
  unfold State.mapRuntime
  split <;> rfl

theorem readBuffers_congr {s t : State} (h : t.store = s.store) : t.readBuffers = s.readBuffers := by
  unfold State.readBuffers; rw [h]

theorem session_mapRuntime_other (s : State) {a b : Nat} (hb : b ≠ a) (f : Runtime → Runtime) :
    (s.mapRuntime a f).session b = s.session b := session_congr (runtime_mapRuntime_other s hb f)

/-- A record changes: in what the agreement does not speak of, or, of a node that is being served, not in its entry. -/
theorem Sound.mapRuntime {w : Prop} {o p : Set Nat} {s : State} (h : Sound w o p s) {a : Nat} {f : Runtime → Runtime}
    (hlink : a ∉ o → ∀ r, s.runtime a = some r → (f r).session.map (·.link) = r.session.map (·.link))
    (hentry : ∀ r, s.runtime a = some r → (f r).session.map (·.entry) = r.session.map (·.entry))
    (hrecord : a ∉ o → ∀ r, s.runtime a = some r → RecordSound r → RecordSound (f r)) :
    Sound w o p (s.mapRuntime a f) := by
  have hstore := store_mapRuntime s a f
  have hat : ∀ {α : Type} (g : Session → α) (b : Nat),
      (b = a → ∀ r, s.runtime a = some r → (f r).session.map g = r.session.map g) →
      ((s.mapRuntime a f).session b).map g = (s.session b).map g := fun g b hg => by
    by_cases hb : b = a
    · subst hb
      cases hr : s.runtime b with
      | none => rw [mapRuntime_of_none hr]
      | some r => rw [session_of_runtime (runtime_mapRuntime_same hr f), session_of_runtime hr, hg rfl r hr]
    · rw [session_mapRuntime_other s hb]
  refine ⟨h.linked.congr (fun b hb => hat _ b fun heq => hlink (heq ▸ hb)) (fun b => hat _ b fun _ => hentry)
    (waiting_mapRuntime ..) (buffers_mapRuntime ..) (readBuffers_congr hstore)
    (readersAt_congr (by rw [hstore])) ?_, fun b r hb hr => ?_⟩
  · rw [hstore]
    intro i e he
    rw [place_of_store hstore]
    exact h.linked.dropping i e he
  · by_cases hba : b = a
    · subst hba
      cases hv : s.runtime b with
      | none => rw [mapRuntime_of_none hv, hv] at hr; cases hr
      | some v =>
        rw [runtime_mapRuntime_same hv f] at hr
        cases hr
        exact hrecord hb v hv (h.records b v hb hv)
    · exact h.records b r hb ((runtime_mapRuntime_other s hba f).symm.trans hr)

/-- A record keeps its session's links. -/
theorem Sound.mapLinked {w : Prop} {o p : Set Nat} {s : State} (h : Sound w o p s) {a : Nat} {f : Runtime → Runtime}
    (hlink : ∀ r, s.runtime a = some r → (f r).session.map (·.link) = r.session.map (·.link))
    (hrecord : a ∉ o → ∀ r, s.runtime a = some r → RecordSound r → RecordSound (f r)) :
    Sound w o p (s.mapRuntime a f) := by
  refine h.mapRuntime (fun _ => hlink) (fun r hr => ?_) hrecord
  have hentry : ∀ y : Option Session, y.map (·.entry) = (y.map (·.link)).map (·.1) := fun y => by cases y <;> rfl
  rw [hentry, hentry, hlink r hr]

/-- A node whose session, if it has one, holds no buffer and waits for none. -/
def Unheld (s : State) (a : Nat) : Prop := ∀ x, s.session a = some x → x.buffer = none ∧ x.request = .none

theorem unheld_of_none {s : State} {a : Nat} (h : s.session a = none) : Unheld s a := fun x hx => by
  rw [h] at hx; cases hx

/-- A node that holds no buffer and waits for none is taken out, to be served. -/
theorem Sound.exempt {w : Prop} {o p : Set Nat} {s : State} (h : Sound w o p s) {a : Nat} (ha : Unheld s a) :
    Sound w (insert a o) p s := by
  have hout : ∀ {b}, b ∉ insert a o → b ∉ o := fun hb ho => hb (Set.mem_insert_of_mem a ho)
  refine ⟨⟨h.linked.nodup, h.linked.full, fun b hb => ?_, fun hw b x hb => h.linked.waits hw b x (hout hb),
    fun b x hb => h.linked.holds b x (hout hb), fun b c hb hengaged => ?_, h.linked.reads, h.linked.read, h.linked.unread,
    h.linked.readers, h.linked.dropping⟩, fun b r hb => h.records b r (hout hb)⟩
  · obtain ⟨ho, x, hx, hwait⟩ := h.linked.listed b hb
    refine ⟨fun hmem => (Set.mem_insert_iff.1 hmem).elim (fun heq => ?_) ho, x, hx, hwait⟩
    subst heq
    rw [(ha x hx).2] at hwait
    cases hwait
  · obtain ⟨ho, x, hx, hbuffer⟩ := h.linked.held b c hb hengaged
    refine ⟨fun hmem => (Set.mem_insert_iff.1 hmem).elim (fun heq => ?_) ho, x, hx, hbuffer⟩
    subst heq
    rw [(ha x hx).1] at hbuffer
    cases hbuffer

/-- A node that was taken out is in order again. -/
theorem Sound.restored {w : Prop} {o p : Set Nat} {s : State} {a : Nat} (h : Sound w (insert a o) p s) (ha : Unheld s a)
    (hrecord : ∀ r, s.runtime a = some r → RecordSound r) : Sound w o p s := by
  have hin : ∀ {b}, b ≠ a → b ∉ o → b ∉ insert a o := fun hb ho hmem =>
    (Set.mem_insert_iff.1 hmem).elim hb ho
  have hout : ∀ {b}, b ∉ insert a o → b ∉ o := fun hb ho => hb (Set.mem_insert_of_mem a ho)
  refine ⟨⟨h.linked.nodup, h.linked.full, fun b hb => ?_, fun hw b x hb hx hwait => ?_, fun b x hb hx => ?_,
    fun b c hb hengaged => ?_, h.linked.reads, h.linked.read, h.linked.unread, h.linked.readers, h.linked.dropping⟩,
    fun b r hb hr => ?_⟩
  · exact ⟨hout (h.linked.listed b hb).1, (h.linked.listed b hb).2⟩
  · by_cases hba : b = a
    · subst hba
      rw [(ha x hx).2] at hwait
      cases hwait
    · exact h.linked.waits hw b x (hin hba hb) hx hwait
  · by_cases hba : b = a
    · subst hba
      obtain ⟨hbuffer, hrequest⟩ := ha x hx
      refine ⟨?_, fun c _ => by rw [hbuffer]; exact nofun⟩
      unfold Session.Held
      rw [hbuffer, hrequest]
      trivial
    · exact h.linked.holds b x (hin hba hb) hx
  · exact ⟨hout (h.linked.held b c hb hengaged).1, (h.linked.held b c hb hengaged).2⟩
  · by_cases hba : b = a
    · subst hba; exact hrecord r hr
    · exact h.records b r (hin hba hb) hr

/-- The record of a node taken out becomes sound, its session in agreement with no buffer and no list. -/
theorem Sound.settle {w : Prop} {o p : Set Nat} {s : State} {a : Nat} {f : Runtime → Runtime} (h : Sound w (insert a o) p s)
    (hidle : s.session a = none) (hf : ∀ r, s.runtime a = some r → r.session = none → (f r).session = none ∧ RecordSound (f r)) :
    Sound w o p (s.mapRuntime a f) := by
  have hrecord : ∀ r, s.runtime a = some r → (f r).session = none ∧ RecordSound (f r) := fun r hr =>
    hf r hr ((session_of_runtime hr).symm.trans hidle)
  have hmapped := h.mapLinked (a := a) (f := f)
    (fun r hr => by rw [(hrecord r hr).1, (session_of_runtime hr).symm.trans hidle]) fun ha => absurd (Set.mem_insert a o) ha
  cases hr : s.runtime a with
  | none =>
    rw [mapRuntime_of_none hr] at hmapped ⊢
    exact hmapped.restored (unheld_of_none hidle) fun r hr' => by rw [hr] at hr'; cases hr'
  | some r =>
    have hnew := runtime_mapRuntime_same hr f
    refine hmapped.restored (unheld_of_none ((session_of_runtime hnew).trans (hrecord r hr).1)) fun v hv => ?_
    rw [hnew] at hv
    cases hv
    exact (hrecord r hr).2

/-! ### A read is asked for (R148, R149, R169) -/

theorem readBuffers_chooseAccess (s : State) : (chooseAccess s).readBuffers = s.readBuffers := by
  unfold chooseAccess
  cases haccess : s.store.access with
  | some x => rfl
  | none =>
    cases hreads : s.store.reads with
    | cons r rest =>
      unfold State.readBuffers
      rw [haccess, hreads]
      rfl
    | nil =>
      unfold State.readBuffers
      cases hprogress : s.store.progress with
      | some x => dsimp only; rw [haccess]; rfl
      | none => rfl

theorem readBuffers_requestRead (q : ReadRequest) (s : State) :
    (requestRead q s).readBuffers = s.readBuffers ++ [q.buffer] := by
  unfold requestRead
  rw [readBuffers_chooseAccess]
  show (match s.store.access with | some (.read r) => [r.buffer] | _ => []) ++ (s.store.reads ++ [q]).map (·.buffer) = _
  rw [List.map_append, ← List.append_assoc]
  rfl

theorem readPending_iff (s : State) (b : Nat) : s.readPending b = true ↔ b ∈ s.readBuffers := by
  unfold State.readPending State.readBuffers
  rw [List.mem_append, Bool.or_eq_true, List.any_eq_true, List.mem_map]
  refine or_comm.trans (or_congr ?_ ?_)
  · cases s.store.access with
    | none => simp
    | some x =>
      cases x with
      | operation => simp
      | read q => simpa using eq_comm
  · simp

theorem progress_requestRead (q : ReadRequest) (s : State) : (requestRead q s).store.progress = s.store.progress := by
  obtain ⟨c, r, a, h⟩ := (requestRead_kept q s).frame
  rw [h]

theorem startRead_links {s : State} {m b : Nat} {y : Session} (hy : s.session m = some y) :
    (startRead m b s).readBuffers = s.readBuffers ++ [b] ∧ (startRead m b s).store.progress = s.store.progress
      ∧ (startRead m b s).store.catalogue = s.store.catalogue := by
  have hcatalogue := (startRead_cases m b s).1.catalogue
  refine ⟨?_, ?_, hcatalogue⟩
  · unfold startRead
    rw [hy]
    dsimp only
    rw [readBuffers_requestRead]
    exact congrArg (· ++ [b]) (readBuffers_congr (store_mapRuntime s m _))
  · unfold startRead
    rw [hy]
    dsimp only
    rw [progress_requestRead]
    exact congrArg (·.progress) (store_mapRuntime s m _)

/-- The record of a session in IMAGE that reads or waits to: its step waits. -/
theorem recordSound_wait {r : Runtime} {y : Session} (hstate : r.state = .image) (hpoll : y.pollTime = none) :
    RecordSound { r with step := r.step.wait, session := some y } := by
  have hoffered : r.step.wait.offered = none := by cases r.step <;> rfl
  have hflight : ∀ k, r.step.wait ≠ .inFlight k := fun k => by cases r.step <;> nofun
  refine ⟨⟨fun _ => hstate, fun _ => nofun⟩, fun k hk => ?_, fun x hx => ?_⟩
  · rw [hoffered] at hk
    cases hk
  · cases hx
    refine ⟨fun h => ?_, fun h => ?_, fun h => absurd h (hflight _), fun h => absurd h (hflight _), fun h => ?_, fun _ => hpoll⟩
    all_goals rw [hoffered] at h
    · cases h
    · cases h
    · exact h.elim nofun fun h => absurd hpoll h

/-- A session that is being served takes the buffer that is being served. -/
theorem Sound.startRead {w : Prop} {o p : Set Nat} {s : State} {m b : Nat} {r : Runtime} {y : Session}
    (h : Sound w (insert m o) (insert b p) s) (hm : m ∉ o) (hb : b ∉ p) (hr : s.runtime m = some r) (hy : r.session = some y)
    (hstate : r.state = .image) (hpoll : y.pollTime = none) : Sound w o p (Machine.startRead m b s) := by
  have hsession := (session_of_runtime hr).trans hy
  obtain ⟨hwaiting, hbuffers, hnew, -⟩ := startRead_spec hsession b
  obtain ⟨hreads, hprogress, hcatalogue⟩ := startRead_links (b := b) hsession
  obtain ⟨-, hothers, hself⟩ := startRead_cases m b s
  have hrecord := hself r y hr hy
  generalize Machine.startRead m b s = t at *
  have hl := h.linked
  have hlt := (hl.unread b (Set.mem_insert b p)).2
  have hbuffer : ∀ c : Nat, t.restore.buffers[c]? = if b = c then some (.reading m) else s.restore.buffers[c]? := fun c => by
    rw [hbuffers, Vector.getElem?_setIfInBounds]
    by_cases hbc : b = c
    · rw [if_pos hbc, if_pos hbc, if_pos (hbc ▸ hlt)]
    · rw [if_neg hbc, if_neg hbc]
  have hin : ∀ {c}, c ≠ b → c ∉ p → c ∉ insert b p := fun hc hp hmem => (Set.mem_insert_iff.1 hmem).elim hc hp
  have hout : ∀ {a}, a ≠ m → a ∉ o → a ∉ insert m o := fun ha ho hmem => (Set.mem_insert_iff.1 hmem).elim ha ho
  have hne : ∀ {a}, a ∉ insert m o → a ≠ m ∧ a ∉ o := fun ha =>
    ⟨fun heq => ha (heq ▸ Set.mem_insert _ o), fun ho => ha (Set.mem_insert_of_mem m ho)⟩
  have hplace : ∀ i, t.place i = s.place i := place_congr hcatalogue
  refine ⟨?_, fun a v ha hv => ?_⟩
  · constructor
    case nodup => rw [hwaiting]; exact hl.nodup
    case full =>
      rw [hwaiting]
      intro hw c hc
      rw [hbuffer]
      split
      · nofun
      · next hbc => exact hl.full hw c (hin (Ne.symm hbc) hc)
    case listed =>
      rw [hwaiting]
      intro a ha
      obtain ⟨ho, x, hx, hwait⟩ := hl.listed a ha
      obtain ⟨ham, hao⟩ := hne ho
      exact ⟨hao, x, (session_congr (hothers a ham)).trans hx, hwait⟩
    case waits =>
      rw [hwaiting]
      intro hw a x ha hx hwait
      by_cases ham : a = m
      · subst ham
        rw [hnew] at hx
        cases hx
        cases hwait
      · exact hl.waits hw a x (hout ham ha) ((session_congr (hothers a ham)).symm.trans hx) hwait
    case holds =>
      intro a x ha hx
      by_cases ham : a = m
      · subst ham
        rw [hnew] at hx
        cases hx
        exact ⟨(hbuffer b).trans (if_pos rfl), fun c hc heq => hb (by cases heq; exact hc)⟩
      · rw [session_congr (hothers a ham)] at hx
        obtain ⟨hheld, havoid⟩ := hl.holds a x (hout ham ha) hx
        refine ⟨?_, fun c hc => havoid c (Set.mem_insert_of_mem b hc)⟩
        unfold Session.Held at hheld ⊢
        split at hheld
        · next c hc _ =>
          rw [hbuffer, if_neg (show ¬ b = c from fun hbc => havoid b (Set.mem_insert b p) (hbc ▸ hc))]
          exact hheld
        · next c hc _ =>
          rw [hbuffer, if_neg (show ¬ b = c from fun hbc => havoid b (Set.mem_insert b p) (hbc ▸ hc))]
          exact hheld
        · trivial
        · trivial
        · exact hheld
    case held =>
      intro c a hc hengaged
      unfold Engaged at hengaged
      rw [hbuffer] at hengaged
      by_cases hbc : b = c
      · rw [if_pos hbc] at hengaged
        have ham : a = m := by
          rcases hengaged with h | ⟨_, h⟩ <;> cases h
          rfl
        subst ham
        exact ⟨hm, _, hnew, congrArg some hbc⟩
      · rw [if_neg hbc] at hengaged
        obtain ⟨ho, x, hx, hxb⟩ := hl.held c a (hin (Ne.symm hbc) hc) hengaged
        obtain ⟨ham, hao⟩ := hne ho
        exact ⟨hao, x, (session_congr (hothers a ham)).trans hx, hxb⟩
    case reads =>
      rw [hreads]
      exact List.nodup_append.2 ⟨hl.reads, List.nodup_singleton b, fun c hc d hd => by
        rw [List.mem_singleton] at hd
        rintro rfl
        exact (hl.unread b (Set.mem_insert b p)).1 (hd ▸ hc)⟩
    case read =>
      intro c hc
      rw [hreads, List.mem_append, List.mem_singleton]
      unfold Busy
      rw [hbuffer]
      by_cases hbc : b = c
      · rw [if_pos hbc]
        exact ⟨fun _ => .inl ⟨m, rfl⟩, fun _ => .inr hbc.symm⟩
      · rw [if_neg hbc]
        exact ⟨fun h => (hl.read c (hin (Ne.symm hbc) hc)).1 (h.resolve_right (Ne.symm hbc)),
          fun h => .inl ((hl.read c (hin (Ne.symm hbc) hc)).2 h)⟩
    case unread =>
      intro c hc
      rw [hreads, List.mem_append, List.mem_singleton]
      obtain ⟨hnot, hclt⟩ := hl.unread c (Set.mem_insert_of_mem b hc)
      exact ⟨fun h => h.elim hnot fun heq => hb (heq ▸ hc), hclt⟩
    case readers =>
      intro i
      rw [readersAt_congr hcatalogue, hl.readers]
      refine (sessionsOf_congr (fun a => ?_) i).symm
      by_cases ham : a = m
      · subst ham
        rw [hnew, hsession]
        rfl
      · rw [session_congr (hothers a ham)]
    case dropping =>
      rw [hprogress]
      intro i e he
      rw [hplace]
      exact hl.dropping i e he
  · by_cases ham : a = m
    · subst ham
      rw [hrecord] at hv
      cases hv
      exact recordSound_wait hstate hpoll
    · exact h.records a v (hout ham ha) ((hothers a ham).symm.trans hv)

/-! ### A buffer falls FREE (R148) -/

theorem getElem?_setIfInBounds_ne {v : Vector Buffer 4} {b c : Nat} (hbc : c ≠ b) (x : Buffer) :
    (v.setIfInBounds b x)[c]? = v[c]? := by rw [Vector.getElem?_setIfInBounds, if_neg (Ne.symm hbc)]

theorem engaged_ne {v : Vector Buffer 4} {b c a : Nat} (hbc : c ≠ b) (x : Buffer) :
    Engaged (v.setIfInBounds b x) c a ↔ Engaged v c a := by
  unfold Engaged; rw [getElem?_setIfInBounds_ne hbc]

theorem busy_ne {v : Vector Buffer 4} {b c : Nat} (hbc : c ≠ b) (x : Buffer) : Busy (v.setIfInBounds b x) c ↔ Busy v c := by
  unfold Busy; rw [getElem?_setIfInBounds_ne hbc]

/-- A session agrees with the buffers as long as its own buffer stays. -/
theorem held_setIfInBounds {x : Session} {v : Vector Buffer 4} {a b : Nat} (hb : x.buffer ≠ some b) (y : Buffer) :
    x.Held (v.setIfInBounds b y) a ↔ x.Held v a := by
  unfold Session.Held
  cases hbuffer : x.buffer with
  | none => cases x.request <;> exact Iff.rfl
  | some c =>
    have hsame := getElem?_setIfInBounds_ne (v := v) (fun heq => hb (heq ▸ hbuffer) : c ≠ b) y
    cases x.request with
    | none | waitingList => exact Iff.rfl
    | reading | filled => dsimp only; rw [hsame]

/-- A session that holds a buffer has it engaged, and does not wait. -/
theorem engaged_of_held {x : Session} {v : Vector Buffer 4} {a b : Nat} (h : x.Held v a) (hb : x.buffer = some b) :
    Engaged v b a ∧ x.request ≠ .waitingList := by
  unfold Session.Held at h
  rw [hb] at h
  cases hrequest : x.request <;> rw [hrequest] at h
  · exact h.elim
  · exact h.elim
  · exact ⟨.inl h, nofun⟩
  · exact ⟨.inr h, nofun⟩

theorem engaged_inj {v : Vector Buffer 4} {b a c : Nat} (h : Engaged v b a) (g : Engaged v b c) : a = c := by
  rcases h with h | ⟨_, h⟩ <;> rcases g with g | ⟨_, g⟩ <;> rw [h] at g <;> cases g <;> rfl

theorem not_busy_of_filled {v : Vector Buffer 4} {b a : Nat} {data : List Byte} (h : v[b]? = some (.filled a data)) :
    ¬ Busy v b := by
  rintro (⟨_, g⟩ | g) <;> rw [h] at g <;> cases g

section
variable {w : Prop} {o p : Set Nat} {s : State} {a b : Nat}

/-- A buffer that is being served may hold anything. -/
theorem Sound.setServed (h : Sound w o (insert b p) s) (x : Buffer) : Sound w o (insert b p) (s.setBuffer b x) := by
  have hne : ∀ {c}, c ∉ insert b p → c ≠ b := fun hc heq => hc (heq ▸ Set.mem_insert _ p)
  refine ⟨⟨h.linked.nodup, fun hw c hc => ?_, h.linked.listed, h.linked.waits, fun n y hn hy => ?_, fun c n hc hengaged => ?_,
    h.linked.reads, fun c hc => ?_, h.linked.unread, h.linked.readers, h.linked.dropping⟩, h.records⟩
  · show (s.restore.buffers.setIfInBounds b x)[c]? ≠ _
    rw [getElem?_setIfInBounds_ne (hne hc)]
    exact h.linked.full hw c hc
  · obtain ⟨hheld, havoid⟩ := h.linked.holds n y hn hy
    exact ⟨(held_setIfInBounds (havoid b (Set.mem_insert b p)) x).2 hheld, havoid⟩
  · exact h.linked.held c n hc ((engaged_ne (hne hc) x).1 hengaged)
  · exact (h.linked.read c hc).trans (busy_ne (hne hc) x).symm

/-- A FREE buffer needs no service while nothing waits. -/
theorem Sound.fallFree (h : Sound w o (insert b p) s) (hwaiting : s.restore.waiting = [])
    (hfree : s.restore.buffers[b]? = some .free) : Sound w o p s := by
  have hin : ∀ {c}, c ≠ b → c ∉ p → c ∉ insert b p := fun hc hp hmem => (Set.mem_insert_iff.1 hmem).elim hc hp
  refine ⟨⟨h.linked.nodup, fun hw => absurd hwaiting hw, h.linked.listed, h.linked.waits, fun n y hn hy => ?_,
    fun c n hc hengaged => ?_, h.linked.reads, fun c hc => ?_, fun c hc => h.linked.unread c (Set.mem_insert_of_mem b hc),
    h.linked.readers, h.linked.dropping⟩, h.records⟩
  · obtain ⟨hheld, havoid⟩ := h.linked.holds n y hn hy
    exact ⟨hheld, fun c hc => havoid c (Set.mem_insert_of_mem b hc)⟩
  · by_cases hcb : c = b
    · subst hcb
      rcases hengaged with g | ⟨_, g⟩ <;> rw [hfree] at g <;> cases g
    · exact h.linked.held c n (hin hcb hc) hengaged
  · by_cases hcb : c = b
    · subst hcb
      refine ⟨fun hmem => absurd hmem (h.linked.unread c (Set.mem_insert c p)).1, ?_⟩
      rintro (⟨_, g⟩ | g) <;> rw [hfree] at g <;> cases g
    · exact h.linked.read c (hin hcb hc)

/-- The head of the waiting list leaves it, to be served. -/
theorem Sound.popWaiting {rest : List Nat} (h : Sound w o p s) (hwaiting : s.restore.waiting = a :: rest) :
    Sound w (insert a o) p (s.withRestore { s.restore with waiting := rest }) := by
  have hnodup := h.linked.nodup
  rw [hwaiting] at hnodup
  obtain ⟨hnot, hnodup⟩ := List.nodup_cons.1 hnodup
  have hout : ∀ {n}, n ∉ insert a o → n ≠ a ∧ n ∉ o := fun hn =>
    ⟨fun heq => hn (heq ▸ Set.mem_insert _ o), fun ho => hn (Set.mem_insert_of_mem a ho)⟩
  have hin : ∀ {n}, n ≠ a → n ∉ o → n ∉ insert a o := fun hn ho hmem => (Set.mem_insert_iff.1 hmem).elim hn ho
  refine ⟨⟨hnodup, fun _ => h.linked.full (by rw [hwaiting]; exact List.cons_ne_nil a rest), fun n hn => ?_,
    fun hw n y hn hy hwait => ?_, fun n y hn => h.linked.holds n y (hout hn).2, fun c n hc hengaged => ?_,
    h.linked.reads, h.linked.read, h.linked.unread, h.linked.readers, h.linked.dropping⟩,
    fun n r hn => h.records n r (hout hn).2⟩
  · obtain ⟨ho, y, hy⟩ := h.linked.listed n (by rw [hwaiting]; exact List.mem_cons_of_mem a hn)
    exact ⟨hin (fun heq => hnot (heq ▸ hn)) ho, y, hy⟩
  · have hmem := h.linked.waits hw n y (hout hn).2 hy hwait
    rw [hwaiting] at hmem
    exact (List.mem_cons.1 hmem).resolve_left (hout hn).1
  · obtain ⟨ho, y, hy, hbuffer⟩ := h.linked.held c n hc hengaged
    refine ⟨hin (fun heq => ?_) ho, y, hy, hbuffer⟩
    subst heq
    obtain ⟨hno, z, hz, hwait⟩ := h.linked.listed n (by rw [hwaiting]; exact List.mem_cons_self ..)
    cases hy.symm.trans hz
    exact (engaged_of_held (h.linked.holds n y hno hy).1 hbuffer).2 hwait

/-- A session in IMAGE is one whose record is sound. -/
theorem image_of_session {n : Nat} {y : Session} (h : Sound w o p s) (hn : n ∉ o) (hy : s.session n = some y) :
    ∃ r, s.runtime n = some r ∧ r.session = some y ∧ r.state = .image ∧ y.Fits r.step := by
  cases hr : s.runtime n with
  | none => unfold State.session at hy; rw [hr] at hy; cases hy
  | some r =>
    have hsession := (session_of_runtime hr).symm.trans hy
    obtain ⟨hstate, -, hfits⟩ := h.records n r hn hr
    exact ⟨r, rfl, hsession, hstate.1 (by rw [hsession]; nofun), hfits y hsession⟩

/-- A session that waits for a buffer awaits no poll (R152). -/
theorem pollTime_of_waiting {y : Session} {c : StepCondition} (h : y.Fits c) (hwait : y.request = .waitingList) :
    y.pollTime = none := by
  obtain ⟨-, -, -, -, hpoll, -⟩ := h
  by_contra hne
  rcases hpoll (.inr hne) with ⟨-, h⟩ | ⟨-, h⟩ <;> rw [hwait] at h <;> cases h

theorem Sound.freeBuffer (h : Sound w o (insert b p) s) (hb : b ∉ p) : Sound w o p (Machine.freeBuffer b s) := by
  have hlt := (h.linked.unread b (Set.mem_insert b p)).2
  cases hwaiting : s.restore.waiting with
  | nil =>
    rw [freeBuffer_alone hwaiting]
    refine (h.setServed .free).fallFree hwaiting ?_
    show (s.restore.buffers.setIfInBounds b .free)[b]? = _
    rw [Vector.getElem?_setIfInBounds, if_pos rfl, if_pos hlt]
  | cons m rest =>
    rw [freeBuffer_waiting hwaiting]
    obtain ⟨hm, y, hy, hwait⟩ := h.linked.listed m (by rw [hwaiting]; exact List.mem_cons_self ..)
    obtain ⟨r, hr, hsession, hstate, hfits⟩ := image_of_session h hm hy
    exact ((h.setServed .free).popWaiting hwaiting).startRead hm hb hr hsession hstate (pollTime_of_waiting hfits hwait)

/-! ### A session gives up its buffer (R148, R159) -/

/-- A session whose buffer is not being read is taken out together with it. -/
theorem Sound.detach {x : Session} (h : Sound w o p s) (ha : a ∉ o) (hx : s.session a = some x) (hb : x.buffer = some b)
    (hunread : b ∉ s.readBuffers) : Sound w (insert a o) (insert b p) s := by
  obtain ⟨hheld, havoid⟩ := h.linked.holds a x ha hx
  obtain ⟨hengaged, hwait⟩ := engaged_of_held hheld hb
  have hbp : b ∉ p := fun hmem => havoid b hmem hb
  have hlt : b < 4 := by
    rcases hengaged with h | ⟨_, h⟩ <;> exact lt_of_buffer h
  have hout : ∀ {n}, n ∉ insert a o → n ≠ a ∧ n ∉ o := fun hn =>
    ⟨fun heq => hn (heq ▸ Set.mem_insert _ o), fun ho => hn (Set.mem_insert_of_mem a ho)⟩
  have hin : ∀ {n}, n ≠ a → n ∉ o → n ∉ insert a o := fun hn ho hmem => (Set.mem_insert_iff.1 hmem).elim hn ho
  have hnot : ∀ {c}, c ∉ insert b p → c ≠ b ∧ c ∉ p := fun hc =>
    ⟨fun heq => hc (heq ▸ Set.mem_insert _ p), fun hp => hc (Set.mem_insert_of_mem b hp)⟩
  refine ⟨⟨h.linked.nodup, fun hw c hc => h.linked.full hw c (hnot hc).2, fun n hn => ?_,
    fun hw n y hn => h.linked.waits hw n y (hout hn).2, fun n y hn hy => ?_, fun c n hc hcn => ?_,
    h.linked.reads, fun c hc => h.linked.read c (hnot hc).2, fun c hc => ?_, h.linked.readers, h.linked.dropping⟩,
    fun n r hn => h.records n r (hout hn).2⟩
  · obtain ⟨ho, y, hy, hyw⟩ := h.linked.listed n hn
    refine ⟨hin (fun heq => ?_) ho, y, hy, hyw⟩
    subst heq
    cases hx.symm.trans hy
    exact hwait hyw
  · obtain ⟨hyh, hya⟩ := h.linked.holds n y (hout hn).2 hy
    refine ⟨hyh, fun c hc hbuffer => (Set.mem_insert_iff.1 hc).elim (fun heq => ?_) fun hp => hya c hp hbuffer⟩
    subst heq
    exact (hout hn).1 (engaged_inj (engaged_of_held hyh hbuffer).1 hengaged)
  · obtain ⟨ho, y, hy, hbuffer⟩ := h.linked.held c n (hnot hc).2 hcn
    refine ⟨hin (fun heq => ?_) ho, y, hy, hbuffer⟩
    subst heq
    cases hx.symm.trans hy
    rw [hb] at hbuffer
    cases hbuffer
    exact (hnot hc).1 rfl
  · rcases Set.mem_insert_iff.1 hc with rfl | hc
    · exact ⟨hunread, hlt⟩
    · exact h.linked.unread c hc

/-- The buffer of a session that is being read begins to drain. -/
theorem Sound.drain {x : Session} (h : Sound w o p s) (ha : a ∉ o) (hx : s.session a = some x) (hb : x.buffer = some b)
    (hread : b ∈ s.readBuffers) : Sound w (insert a o) p (s.setBuffer b .draining) := by
  obtain ⟨hheld, havoid⟩ := h.linked.holds a x ha hx
  obtain ⟨hengaged, hwait⟩ := engaged_of_held hheld hb
  have hbp : b ∉ p := fun hmem => havoid b hmem hb
  have hlt : b < 4 := by
    rcases hengaged with h | ⟨_, h⟩ <;> exact lt_of_buffer h
  have hset : (s.restore.buffers.setIfInBounds b .draining)[b]? = some .draining := by
    rw [Vector.getElem?_setIfInBounds, if_pos rfl, if_pos hlt]
  have hout : ∀ {n}, n ∉ insert a o → n ≠ a ∧ n ∉ o := fun hn =>
    ⟨fun heq => hn (heq ▸ Set.mem_insert _ o), fun ho => hn (Set.mem_insert_of_mem a ho)⟩
  have hin : ∀ {n}, n ≠ a → n ∉ o → n ∉ insert a o := fun hn ho hmem => (Set.mem_insert_iff.1 hmem).elim hn ho
  refine ⟨⟨h.linked.nodup, fun hw c hc => ?_, fun n hn => ?_, fun hw n y hn => h.linked.waits hw n y (hout hn).2,
    fun n y hn hy => ?_, fun c n hc hcn => ?_, h.linked.reads, fun c hc => ?_, h.linked.unread, h.linked.readers,
    h.linked.dropping⟩, fun n r hn => h.records n r (hout hn).2⟩
  · show (s.restore.buffers.setIfInBounds b .draining)[c]? ≠ _
    by_cases hcb : c = b
    · rw [hcb, hset]; nofun
    · rw [getElem?_setIfInBounds_ne hcb]; exact h.linked.full hw c hc
  · obtain ⟨ho, y, hy, hyw⟩ := h.linked.listed n hn
    refine ⟨hin (fun heq => ?_) ho, y, hy, hyw⟩
    subst heq
    cases hx.symm.trans hy
    exact hwait hyw
  · obtain ⟨hyh, hya⟩ := h.linked.holds n y (hout hn).2 hy
    refine ⟨(held_setIfInBounds (fun hbuffer => ?_) _).2 hyh, hya⟩
    exact (hout hn).1 (engaged_inj (engaged_of_held hyh hbuffer).1 hengaged)
  · by_cases hcb : c = b
    · subst hcb
      rcases hcn with g | ⟨_, g⟩ <;> exact absurd (hset.symm.trans g) nofun
    · obtain ⟨ho, y, hy, hbuffer⟩ := h.linked.held c n hc ((engaged_ne hcb _).1 hcn)
      refine ⟨hin (fun heq => ?_) ho, y, hy, hbuffer⟩
      subst heq
      cases hx.symm.trans hy
      rw [hb] at hbuffer
      cases hbuffer
      exact hcb rfl
  · by_cases hcb : c = b
    · subst hcb
      exact ⟨fun _ => .inr hset, fun _ => hread⟩
    · exact (h.linked.read c hc).trans (busy_ne hcb _).symm

end

/-- A session that has given up its buffer. -/
def Session.released (x : Session) : Session := { x with buffer := none, request := .none }

theorem releaseBuffer_held {s : State} {a b : Nat} {x : Session} (hx : s.session a = some x) (hb : x.buffer = some b) :
    releaseBuffer a s =
      if (s.mapSession a Session.released).readPending b then (s.mapSession a Session.released).setBuffer b .draining
      else freeBuffer b (s.mapSession a Session.released) := by
  obtain ⟨entry, reported, next, remaining, lastSent, retries, busyCount, buffer, request, pollTime⟩ := x
  cases hb
  unfold releaseBuffer
  rw [hx]
  rfl

theorem releaseBuffer_unheld {s : State} {a : Nat} {x : Session} (hx : s.session a = some x) (hb : x.buffer = none) :
    releaseBuffer a s = s := by
  obtain ⟨entry, reported, next, remaining, lastSent, retries, busyCount, buffer, request, pollTime⟩ := x
  cases hb
  unfold releaseBuffer
  rw [hx]

theorem setBuffer_mapRuntime (s : State) (a b : Nat) (f : Runtime → Runtime) (x : Buffer) :
    (s.mapRuntime a f).setBuffer b x = (s.setBuffer b x).mapRuntime a f := by
  cases hr : s.runtime a with
  | none => rw [mapRuntime_of_none hr, mapRuntime_of_none (s := s.setBuffer b x) hr]
  | some r => rw [mapRuntime_of_runtime hr, mapRuntime_of_runtime (s := s.setBuffer b x) hr]; rfl

section
variable {w : Prop} {o p : Set Nat} {s : State} {a b : Nat} {x : Session}

/-- The session of a node that is being served changes, but for its entry. -/
theorem Sound.mapSession (h : Sound w (insert a o) p s) {f : Session → Session} (hf : ∀ x, (f x).entry = x.entry) :
    Sound w (insert a o) p (s.mapSession a f) := by
  refine h.mapRuntime (fun ha => absurd (Set.mem_insert a o) ha) (fun r _ => ?_) fun ha => absurd (Set.mem_insert a o) ha
  show (r.session.map f).map _ = _
  rw [Option.map_map]
  exact congrArg (fun g => r.session.map g) (funext hf)

theorem readBuffers_mapSession (s : State) (a : Nat) (f : Session → Session) :
    (s.mapSession a f).readBuffers = s.readBuffers := readBuffers_congr (store_mapRuntime s a _)

/-- The buffer of a session falls FREE, both being served. -/
theorem Sound.releaseServed (h : Sound w (insert a o) (insert b p) s) (hbp : b ∉ p) (hx : s.session a = some x)
    (hb : x.buffer = some b) : Sound w (insert a o) p (Machine.releaseBuffer a s) := by
  rw [releaseBuffer_held hx hb, if_neg]
  · exact (h.mapSession (f := Session.released) fun _ => rfl).freeBuffer hbp
  · rw [readPending_iff, readBuffers_mapSession]
    exact (h.linked.unread b (Set.mem_insert b p)).1

/-- A session that does not wait gives up its buffer, if it holds one, and is taken out. -/
theorem Sound.release (h : Sound w o p s) (ha : a ∉ o) (hx : s.session a = some x) (hwait : x.request ≠ .waitingList) :
    Sound w (insert a o) p (Machine.releaseBuffer a s) := by
  obtain ⟨hheld, havoid⟩ := h.linked.holds a x ha hx
  cases hb : x.buffer with
  | none =>
    rw [releaseBuffer_unheld hx hb]
    refine h.exempt fun y hy => ?_
    cases hx.symm.trans hy
    refine ⟨hb, ?_⟩
    unfold Session.Held at hheld
    rw [hb] at hheld
    cases hrequest : x.request with
    | none => rfl
    | waitingList => exact absurd hrequest hwait
    | reading | filled => rw [hrequest] at hheld; exact hheld.elim
  | some b =>
    by_cases hread : b ∈ s.readBuffers
    · rw [releaseBuffer_held hx hb, if_pos]
      · show Sound _ _ _ ((s.mapRuntime a _).setBuffer b .draining)
        rw [setBuffer_mapRuntime]
        exact (h.drain ha hx hb hread).mapSession (f := Session.released) fun _ => rfl
      · rw [readPending_iff, readBuffers_mapSession]
        exact hread
    · exact (h.detach ha hx hb hread).releaseServed (fun hmem => havoid b hmem hb) hx hb

theorem session_mapSession (hx : s.session a = some x) (f : Session → Session) : (s.mapSession a f).session a = some (f x) := by
  cases hr : s.runtime a with
  | none => unfold State.session at hx; rw [hr] at hx; cases hx
  | some r =>
    show (s.mapRuntime a _).session a = _
    rw [session_of_runtime (runtime_mapRuntime_same hr _)]
    show r.session.map f = _
    rw [(session_of_runtime hr).symm.trans hx]
    rfl

/-- A node that is not on the waiting list gives up its buffer for good. -/
theorem session_releaseBuffer (hx : s.session a = some x) (ha : a ∉ s.restore.waiting) :
    ∃ y, (releaseBuffer a s).session a = some y ∧ y.entry = x.entry ∧ y.reported = x.reported
      ∧ (x.buffer = none → y = x) ∧ (x.buffer ≠ none → y = x.released) := by
  cases hb : x.buffer with
  | none => exact ⟨x, by rw [releaseBuffer_unheld hx hb]; exact hx, rfl, rfl, fun _ => rfl, fun h => absurd rfl h⟩
  | some b =>
    refine ⟨x.released, ?_, rfl, rfl, nofun, fun _ => rfl⟩
    rw [releaseBuffer_held hx hb]
    have hself := session_mapSession hx Session.released
    split
    · exact hself
    · refine (session_congr ((freeBuffer_cases b _).2 a ?_)).trans hself
      rw [show (s.mapSession a Session.released).restore.waiting = _ from waiting_mapRuntime s a _]
      exact ha

/-! ### The readers counts (R145) -/

theorem length_filter_drop {l : List Nat} (hl : l.Nodup) {a : Nat} (ha : a ∈ l) {q r : Nat → Bool} (hq : q a = true)
    (hr : r a = false) (hsame : ∀ n, n ≠ a → q n = r n) : (l.filter q).length = (l.filter r).length + 1 := by
  induction l with
  | nil => cases ha
  | cons n l ih =>
    obtain ⟨hn, hl⟩ := List.nodup_cons.1 hl
    by_cases hna : n = a
    · subst hna
      rw [List.filter_cons_of_pos hq, List.filter_cons_of_neg (by rw [hr]; exact Bool.false_ne_true), List.length_cons]
      exact congrArg (· + 1) (congrArg List.length (List.filter_congr fun m hm => hsame m fun heq => hn (heq ▸ hm)))
    · have ih := ih hl ((List.mem_cons.1 ha).resolve_left (Ne.symm hna))
      rw [List.filter_cons, List.filter_cons, hsame n hna]
      split
      · rw [List.length_cons, List.length_cons, ih]
      · exact ih

/-- One session more at a place. -/
theorem sessionsOf_more {t : State} (ha : a ∈ addresses) (hnone : s.session a = none) (hsome : t.session a = some x)
    (hsame : ∀ n, n ≠ a → t.session n = s.session n) (i : Nat) :
    t.sessionsOf i = s.sessionsOf i + if x.entry = i then 1 else 0 := by
  unfold State.sessionsOf
  by_cases hi : x.entry = i
  · rw [if_pos hi]
    refine length_filter_drop addresses_nodup ha ?_ ?_ fun n hn => by rw [hsame n hn]
    · rw [hsome]; exact beq_iff_eq.2 hi
    · rw [hnone]; rfl
  · rw [if_neg hi]
    refine congrArg List.length (List.filter_congr fun n _ => ?_)
    by_cases hn : n = a
    · subst hn
      rw [hsome, hnone]
      exact beq_eq_false_iff_ne.2 hi
    · rw [hsame n hn]

theorem mem_addresses_of_session (hx : s.session a = some x) : a ∈ addresses := by
  cases hr : s.runtime a with
  | none => unfold State.session at hx; rw [hr] at hx; cases hx
  | some r => exact mem_addresses_of_runtime hr

theorem readersAt_setPlace {e : CatalogueEntry} {i : Nat} (he : s.place i = some e) (n j : Nat) :
    (s.setPlace i (some { e with readers := n })).readersAt j = if j = i then n else s.readersAt j := by
  unfold State.readersAt
  rw [place_setPlace]
  by_cases hij : j = i
  · subst hij
    rw [if_pos ⟨rfl, lt_of_place he⟩, if_pos rfl]
  · rw [if_neg fun h => hij h.1.symm, if_neg hij]

theorem place_setPlace_isSome {e : CatalogueEntry} {i : Nat} (he : s.place i = some e) (n j : Nat) :
    (s.setPlace i (some { e with readers := n })).place j = none ↔ s.place j = none := by
  rw [place_setPlace]
  split
  · next h => rw [← h.1, he]; exact ⟨nofun, nofun⟩
  · exact Iff.rfl

/-- What stays when the links of the nodes that are not served, and all but the readers counts, stay. -/
theorem Linked.recount {t : State} (h : Linked w (insert a o) p s) (hsame : ∀ n, n ≠ a → t.session n = s.session n)
    (hwaiting : t.restore.waiting = s.restore.waiting) (hbuffers : t.restore.buffers = s.restore.buffers)
    (hreads : t.readBuffers = s.readBuffers) (hreaders : ∀ i, t.readersAt i = t.sessionsOf i)
    (hprogress : t.store.progress = s.store.progress) (hplace : ∀ i, s.place i = none → t.place i = none) :
    Linked w (insert a o) p t := by
  have hout : ∀ {n}, n ∉ insert a o → t.session n = s.session n := fun hn =>
    hsame _ fun heq => hn (heq ▸ Set.mem_insert _ o)
  constructor
  case nodup => rw [hwaiting]; exact h.nodup
  case full => rw [hwaiting, hbuffers]; exact h.full
  case listed =>
    rw [hwaiting]
    intro n hn
    obtain ⟨ho, y, hy⟩ := h.listed n hn
    exact ⟨ho, y, (hout ho).trans hy.1, hy.2⟩
  case waits =>
    rw [hwaiting]
    intro hw n y hn hy
    exact h.waits hw n y hn ((hout hn).symm.trans hy)
  case holds =>
    rw [hbuffers]
    intro n y hn hy
    exact h.holds n y hn ((hout hn).symm.trans hy)
  case held =>
    rw [hbuffers]
    intro c n hc hengaged
    obtain ⟨ho, y, hy⟩ := h.held c n hc hengaged
    exact ⟨ho, y, (hout ho).trans hy.1, hy.2⟩
  case reads => rw [hreads]; exact h.reads
  case read => rw [hreads, hbuffers]; exact h.read
  case unread => rw [hreads]; exact h.unread
  case readers => exact hreaders
  case dropping =>
    rw [hprogress]
    intro i e he
    exact hplace i (h.dropping i e he)

/-- A session begins at a place whose readers count goes up by 1 (R145, R147). -/
theorem Sound.addSession {f : Runtime → Runtime} {r : Runtime} {e : CatalogueEntry} (h : Sound w (insert a o) p s)
    (hr : s.runtime a = some r) (hnone : r.session = none) (hnew : (f r).session = some x) (he : s.place x.entry = some e) :
    Sound w (insert a o) p (addReader x.entry (s.mapRuntime a f)) := by
  have hstore := store_mapRuntime s a f
  have hplace : (s.mapRuntime a f).place x.entry = some e := (place_of_store hstore _).trans he
  have hself := (session_of_runtime (runtime_mapRuntime_same hr f)).trans hnew
  have hidle := (session_of_runtime hr).trans hnone
  have hadd : addReader x.entry (s.mapRuntime a f) =
      (s.mapRuntime a f).setPlace x.entry (some { e with readers := e.readers + 1 }) := by
    unfold addReader; rw [hplace]
  rw [hadd]
  refine ⟨h.linked.recount (fun n hn => session_mapRuntime_other s hn f) (waiting_mapRuntime s a f) (buffers_mapRuntime s a f)
    ((readBuffers_congr hstore : _) : ((s.mapRuntime a f).setPlace _ _).readBuffers = _) (fun i => ?_)
    (congrArg (·.progress) hstore) fun i hi => ?_, fun n v hn hv => ?_⟩
  · rw [readersAt_setPlace hplace, show ((s.mapRuntime a f).setPlace x.entry _).sessionsOf i = (s.mapRuntime a f).sessionsOf i
      from rfl, sessionsOf_more (mem_addresses_of_runtime hr) hidle hself (fun n hn => session_mapRuntime_other s hn f) i,
      ← h.linked.readers, readersAt_congr (s := s) (t := s.mapRuntime a f) (congrArg (·.catalogue) hstore)]
    by_cases hi : i = x.entry
    · rw [if_pos hi, if_pos hi.symm, hi]
      unfold State.readersAt
      rw [he]
    · rw [if_neg hi, if_neg (Ne.symm hi)]
      rfl
  · rw [place_setPlace_isSome hplace, place_of_store hstore]
    exact hi
  · have hna : n ≠ a := fun heq => hn (heq ▸ Set.mem_insert _ o)
    exact h.records n v hn ((runtime_mapRuntime_other s hna f).symm.trans hv)

/-- A session ends, and the readers count of its place goes down by 1 (R145, R159). -/
theorem Sound.dropSession (h : Sound w (insert a o) p s) (hx : s.session a = some x) :
    Sound w (insert a o) p ((dropReader x.entry s).mapRuntime a fun r => { r with session := none }) := by
  obtain ⟨r, hr⟩ : ∃ r, s.runtime a = some r := by
    cases hr : s.runtime a with
    | none => unfold State.session at hx; rw [hr] at hx; cases hx
    | some r => exact ⟨r, rfl⟩
  have hkept := (dropReader_cases x.entry s).2
  have hstore := store_mapRuntime (dropReader x.entry s) a fun r => { r with session := none }
  have hsame : ∀ n, n ≠ a → ((dropReader x.entry s).mapRuntime a fun r => { r with session := none }).session n =
      s.session n := fun n hn => (session_mapRuntime_other _ hn _).trans (session_congr (hkept n))
  have hnone : ((dropReader x.entry s).mapRuntime a fun r => { r with session := none }).session a = none :=
    session_of_runtime (runtime_mapRuntime_same ((hkept a).trans hr) _)
  have hcount := fun i => sessionsOf_more (mem_addresses_of_session hx) hnone hx (fun n hn => (hsame n hn).symm) i
  have hreaders := h.linked.readers
  obtain ⟨e, he⟩ : ∃ e, s.place x.entry = some e := by
    cases he : s.place x.entry with
    | some e => exact ⟨e, rfl⟩
    | none =>
      have hzero := hreaders x.entry
      rw [hcount, if_pos rfl] at hzero
      unfold State.readersAt at hzero
      rw [he] at hzero
      exact absurd hzero (Nat.succ_ne_zero _).symm
  have hdrop : dropReader x.entry s = s.setPlace x.entry (some { e with readers := e.readers - 1 }) := by
    unfold dropReader; rw [he]
  have hat := hreaders x.entry
  have hread : s.readersAt x.entry = e.readers := by unfold State.readersAt; rw [he]
  rw [hcount, if_pos rfl, hread] at hat
  refine ⟨h.linked.recount hsame ((waiting_mapRuntime ..).trans (by rw [hdrop]; rfl))
    ((buffers_mapRuntime ..).trans (by rw [hdrop]; rfl)) ((readBuffers_congr hstore).trans (by rw [hdrop]; rfl)) (fun i => ?_)
    (by rw [hstore, hdrop]; rfl) fun i hi => ?_, fun n v hn hv => ?_⟩
  · refine (readersAt_congr (s := dropReader x.entry s) (congrArg (·.catalogue) hstore) i).trans ?_
    rw [hdrop] at hcount ⊢
    rw [readersAt_setPlace he]
    have hci := hcount i
    rw [← hreaders] at hci
    by_cases hi : i = x.entry
    · subst hi
      rw [hread, if_pos rfl] at hci
      rw [if_pos rfl]
      omega
    · rw [if_neg (Ne.symm hi)] at hci
      rw [if_neg hi]
      omega
  · rw [place_of_store hstore, hdrop, place_setPlace_isSome he]
    exact hi
  · have hna : n ≠ a := fun heq => hn (heq ▸ Set.mem_insert _ o)
    exact h.records n v hn ((((runtime_mapRuntime_other _ hna _).trans (hkept n))).symm.trans hv)

end

/-! ### A session ends, and asks for a buffer (R148, R159) -/

theorem recordSound_cancel {r : Runtime} (h : RecordSound r) : RecordSound { r with step := r.step.cancel } := by
  obtain ⟨hsession, -, hfits⟩ := h
  have hoffered : r.step.cancel.offered = none := by cases r.step <;> rfl
  have hflight : ∀ k, r.step.cancel ≠ .inFlight k := fun k => by cases r.step <;> nofun
  refine ⟨hsession, fun k hk => ?_, fun x hx => ?_⟩
  · rw [hoffered] at hk; cases hk
  · obtain ⟨-, -, -, -, hpoll, -⟩ := hfits x hx
    refine ⟨fun h => ?_, fun h => ?_, fun h => absurd h (hflight _), fun h => absurd h (hflight _),
      fun h => hpoll (.inr (h.resolve_left ?_)), fun h => absurd hoffered h⟩
    · rw [hoffered] at h; cases h
    · rw [hoffered] at h; cases h
    · rw [hoffered]; nofun

theorem leaveWaiting_of_not_mem {s : State} {a : Nat} (h : a ∉ s.restore.waiting) : leaveWaiting a s = s := by
  have hsame : s.restore.waiting.filter (· != a) = s.restore.waiting :=
    List.filter_eq_self.2 fun n hn => bne_iff_ne.2 fun heq => h (heq ▸ hn)
  unfold leaveWaiting
  rw [hsame]
  rfl

theorem endSession_of_session {s : State} {a : Nat} {x : Session} (hx : s.session a = some x) :
    endSession a s = (dropReader x.entry (releaseBuffer a (leaveWaiting a (cancelStep a s)))).mapRuntime a
      fun r => { r with session := none } := by
  unfold endSession
  rw [hx]

section
variable {w : Prop} {o p : Set Nat} {s : State} {a b : Nat} {x : Session}

theorem Sound.cancelStep (h : Sound w o p s) (a : Nat) : Sound w o p (Machine.cancelStep a s) :=
  h.mapLinked (fun _ _ => rfl) fun _ _ _ => recordSound_cancel

/-- A session without a buffer leaves the waiting list, and is taken out. -/
theorem Sound.leaveWaiting (h : Sound w o p s) (hx : s.session a = some x) (hb : x.buffer = none) :
    Sound w (insert a o) p (Machine.leaveWaiting a s) := by
  have hout : ∀ {n}, n ∉ insert a o → n ≠ a ∧ n ∉ o := fun hn =>
    ⟨fun heq => hn (heq ▸ Set.mem_insert _ o), fun ho => hn (Set.mem_insert_of_mem a ho)⟩
  have hin : ∀ {n}, n ≠ a → n ∉ o → n ∉ insert a o := fun hn ho hmem => (Set.mem_insert_iff.1 hmem).elim hn ho
  refine ⟨⟨h.linked.nodup.filter _, fun hw => h.linked.full fun hnil => hw ?_, fun n hn => ?_, fun hw n y hn hy hwait => ?_,
    fun n y hn => h.linked.holds n y (hout hn).2, fun c n hc hengaged => ?_, h.linked.reads, h.linked.read, h.linked.unread,
    h.linked.readers, h.linked.dropping⟩, fun n r hn => h.records n r (hout hn).2⟩
  · show s.restore.waiting.filter _ = []
    rw [hnil]
    rfl
  · obtain ⟨hmem, hna⟩ := List.mem_filter.1 hn
    obtain ⟨ho, y⟩ := h.linked.listed n hmem
    exact ⟨hin (bne_iff_ne.1 hna) ho, y⟩
  · exact List.mem_filter.2 ⟨h.linked.waits hw n y (hout hn).2 hy hwait, bne_iff_ne.2 (hout hn).1⟩
  · obtain ⟨ho, y, hy, hbuffer⟩ := h.linked.held c n hc hengaged
    refine ⟨hin (fun heq => ?_) ho, y, hy, hbuffer⟩
    subst heq
    cases hx.symm.trans hy
    rw [hb] at hbuffer
    cases hbuffer

theorem not_waiting_of_buffer (h : Sound w o p s) (ha : a ∉ o) (hx : s.session a = some x) (hb : x.buffer = some b) :
    a ∉ s.restore.waiting := fun hmem => by
  obtain ⟨-, y, hy, hwait⟩ := h.linked.listed a hmem
  cases hx.symm.trans hy
  exact (engaged_of_held (h.linked.holds a x ha hx).1 hb).2 hwait

theorem not_waiting_of_served (h : Sound w (insert a o) p s) : a ∉ s.restore.waiting := fun hmem =>
  (h.linked.listed a hmem).1 (Set.mem_insert a o)

theorem session_dropped (x : Session) (s : State) (a : Nat) :
    ((dropReader x.entry s).mapRuntime a fun r => { r with session := none }).session a = none := by
  cases hr : (dropReader x.entry s).runtime a with
  | none => rw [mapRuntime_of_none hr]; unfold State.session; rw [hr]; rfl
  | some r => exact session_of_runtime (runtime_mapRuntime_same hr _)

theorem session_endSession (a : Nat) (s : State) : (Machine.endSession a s).session a = none := by
  cases hx : s.session a with
  | none => unfold Machine.endSession; rw [hx]; exact hx
  | some x => rw [endSession_of_session hx]; exact session_dropped ..

/-- The end of a session: the node is taken out, without a session (R159). -/
theorem Sound.endSession (h : Sound w o p s) (ha : a ∉ o) : Sound w (insert a o) p (Machine.endSession a s) := by
  cases hx : s.session a with
  | none =>
    unfold Machine.endSession
    rw [hx]
    exact h.exempt (unheld_of_none hx)
  | some x =>
    rw [endSession_of_session hx]
    have hc := h.cancelStep a
    have hxc : (Machine.cancelStep a s).session a = some x := (session_cancelStep a a s).trans hx
    generalize Machine.cancelStep a s = u at hc hxc
    cases hb : x.buffer with
    | none =>
      rw [releaseBuffer_unheld (s := Machine.leaveWaiting a u) hxc hb]
      exact (hc.leaveWaiting hxc hb).dropSession hxc
    | some b =>
      have hnot := not_waiting_of_buffer hc ha hxc hb
      have hwait := (engaged_of_held (hc.linked.holds a x ha hxc).1 hb).2
      rw [leaveWaiting_of_not_mem hnot]
      obtain ⟨y, hy, hentry, -⟩ := session_releaseBuffer hxc hnot
      rw [← hentry]
      exact (hc.release ha hxc hwait).dropSession hy

/-- The end of a session whose buffer's read has just ended (R161). -/
theorem Sound.endServed (h : Sound w (insert a o) (insert b p) s) (hbp : b ∉ p) (hx : s.session a = some x)
    (hb : x.buffer = some b) : Sound w (insert a o) p (Machine.endSession a s) := by
  rw [endSession_of_session hx]
  have hc := h.cancelStep a
  have hxc : (Machine.cancelStep a s).session a = some x := (session_cancelStep a a s).trans hx
  generalize Machine.cancelStep a s = u at hc hxc
  have hnot := not_waiting_of_served hc
  rw [leaveWaiting_of_not_mem hnot]
  obtain ⟨y, hy, hentry, -⟩ := session_releaseBuffer hxc hnot
  rw [← hentry]
  exact (hc.releaseServed hbp hxc hb).dropSession hy

/-- A FREE buffer is taken, to be served. -/
theorem Sound.takeFree (h : Sound w o p s) (hfree : s.restore.buffers[b]? = some .free) : Sound w o (insert b p) s := by
  have hnot : ∀ {c}, c ∉ insert b p → c ∉ p := fun hc hp => hc (Set.mem_insert_of_mem b hp)
  by_cases hbp : b ∈ p
  · rwa [Set.insert_eq_of_mem hbp]
  refine ⟨⟨h.linked.nodup, fun hw c hc => h.linked.full hw c (hnot hc), h.linked.listed, h.linked.waits,
    fun n y hn hy => ?_, fun c n hc => h.linked.held c n (hnot hc), h.linked.reads, fun c hc => h.linked.read c (hnot hc),
    fun c hc => ?_, h.linked.readers, h.linked.dropping⟩, h.records⟩
  · obtain ⟨hheld, havoid⟩ := h.linked.holds n y hn hy
    refine ⟨hheld, fun c hc hbuffer => (Set.mem_insert_iff.1 hc).elim (fun heq => ?_) fun hp => havoid c hp hbuffer⟩
    subst heq
    rcases (engaged_of_held hheld hbuffer).1 with g | ⟨_, g⟩ <;> rw [hfree] at g <;> cases g
  · rcases Set.mem_insert_iff.1 hc with rfl | hc
    · refine ⟨fun hmem => ?_, lt_of_buffer hfree⟩
      rcases (h.linked.read c hbp).1 hmem with ⟨_, g⟩ | g <;> rw [hfree] at g <;> cases g
    · exact h.linked.unread c hc

/-- A session joins the tail of the waiting list, no buffer being FREE. -/
theorem Sound.joinWaiting {r : Runtime} (h : Sound w (insert a o) p s) (ha : a ∉ o) (hr : s.runtime a = some r)
    (hx : r.session = some x) (hstate : r.state = .image) (hpoll : x.pollTime = none)
    (hfull : ∀ c : Nat, c ∉ p → s.restore.buffers[c]? ≠ some .free) :
    let u := s.mapRuntime a fun r =>
      { r with
        step := r.step.wait
        session := r.session.map (fun x => { x with buffer := none, request := .waitingList }) }
    Sound w o p (u.withRestore { u.restore with waiting := u.restore.waiting ++ [a] }) := by
  intro u
  have hu : Sound w (insert a o) p u := h.mapRuntime (fun ha => absurd (Set.mem_insert a o) ha)
    (fun r _ => by show (r.session.map _).map _ = _; rw [Option.map_map]; rfl) fun ha => absurd (Set.mem_insert a o) ha
  have hnew := runtime_mapRuntime_same hr fun r =>
    { r with step := r.step.wait, session := r.session.map (fun x => { x with buffer := none, request := .waitingList }) }
  rw [hx] at hnew
  have hbuffers : u.restore.buffers = s.restore.buffers := buffers_mapRuntime s a _
  have hsession : u.session a = some { x with buffer := none, request := .waitingList } := session_of_runtime hnew
  have hrecord : RecordSound { r with
      step := r.step.wait, session := some { x with buffer := none, request := .waitingList } } :=
    recordSound_wait hstate hpoll
  change u.runtime a = some { r with
    step := r.step.wait, session := some { x with buffer := none, request := .waitingList } } at hnew
  generalize u = v at hu hnew hbuffers hsession
  have hnot := not_waiting_of_served hu
  have hin : ∀ {n}, n ≠ a → n ∉ o → n ∉ insert a o := fun hn ho hmem => (Set.mem_insert_iff.1 hmem).elim hn ho
  have hout : ∀ {n}, n ∉ insert a o → n ∉ o := fun hn ho => hn (Set.mem_insert_of_mem a ho)
  refine ⟨⟨?_, fun _ => ?_, fun n hn => ?_, fun hw n y hn hy hwait => ?_, fun n y hn hy => ?_,
    fun c n hc hengaged => ⟨hout (hu.linked.held c n hc hengaged).1, (hu.linked.held c n hc hengaged).2⟩,
    hu.linked.reads, hu.linked.read, hu.linked.unread, hu.linked.readers, hu.linked.dropping⟩, fun n q hn hq => ?_⟩
  · refine List.nodup_append.2 ⟨hu.linked.nodup, List.nodup_singleton a, fun n hn m hm => ?_⟩
    rw [List.mem_singleton] at hm
    rintro rfl
    exact hnot (hm ▸ hn)
  · show ∀ c, c ∉ p → v.restore.buffers[c]? ≠ _
    rw [hbuffers]
    exact hfull
  · rcases List.mem_append.1 hn with hn | hn
    · exact ⟨hout (hu.linked.listed n hn).1, (hu.linked.listed n hn).2⟩
    · rw [List.mem_singleton] at hn
      subst hn
      exact ⟨ha, _, hsession, rfl⟩
  · by_cases hna : n = a
    · exact List.mem_append_right _ (List.mem_singleton.2 hna)
    · exact List.mem_append_left _ (hu.linked.waits hw n y (hin hna hn) hy hwait)
  · by_cases hna : n = a
    · subst hna
      cases hsession.symm.trans hy
      exact ⟨trivial, fun _ _ => nofun⟩
    · exact hu.linked.holds n y (hin hna hn) hy
  · by_cases hna : n = a
    · subst hna
      cases hnew.symm.trans hq
      exact hrecord
    · exact hu.records n q (hin hna hn) hq

/-- A session that is being served asks for a buffer (R148). -/
theorem Sound.askBuffer {r : Runtime} (h : Sound w (insert a o) ∅ s) (ha : a ∉ o) (hr : s.runtime a = some r)
    (hx : r.session = some x) (hstate : r.state = .image) (hpoll : x.pollTime = none) :
    Sound w o ∅ (Machine.askBuffer a s) := by
  unfold Machine.askBuffer
  split
  · next b hwaiting hlowest =>
    have hfree := List.find?_some hlowest
    exact (h.takeFree (beq_iff_eq.1 hfree)).startRead ha (Set.notMem_empty b) hr hx hstate hpoll
  · next hnone =>
    refine h.joinWaiting ha hr hx hstate hpoll fun c _ hfree => ?_
    by_cases hwaiting : s.restore.waiting = []
    · cases hlowest : s.lowestFreeBuffer with
      | some b => exact hnone b hwaiting hlowest
      | none =>
        have hno := List.find?_eq_none.1 hlowest c (List.mem_range.2 (lt_of_buffer hfree))
        exact hno (beq_iff_eq.2 hfree)
    · exact h.linked.full hwaiting c (Set.notMem_empty c) hfree

end

end Sys2Proof.Machine
end

section
/-! SUPPORT. The moves between node states leave sessions, buffers and lists in agreement (R38 to R60, R147, R156). -/

namespace Sys2Proof.Machine

/-! ### Records without a session -/

theorem recordSound_idle {r : Runtime} (hx : r.session = none) (hstate : r.state ≠ .image)
    (hstep : ∀ k, r.step.offered = some k → r.state ∈ k.offeredIn) : RecordSound r :=
  ⟨⟨fun h => absurd hx h, fun h => absurd h hstate⟩, hstep, fun x h => by rw [hx] at h; cases h⟩

theorem offered_cancel (c : StepCondition) : c.cancel.offered = none := by cases c <;> rfl

theorem offered_wait (c : StepCondition) : c.wait.offered = none := by cases c <;> rfl

theorem offered_offer {c : StepCondition} {k l : StepKind} (h : (c.offer k).offered = some l) : l = k := by
  cases c <;> cases h <;> rfl

theorem RecordSound.session_none {r : Runtime} (h : RecordSound r) (hstate : r.state ≠ .image) : r.session = none := by
  by_contra hx
  exact hstate (h.1.1 hx)

theorem Stores.restore {s t : State} (h : Stores s t) : t.restore = s.restore ∧ t.store = s.store := by
  obtain ⟨_, _, _, _, rfl⟩ := h
  exact ⟨rfl, rfl⟩

theorem returnPasses_restore (l : List Nat) (s : State) :
    (returnPasses l s).restore = s.restore ∧ (returnPasses l s).store = s.store := by
  obtain ⟨t, _, _, _, h, heq, -⟩ := returnPasses_only l s
  rw [heq]
  exact h.restore

section
variable {w : Prop} {o p : Set Nat} {s : State} {a : Nat}

theorem Sound.stores {t : State} (h : Sound w o p s) (hs : Stores s t) : Sound w o p t :=
  h.of_restore hs.restore.1 hs.restore.2

theorem Sound.reports {t : State} (h : Sound w o p s) (hs : Reports s t) : Sound w o p t := h.stores hs.stores

theorem Sound.returnPasses (h : Sound w o p s) (l : List Nat) : Sound w o p (Machine.returnPasses l s) :=
  h.of_restore (returnPasses_restore l s).1 (returnPasses_restore l s).2

/-- A node in order that is not in IMAGE is taken out, without a session. -/
theorem Sound.exemptIdle (h : Sound w o p s) (ha : a ∉ o) (hstate : s.nodeState a ≠ .image) :
    Sound w (insert a o) p s ∧ s.session a = none := by
  have hidle : s.session a = none := by
    cases hr : s.runtime a with
    | none => unfold State.session; rw [hr]; rfl
    | some r =>
      rw [nodeState_of_runtime hr] at hstate
      exact (session_of_runtime hr).trans ((h.records a r ha hr).session_none hstate)
  exact ⟨h.exempt (unheld_of_none hidle), hidle⟩

/-- A move of a node without a session to a state other than IMAGE, with a step that the state offers. -/
theorem Sound.enter {f : Runtime → Runtime} (h : Sound w (insert a o) p s) (hidle : s.session a = none)
    (hf : ∀ r, s.runtime a = some r → (f r).session = r.session ∧ (f r).state ≠ .image
      ∧ ∀ k, (f r).step.offered = some k → (f r).state ∈ k.offeredIn) : Sound w o p (s.mapRuntime a f) :=
  h.settle hidle fun r hr hx => by
    obtain ⟨hsession, hstate, hstep⟩ := hf r hr
    exact ⟨hsession.trans hx, recordSound_idle (hsession.trans hx) hstate hstep⟩

/-! ### The moves -/

theorem Sound.enterProbe (h : Sound w (insert a o) p s) (hidle : s.session a = none) :
    Sound w o p (Machine.enterProbe a s) := by
  have hmoved := h.enter (f := fun r =>
    { r.move .probe with misses := 0, bootCount := r.countOnDoubt, step := r.step.offer .probe }) hidle
    fun r _ => ⟨rfl, nofun, fun k hk => by rw [offered_offer hk]; exact List.mem_cons_self ..⟩
  unfold Machine.enterProbe
  dsimp only
  split
  · exact hmoved.returnPasses [a]
  · exact hmoved

theorem Sound.enterSuspect (h : Sound w (insert a o) p s) (hidle : s.session a = none) (phase : NodeState) :
    Sound w o p (Machine.enterSuspect a phase s) :=
  h.enter hidle fun r _ => ⟨rfl, nofun, fun k hk => by
    rw [show ({ r.move .suspect with step := r.step.cancel } : Runtime).step.offered = none from offered_cancel r.step] at hk
    cases hk⟩

theorem Sound.enterProbeOrSuspect (h : Sound w (insert a o) p s) (hidle : s.session a = none) :
    Sound w o p (Machine.enterProbeOrSuspect a s) := by
  unfold Machine.enterProbeOrSuspect
  split
  · have hmoved : Sound w o p (joinGapSet a (Machine.enterSuspect a .probe s)) :=
      (h.enterSuspect hidle .probe).of_restore rfl rfl
    dsimp only
    split
    · exact hmoved.returnPasses [a]
    · exact hmoved
  · exact h.enterProbe hidle

theorem Sound.enterOnline (h : Sound w (insert a o) p s) (hidle : s.session a = none) :
    Sound w o p (Machine.enterOnline a s) := by
  have hmoved := h.enter (f := fun r =>
    { r.move .online with
      noReply := 0
      step := r.step.cancel
      attempts := if r.state.endsRestore then 0 else r.attempts
      restores := if r.state.endsRestore then r.restores + 1 else r.restores }) hidle
    fun r _ => ⟨rfl, nofun, fun k hk => absurd ((offered_cancel r.step).symm.trans hk) nofun⟩
  exact hmoved.reports (reports_offerNodeState a .online _)

theorem Sound.enterOffered {k : StepKind} {f : Runtime → Runtime} (h : Sound w (insert a o) p s) (hidle : s.session a = none)
    (hf : ∀ r, (f r).session = r.session ∧ (f r).state ≠ .image ∧ (f r).state ∈ k.offeredIn ∧ (f r).step = r.step.offer k) :
    Sound w o p (s.mapRuntime a f) :=
  h.enter hidle fun r _ => by
    obtain ⟨hsession, hstate, hoffered, hstep⟩ := hf r
    refine ⟨hsession, hstate, fun l hl => ?_⟩
    rw [hstep] at hl
    rw [offered_offer hl]
    exact hoffered

theorem Sound.enterReplay (h : Sound w (insert a o) p s) (hidle : s.session a = none) :
    Sound w o p (Machine.enterReplay a s) :=
  h.enterOffered (k := .replay) hidle fun _ => ⟨rfl, nofun, List.mem_cons_self .., rfl⟩

theorem Sound.enterRelease (h : Sound w (insert a o) p s) (hidle : s.session a = none) :
    Sound w o p (Machine.enterRelease a s) :=
  h.enterOffered (k := .release) hidle fun _ => ⟨rfl, nofun, List.mem_cons_self .., rfl⟩

theorem Sound.enterConfig (h : Sound w (insert a o) p s) (hidle : s.session a = none) :
    Sound w o p (Machine.enterConfig a s) :=
  h.enterOffered (k := .config) hidle fun _ => ⟨rfl, nofun, List.mem_cons_self .., rfl⟩

theorem Sound.onward (h : Sound w (insert a o) p s) (hidle : s.session a = none) : Sound w o p (Machine.onward a s) := by
  unfold Machine.onward
  split
  · exact h.enterReplay hidle
  · split
    · exact h.enterRelease hidle
    · exact h.enterOnline hidle

/-- Entry to MISSING keeps a step in flight, which is a probe (R43). -/
theorem Sound.enterMissing (h : Sound w (insert a o) p s) (hidle : s.session a = none)
    (hflight : ∀ r k, s.runtime a = some r → r.step = .inFlight k → k = .probe) : Sound w o p (Machine.enterMissing a s) := by
  refine Sound.reports ?_ (reports_offerNodeState a .missing _)
  refine h.enter hidle fun r hr => ?_
  split
  · next k hk =>
    refine ⟨rfl, nofun, fun l hl => ?_⟩
    cases hl
    rw [hflight r _ hr hk]
    exact List.mem_cons_of_mem _ (List.mem_cons_of_mem _ (List.mem_cons_self ..))
  · exact ⟨rfl, nofun, fun l hl => absurd ((offered_wait r.step).symm.trans hl) nofun⟩

/-- An address without a table entry has no record. -/
def Configured (a : Nat) (s : State) : Prop := s.entry a = none → s.runtime a = none

theorem Configured.congr {s t : State} (h : Configured a s) (htables : t.tables = s.tables)
    (hruntime : (t.runtime a).isSome = (s.runtime a).isSome) : Configured a t := fun hnone => by
  have hs := h (by unfold State.entry at hnone ⊢; rwa [← htables])
  rw [hs] at hruntime
  exact Option.not_isSome_iff_eq_none.1 (by rw [hruntime]; exact Bool.false_ne_true)

theorem Configured.of_quiet {s t : State} (h : Configured a s) (hquiet : t.quiet = s.quiet) : Configured a t :=
  h.congr (congrArg Quiet.tables hquiet) (congrFun (congrArg Quiet.configured hquiet) a)

theorem isSome_runtime_mapRuntime (s : State) (a b : Nat) (f : Runtime → Runtime) :
    ((s.mapRuntime a f).runtime b).isSome = (s.runtime b).isSome := by
  rw [runtime_mapRuntime]
  split
  · next h => subst h; cases s.runtime a <;> rfl
  · rfl

theorem Sound.enterAwaitBoot (h : Sound w (insert a o) p s) (ha : a ∉ o) (hidle : s.session a = none)
    (hconfigured : Configured a s) (base : Time) : Sound w o p (Machine.enterAwaitBoot a base s) := by
  unfold Machine.enterAwaitBoot
  split
  · next hnone =>
    exact h.restored (unheld_of_none hidle) fun r hr => by rw [hconfigured hnone] at hr; cases hr
  · next e _ =>
    dsimp only
    have hmoved : Sound w o p (s.mapRuntime a fun r =>
        let r1 := { r.move .awaitBoot with misses := 0, window := some (after base (e.bootMin * 10), after base (e.bootMax * 10)) }
        if reached s.now (after base (e.bootMin * 10)) then { r1 with step := r.step.offer .probe }
        else { r1 with nextProbe := some (after base (e.bootMin * 10)), step := r.step.wait }) := by
      refine h.enter hidle fun r _ => ?_
      dsimp only
      split
      · exact ⟨rfl, nofun, fun k hk => by
          rw [offered_offer hk]; exact List.mem_cons_of_mem _ (List.mem_cons_self ..)⟩
      · exact ⟨rfl, nofun, fun k hk => absurd ((offered_wait r.step).symm.trans hk) nofun⟩
    dsimp only at hmoved
    have hstate : ∀ r, (s.mapRuntime a fun r =>
        if reached s.now (after base (e.bootMin * 10)) then
          { r.move .awaitBoot with
            misses := 0, window := some (after base (e.bootMin * 10), after base (e.bootMax * 10)), step := r.step.offer .probe }
        else
          { r.move .awaitBoot with
            misses := 0, window := some (after base (e.bootMin * 10), after base (e.bootMax * 10))
            nextProbe := some (after base (e.bootMin * 10)), step := r.step.wait }).runtime a = some r → r.state = .awaitBoot := by
      intro r hr
      rw [runtime_mapRuntime, if_pos rfl] at hr
      obtain ⟨v, -, rfl⟩ := Option.map_eq_some_iff.1 hr
      split <;> rfl
    split
    · have hcancelled := hmoved.cancelStep a
      obtain ⟨hexempt, hnone⟩ := hcancelled.exemptIdle ha (by
        intro himage
        unfold State.nodeState at himage
        split at himage
        · next r hr =>
          unfold Machine.cancelStep at hr
          rw [runtime_mapRuntime, if_pos rfl] at hr
          obtain ⟨v, hv, rfl⟩ := Option.map_eq_some_iff.1 hr
          rw [show ({ v with step := v.step.cancel } : Runtime).state = v.state from rfl, hstate v hv] at himage
          cases himage
        · cases himage)
      refine hexempt.enterMissing hnone fun r k hr hk => ?_
      unfold Machine.cancelStep at hr
      rw [runtime_mapRuntime, if_pos rfl] at hr
      obtain ⟨v, -, rfl⟩ := Option.map_eq_some_iff.1 hr
      have hcancel := offered_cancel v.step
      rw [show v.step.cancel = .inFlight k from hk] at hcancel
      cases hcancel
    · exact hmoved

/-! ### Moves that end the session -/

/-- Whatever a node's record was, it has no session and no step on offer once its step is cancelled and its session has ended. -/
theorem runtime_ended {s : State} {a : Nat} {r : Runtime}
    (h : (endSession a (cancelStep a s)).runtime a = some r) : r.step.offered = none := by
  cases hv : s.runtime a with
  | none =>
    have hnone : (cancelStep a s).runtime a = none := by
      unfold Machine.cancelStep; rw [runtime_mapRuntime, if_pos rfl, hv]; rfl
    have hended : endSession a (cancelStep a s) = cancelStep a s := by
      unfold endSession State.session; rw [hnone]; rfl
    rw [hended, hnone] at h
    cases h
  | some v =>
    have hended := (endSession_of_cancelled (runtime_mapRuntime_same hv fun r => { r with step := r.step.cancel })
      v.step.cancel_cancel).2
    rw [show (endSession a (cancelStep a s)).runtime a = _ from hended] at h
    cases h
    exact offered_cancel v.step

theorem refusePasses_restore (a : Nat) (c : AnswerCode) (s : State) :
    (refusePasses a c s).restore = s.restore ∧ (refusePasses a c s).store = s.store := by
  obtain ⟨x, t, h, heq⟩ := refusePasses_only a c s
  rw [heq]
  obtain ⟨_, _, rfl⟩ := h
  exact ⟨rfl, rfl⟩

theorem discardQueue_restore (a : Nat) (s : State) :
    (discardQueue a s).restore = s.restore ∧ (discardQueue a s).store = s.store := by
  obtain ⟨_, _, h⟩ := reports_reportDiscarded (s.queue a) s
  unfold discardQueue
  rw [h]
  exact ⟨rfl, rfl⟩

theorem Sound.discardQueue (h : Sound w o p s) (a : Nat) : Sound w o p (Machine.discardQueue a s) :=
  h.of_restore (discardQueue_restore a s).1 (discardQueue_restore a s).2

/-- What an entry to FAILED or ISOLATED does after the record has moved. -/
theorem Sound.leaveQueues (h : Sound w o p s) (a : Nat) (c : AnswerCode) (st : NodeState) :
    Sound w o p (offerNodeState a st (Machine.discardQueue a (refusePasses a c s))) :=
  ((h.of_restore (refusePasses_restore a c s).1 (refusePasses_restore a c s).2).discardQueue a).reports
    (reports_offerNodeState a st _)

/-- Entry to FAILED, once the session has ended. -/
theorem Sound.enterFailed_ended (h : Sound w (insert a o) p (Machine.endSession a (Machine.cancelStep a s))) :
    Sound w o p (Machine.enterFailed a s) := by
  unfold Machine.enterFailed
  refine Sound.leaveQueues ?_ a .nodeFailed .failed
  exact h.enter (session_endSession a _) fun r hr => ⟨rfl, nofun, fun k hk => absurd ((runtime_ended hr).symm.trans hk) nofun⟩

theorem Sound.enterFailed (h : Sound w o p s) (ha : a ∉ o) : Sound w o p (Machine.enterFailed a s) :=
  ((h.cancelStep a).endSession ha).enterFailed_ended

theorem Sound.enterIsolated (h : Sound w o p s) (ha : a ∉ o) : Sound w o p (Machine.enterIsolated a s) := by
  unfold Machine.enterIsolated
  refine Sound.leaveQueues ?_ a .nodeIsolated .isolated
  exact ((h.cancelStep a).endSession ha).enter (session_endSession a _) fun r hr =>
    ⟨rfl, nofun, fun k hk => absurd ((runtime_ended hr).symm.trans hk) nofun⟩

theorem Sound.suspendMember (h : Sound w o p s) (ha : a ∉ o) : Sound w o p (Machine.suspendMember a s) :=
  ((h.cancelStep a).endSession ha).enterSuspect (session_endSession a _) _

/-- The end of a session, and of any step, before a move to PROBE. -/
theorem Sound.endedToProbe (h : Sound w o p s) (ha : a ∉ o) : Sound w o p (Machine.enterProbe a (Machine.endSession a s)) :=
  (h.endSession ha).enterProbe (session_endSession a s)

end

/-! ### Steps offered, expiries, and orphans (R39, R121, R130, R131, R138) -/

section
variable {w : Prop} {o p : Set Nat} {s : State} {a : Nat}

/-- A record that keeps its session, its state and, unless it becomes `.none`, its step. -/
theorem recordSound_of_step {r v : Runtime} (h : RecordSound r) (hsession : v.session = r.session) (hstate : v.state = r.state)
    (hstep : v.step = r.step) : RecordSound v := by
  unfold RecordSound
  rw [hsession, hstate, hstep]
  exact h

theorem Sound.mapPlain {f : Runtime → Runtime} (h : Sound w o p s)
    (hf : ∀ r, (f r).session = r.session ∧ (f r).state = r.state ∧ (f r).step = r.step) : Sound w o p (s.mapRuntime a f) :=
  h.mapLinked (fun r _ => by rw [(hf r).1]) fun _ r _ hr => recordSound_of_step hr (hf r).1 (hf r).2.1 (hf r).2.2

/-- A step is offered in a state other than IMAGE that offers it. -/
theorem Sound.offerKind {k : StepKind} (h : Sound w o p s)
    (hk : ∀ r, s.runtime a = some r → r.state ≠ .image ∧ r.state ∈ k.offeredIn) : Sound w o p (Machine.offerKind a k s) :=
  h.mapLinked (fun _ _ => rfl) fun _ r hr hsound => by
    obtain ⟨hstate, hoffered⟩ := hk r hr
    exact recordSound_idle (hsound.session_none hstate) hstate fun l hl => by rw [offered_offer hl]; exact hoffered

theorem Sound.onwardFrom (h : Sound w o p s) (ha : a ∉ o) (hstate : s.nodeState a ≠ .image) :
    Sound w o p (Machine.onward a s) := by
  obtain ⟨hexempt, hidle⟩ := h.exemptIdle ha hstate
  exact hexempt.onward hidle

theorem Sound.probeFrom (h : Sound w o p s) (ha : a ∉ o) (hstate : s.nodeState a ≠ .image) :
    Sound w o p (Machine.enterProbe a s) := by
  obtain ⟨hexempt, hidle⟩ := h.exemptIdle ha hstate
  exact hexempt.enterProbe hidle

/-- The first step of the state a node is in is one that the state offers, or none (R39). -/
theorem offerFirstStep_cases (a : Nat) (s : State) :
    ∃ f, Machine.offerFirstStep a s = s.mapRuntime a f ∧ ∀ r, f r = r ∨ ∃ c, f r = { r with step := c } ∧ r.state ≠ .image
      ∧ ∀ k, c.offered = some k → r.state ∈ k.offeredIn := by
  refine ⟨_, rfl, fun r => ?_⟩
  dsimp only
  split
  · exact .inl rfl
  · have hprobe : ∀ k, (match r.nextProbe with
        | some t => if reached s.now t then StepCondition.ready .probe else .waiting
        | none => .ready .probe).offered = some k → k = .probe := fun k hk => by
      split at hk
      · split at hk <;> cases hk; rfl
      · cases hk; rfl
    cases hstate : r.state <;> dsimp only
    case probe => exact .inr ⟨_, rfl, nofun, fun k hk => by cases hk; decide⟩
    case awaitBoot =>
      split
      · split
        · exact .inl rfl
        · exact .inr ⟨_, rfl, nofun, fun k hk => by rw [hprobe k hk]; decide⟩
      · exact .inl rfl
    case missing => exact .inr ⟨_, rfl, nofun, fun k hk => by rw [hprobe k hk]; decide⟩
    case config => exact .inr ⟨_, rfl, nofun, fun k hk => by cases hk; decide⟩
    case replay =>
      split
      · exact .inr ⟨_, rfl, nofun, fun k hk => by cases hk; decide⟩
      · exact .inl rfl
    case release =>
      split
      · exact .inr ⟨_, rfl, nofun, fun k hk => by cases hk; decide⟩
      · exact .inl rfl
    all_goals exact .inl rfl

theorem Sound.offerFirstStep (h : Sound w o p s) (a : Nat) : Sound w o p (Machine.offerFirstStep a s) := by
  obtain ⟨f, heq, hf⟩ := offerFirstStep_cases a s
  rw [heq]
  refine h.mapLinked (fun r _ => ?_) fun _ r _ hr => ?_
  · obtain h | ⟨c, h, -⟩ := hf r <;> rw [h]
  · obtain h | ⟨c, h, hstate, hstep⟩ := hf r
    · rw [h]; exact hr
    · rw [h]; exact recordSound_idle (hr.session_none hstate) hstate hstep

theorem Sound.releaseAfterExpiry (h : Sound w o p s) (ha : a ∉ o) (headGone : Bool) :
    Sound w o p (Machine.releaseAfterExpiry a headGone s) := by
  unfold Machine.releaseAfterExpiry
  split
  · next hstate =>
    split
    · split
      · exact h
      · exact h.onwardFrom ha (by rw [hstate]; nofun)
    · split
      · exact h.mapPlain fun _ => ⟨rfl, rfl, rfl⟩
      · exact h
  · exact h

theorem Sound.expireEntry (h : Sound w o p s) (ha : a ∉ o) (place : Nat) (e : HoldEntry) :
    Sound w o p (Machine.expireEntry a place e s) := by
  unfold Machine.expireEntry
  have hqueue : Sound w o p (s.setQueue a ((s.queue a).eraseIdx place)) := h.of_restore rfl rfl
  exact (hqueue.reports (reports_makeReport e .expired [] _)).releaseAfterExpiry ha _

theorem Sound.clearInFlight (h : Sound w o p s) (ha : a ∉ o) : Sound w o p (Machine.clearInFlight a s) := by
  have hcleared : Sound w o p (s.setReplayInFlight a none) := h.of_restore rfl rfl
  unfold Machine.clearInFlight
  dsimp only
  split
  · exact hcleared
  · have hqueue : Sound w o p ((s.setReplayInFlight a none).setQueue a
        (((s.setReplayInFlight a none).queue a).map fun e => { e with inFlight := false })) := hcleared.of_restore rfl rfl
    split
    · split
      · exact hqueue.expireEntry ha _ _
      · exact hqueue
    · exact hqueue

end

/-! ### Entry to IMAGE and attempt failures (R147, R156, R157) -/

section
variable {w : Prop} {o : Set Nat} {s : State} {a : Nat}

theorem runtime_addReader (i : Nat) (s : State) (a : Nat) : (addReader i s).runtime a = s.runtime a := by
  unfold addReader
  split <;> rfl

theorem Sound.enterImage {r : Runtime} {c : CatalogueEntry} {i : Nat} (h : Sound w (insert a o) ∅ s) (ha : a ∉ o)
    (hr : s.runtime a = some r) (hidle : s.session a = none) (hc : s.place i = some c) (k : Nat) (e : ImageEntry)
    (reported : Option ImageState) : Sound w o ∅ (Machine.enterImage a k i e reported s) := by
  have hadded := h.addSession (x := newSession i e.length k reported)
    (f := fun r => { r.move .image with session := some (newSession i e.length k reported) })
    hr ((session_of_runtime hr).symm.trans hidle) rfl hc
  have hrecord := runtime_mapRuntime_same
    ((runtime_addReader i _ a).trans
      (runtime_mapRuntime_same hr fun r => { r.move .image with session := some (newSession i e.length k reported) }))
    fun r => { r with misses := 0 }
  have hcleared := hadded.mapLinked (a := a) (f := fun r => { r with misses := 0 }) (fun _ _ => rfl)
    fun hnot => absurd (Set.mem_insert a o) hnot
  exact hcleared.askBuffer ha hrecord rfl rfl rfl

/-- What is left of the record of a node that gives up its buffer. -/
theorem runtime_releaseBuffer {r : Runtime} {x : Session} (hr : s.runtime a = some r) (hx : r.session = some x)
    (ha : a ∉ s.restore.waiting) :
    ∃ y, (releaseBuffer a s).runtime a = some { r with session := some y } ∧ y.entry = x.entry ∧ y.pollTime = x.pollTime
      ∧ (x.buffer = none → y = x) ∧ (x.buffer ≠ none → y = x.released) := by
  obtain ⟨-, f, hf⟩ := releaseBuffer_cases a s ha
  rw [hr] at hf
  obtain ⟨y, hy, hentry, -, hnone, hsome⟩ := session_releaseBuffer ((session_of_runtime hr).trans hx) ha
  rw [session_of_runtime hf] at hy
  refine ⟨y, ?_, hentry, ?_, hnone, hsome⟩
  · rw [hf]
    show some { r with session := f r.session } = _
    rw [show f r.session = some y from hy]
  · cases hb : x.buffer with
    | none => rw [hnone hb]
    | some b => rw [hsome (by rw [hb]; nofun)]; rfl

theorem not_waiting_of_request {p : Set Nat} {x : Session} (h : Sound w o p s) (hx : s.session a = some x)
    (hwait : x.request ≠ .waitingList) : a ∉ s.restore.waiting := fun hmem => by
  obtain ⟨-, y, hy, hy'⟩ := h.linked.listed a hmem
  cases hx.symm.trans hy
  exact hwait hy'

theorem Sound.attemptFailure {r : Runtime} {x : Session} (h : Sound w o ∅ s) (ha : a ∉ o) (hr : s.runtime a = some r)
    (hx : r.session = some x) (hwait : x.request ≠ .waitingList) : Sound w o ∅ (Machine.attemptFailure a s) := by
  have hcounted : Sound w o ∅ (countAttempt a s) := h.mapPlain fun _ => ⟨rfl, rfl, rfl⟩
  have hrc := runtime_mapRuntime_same hr fun r => { r with attempts := r.attempts + 1 }
  change (countAttempt a s).runtime a = _ at hrc
  unfold Machine.attemptFailure
  dsimp only
  generalize countAttempt a s = u at hcounted hrc
  split
  · exact hcounted.enterFailed ha
  · have hxu : u.session a = some x := (session_of_runtime hrc).trans hx
    rw [hxu]
    dsimp only
    have hnot := not_waiting_of_request hcounted hxu hwait
    obtain ⟨y, hy, hentry, -⟩ := runtime_releaseBuffer hrc hx hnot
    have hreleased := hcounted.release ha hxu hwait
    have hstate := (hcounted.records a _ ha hrc).1.1 (by rw [hx]; nofun)
    have hnew : Sound w (insert a o) ∅ ((releaseBuffer a u).mapSession a fun _ =>
        newSession x.entry (match u.sessionImage x with | some e => e.length | none => 0) 0 x.reported) :=
      hreleased.mapRuntime (fun hnot => absurd (Set.mem_insert a o) hnot) (fun v hv => by
        rw [hy] at hv
        cases hv
        exact congrArg some hentry.symm) fun hnot => absurd (Set.mem_insert a o) hnot
    exact hnew.askBuffer ha (runtime_mapRuntime_same hy _) rfl hstate rfl

theorem place_of_lookup {i : Nat} {kind : Byte} {e : ImageEntry} (h : s.lookupImage kind = some (i, e)) :
    ∃ c, s.place i = some c := by
  unfold State.lookupImage at h
  split at h
  · split at h
    · next c hc =>
      split at h
      · cases h
      · cases h; exact ⟨c, hc⟩
    · cases h
  · cases h

theorem Sound.attemptFailureOutside {r : Runtime} (h : Sound w o ∅ s) (ha : a ∉ o) (hr : s.runtime a = some r)
    (hstate : r.state ≠ .image) (reported : Option ImageState) :
    Sound w o ∅ (Machine.attemptFailureOutside a reported s) := by
  have hcounted : Sound w o ∅ (countAttempt a (s.mapRuntime a fun r => { r with expected := none })) :=
    (h.mapPlain (f := fun r => { r with expected := none }) fun _ => ⟨rfl, rfl, rfl⟩).mapPlain fun _ => ⟨rfl, rfl, rfl⟩
  have hrc := runtime_mapRuntime_same (runtime_mapRuntime_same hr fun r => { r with expected := none })
    fun r => { r with attempts := r.attempts + 1 }
  change (countAttempt a (s.mapRuntime a fun r => { r with expected := none })).runtime a = _ at hrc
  unfold Machine.attemptFailureOutside
  dsimp only
  generalize countAttempt a (s.mapRuntime a fun r => { r with expected := none }) = u at hcounted hrc
  split
  · exact hcounted.enterFailed ha
  · split
    · next i e hfound =>
      obtain ⟨v, -, hv⟩ := Option.bind_eq_some_iff.1 hfound
      obtain ⟨c, hc⟩ := place_of_lookup hv
      obtain ⟨hexempt, hidle⟩ := hcounted.exemptIdle ha (by rw [nodeState_of_runtime hrc]; exact hstate)
      exact hexempt.enterImage ha hrc hidle hc 0 e reported
    · exact hcounted.enterFailed ha

end

/-! ### Blocks, tokens and polls (R149 to R158) -/

/-- The session awaits the verdict on a block that stands in its buffer, or on an IMAGE END (R150, R153, R154). -/
def Session.AwaitsVerdict (x : Session) : Prop :=
  (x.lastSent = .block ∧ x.request = .filled) ∨ (x.lastSent = .imageEnd ∧ x.request = .none)

/-- The session of a node in IMAGE whose transaction has just ended. -/
structure Judged (a : Nat) (s : State) (r : Runtime) (x : Session) : Prop where
  runtime : s.runtime a = some r
  session : r.session = some x
  off : r.step.offered = none
  polled : x.pollTime = none
  verdict : x.AwaitsVerdict

theorem Session.AwaitsVerdict.request {x : Session} (h : x.AwaitsVerdict) : x.request ≠ .waitingList := by
  rcases h with ⟨-, h⟩ | ⟨-, h⟩ <;> rw [h] <;> nofun

/-- A session fits a step that is offered for what it holds. -/
theorem fits_offer {y : Session} {c : StepCondition} {k : StepKind} (hpoll : y.pollTime = none)
    (hblock : k = .imageBlock → y.request = .filled) (hend : k = .imageEnd → y.request = .none)
    (hbusy : k = .busyPoll → y.AwaitsVerdict) : y.Fits (c.offer k) := by
  have hflight : ∀ l, c.offer k ≠ .inFlight l := fun l => by cases c <;> nofun
  exact ⟨fun h => hblock (offered_offer h).symm, fun h => hend (offered_offer h).symm, fun h => absurd h (hflight _),
    fun h => absurd h (hflight _),
    fun h => h.elim (fun h => hbusy (offered_offer h).symm) fun h => absurd hpoll h, fun _ => hpoll⟩

section
variable {w : Prop} {o : Set Nat} {s : State} {a : Nat} {r : Runtime} {x : Session}

theorem Judged.state {p : Set Nat} (h : Judged a s r x) (hs : Sound w o p s) (ha : a ∉ o) : r.state = .image :=
  (hs.records a r ha h.runtime).1.1 (by rw [h.session]; nofun)

/-- The session changes in what neither the links nor the verdict speak of. -/
theorem Judged.mapSession (h : Judged a s r x) {f : Session → Session} (hpoll : (f x).pollTime = x.pollTime)
    (hsent : (f x).lastSent = x.lastSent) (hrequest : (f x).request = x.request) :
    Judged a (s.mapSession a f) { r with session := some (f x) } (f x) := by
  refine ⟨?_, rfl, h.off, hpoll.trans h.polled, ?_⟩
  · refine (runtime_mapRuntime_same h.runtime _).trans ?_
    rw [h.session]
    rfl
  · unfold Session.AwaitsVerdict
    rw [hsent, hrequest]
    exact h.verdict

/-- A step of an image kind becomes READY for the session of a node in IMAGE. -/
theorem Sound.offerImage {p : Set Nat} {k : StepKind} (h : Sound w o p s) (hr : s.runtime a = some r)
    (hx : r.session = some x) (hk : NodeState.image ∈ k.offeredIn) (hpoll : x.pollTime = none)
    (hblock : k = .imageBlock → x.request = .filled) (hend : k = .imageEnd → x.request = .none)
    (hbusy : k = .busyPoll → x.AwaitsVerdict) : Sound w o p (Machine.offerKind a k s) := by
  refine h.mapLinked (fun _ _ => rfl) fun _ v hv hsound => ?_
  rw [hr] at hv
  cases hv
  have hstate := hsound.1.1 (by rw [hx]; nofun)
  refine ⟨hsound.1, fun l hl => ?_, fun y hy => ?_⟩
  · rw [offered_offer hl]
    exact hstate ▸ hk
  · cases hx.symm.trans hy
    exact fits_offer hpoll hblock hend hbusy

theorem fits_off {y : Session} {c : StepCondition} (hoff : c.offered = none) (hpoll : y.pollTime = none) : y.Fits c := by
  have hflight : ∀ l, c ≠ .inFlight l := fun l hl => by rw [hl] at hoff; cases hoff
  unfold Session.Fits
  rw [hoff]
  exact ⟨nofun, nofun, fun h => absurd h (hflight _), fun h => absurd h (hflight _),
    fun h => h.elim nofun fun h => absurd hpoll h, fun _ => hpoll⟩

/-- A session whose step is off changes in what the links do not speak of. -/
theorem Sound.mapJudged {p : Set Nat} {f : Session → Session} (h : Sound w o p s) (hj : Judged a s r x)
    (hlink : ∀ y : Session, (f y).link = y.link) (hpoll : (f x).pollTime = x.pollTime) : Sound w o p (s.mapSession a f) := by
  refine h.mapLinked (fun v _ => ?_) fun _ v hv hsound => ?_
  · show (v.session.map f).map _ = _
    rw [Option.map_map]
    exact congrArg (fun g => v.session.map g) (funext hlink)
  · rw [hj.runtime] at hv
    cases hv
    obtain ⟨himage, hstep, -⟩ := hsound
    have hsession : r.session.map f = some (f x) := by rw [hj.session]; rfl
    refine ⟨⟨fun _ => himage.1 (by rw [hj.session]; nofun), fun _ => ?_⟩, hstep, fun y hy => ?_⟩
    · show r.session.map f ≠ none
      rw [hsession]
      nofun
    · cases hsession.symm.trans hy
      exact fits_off hj.off (hpoll.trans hj.polled)

/-- A poll of the verdict is due later (R152). -/
theorem Sound.schedulePoll {p : Set Nat} (h : Sound w o p s) (hj : Judged a s r x) : Sound w o p (Machine.schedulePoll a s) := by
  refine h.mapLinked (fun v _ => ?_) fun _ v hv hsound => ?_
  · show (v.session.map _).map _ = _
    rw [Option.map_map]
    rfl
  · rw [hj.runtime] at hv
    cases hv
    have hsession : r.session.map (fun x => { x with pollTime := some (after s.now s.params.busyPollInterval) }) =
        some { x with pollTime := some (after s.now s.params.busyPollInterval) } := by rw [hj.session]; rfl
    have hoff := offered_wait r.step
    refine ⟨⟨fun _ => hsound.1.1 (by rw [hj.session]; nofun), fun _ => ?_⟩, fun k hk => absurd (hoff.symm.trans hk) nofun,
      fun y hy => ?_⟩
    · show r.session.map _ ≠ none
      rw [hsession]
      nofun
    · cases hsession.symm.trans hy
      have hflight : ∀ l, r.step.wait ≠ .inFlight l := fun l hl => by rw [hl] at hoff; cases hoff
      refine ⟨fun h => absurd (hoff.symm.trans h) nofun, fun h => absurd (hoff.symm.trans h) nofun,
        fun h => absurd h (hflight _), fun h => absurd h (hflight _), fun _ => hj.verdict, fun h => absurd hoff h⟩

theorem Sound.attemptFailed (h : Sound w o ∅ s) (ha : a ∉ o) (hj : Judged a s r x) :
    Sound w o ∅ (Machine.attemptFailure a s) := h.attemptFailure ha hj.runtime hj.session hj.verdict.request

/-- A retry is counted: the step again, or an attempt failure (R150). -/
theorem Sound.countRetry {again : State → State} (h : Sound w o ∅ s) (ha : a ∉ o) (hj : Judged a s r x)
    (hagain : ∀ t r' x', Sound w o ∅ t → Judged a t r' x' → x'.lastSent = x.lastSent → x'.request = x.request →
      Sound w o ∅ (again t)) : Sound w o ∅ (Machine.countRetry a again s) := by
  have hcounted := h.mapJudged (f := fun x => { x with retries := x.retries + 1 }) hj (fun _ => rfl) rfl
  have hnext := hj.mapSession (f := fun x => { x with retries := x.retries + 1 }) rfl rfl rfl
  unfold Machine.countRetry
  rw [(session_of_runtime hj.runtime).trans hj.session]
  dsimp only
  split
  · exact hagain _ _ _ hcounted hnext rfl rfl
  · exact hcounted.attemptFailed ha hnext

theorem Sound.busyAgain (h : Sound w o ∅ s) (ha : a ∉ o) (hj : Judged a s r x) : Sound w o ∅ (Machine.busyAgain a s) := by
  have hcounted := h.mapJudged (f := fun x => { x with busyCount := x.busyCount + 1 }) hj (fun _ => rfl) rfl
  have hnext := hj.mapSession (f := fun x => { x with busyCount := x.busyCount + 1 }) rfl rfl rfl
  unfold Machine.busyAgain
  rw [(session_of_runtime hj.runtime).trans hj.session]
  dsimp only
  split
  · exact hcounted.schedulePoll hnext
  · exact hcounted.attemptFailed ha hnext

/-- The session of a stored block, before it goes on (R151). -/
def Session.stored (x : Session) : Session :=
  { x with next := x.next + 1, remaining := x.remaining - 1, retries := 0, busyCount := 0, lastSent := .none }

theorem Sound.blockStored (h : Sound w o ∅ s) (ha : a ∉ o) (hj : Judged a s r x) (hfilled : x.request = .filled) :
    Sound w o ∅ (Machine.blockStored a s) := by
  have hstored := h.mapJudged (f := Session.stored) hj (fun _ => rfl) rfl
  have hrecord : (s.mapSession a Session.stored).runtime a = some { r with session := some x.stored } := by
    refine (runtime_mapRuntime_same hj.runtime _).trans ?_
    rw [hj.session]
    rfl
  have hbuffers : (s.mapSession a Session.stored).restore.buffers = s.restore.buffers := buffers_mapRuntime ..
  have hstate := hj.state h ha
  unfold Machine.blockStored
  rw [(session_of_runtime hj.runtime).trans hj.session]
  dsimp only
  change Sound w o ∅ (if x.remaining - 1 = 0 then Machine.offerKind a .imageEnd (releaseBuffer a (s.mapSession a Session.stored))
    else match (s.mapSession a Session.stored).restore.waiting, x.buffer with
      | [], some b => Machine.startRead a b (s.mapSession a Session.stored)
      | _, _ => Machine.askBuffer a (releaseBuffer a (s.mapSession a Session.stored)))
  generalize s.mapSession a Session.stored = u at hstored hrecord hbuffers
  have hxu := session_of_runtime hrecord
  have hwait : x.stored.request ≠ .waitingList := by rw [show x.stored.request = x.request from rfl, hfilled]; nofun
  have hnot := not_waiting_of_request hstored hxu hwait
  obtain ⟨y, hy, -, hpoll, hnone, hsome⟩ := runtime_releaseBuffer hrecord rfl hnot
  have hreleased := hstored.release ha hxu hwait
  have hheld := (hstored.linked.holds a _ ha hxu).1
  have hbuffer : ∃ b data, x.buffer = some b ∧ u.restore.buffers[b]? = some (.filled a data) := by
    unfold Session.Held at hheld
    rw [show x.stored.request = x.request from rfl, show x.stored.buffer = x.buffer from rfl, hfilled] at hheld
    cases hb : x.buffer with
    | none => rw [hb] at hheld; exact hheld.elim
    | some b => rw [hb] at hheld; obtain ⟨data, hdata⟩ := hheld; exact ⟨b, data, rfl, hdata⟩
  obtain ⟨b, data, hb, hdata⟩ := hbuffer
  have hyreleased := hsome (by rw [show x.stored.buffer = x.buffer from rfl, hb]; nofun)
  split
  · have hfits : ∀ c : StepCondition, y.Fits (c.offer .imageEnd) := fun c =>
      fits_offer (hpoll.trans hj.polled) nofun (fun _ => by rw [hyreleased]; rfl) nofun
    refine (hreleased.mapRuntime (a := a) (f := fun r => { r with step := r.step.offer .imageEnd })
      (fun hnot => absurd (Set.mem_insert a o) hnot) (fun _ _ => rfl) fun hnot => absurd (Set.mem_insert a o) hnot).restored ?_ ?_
    · intro z hz
      rw [session_of_runtime (runtime_mapRuntime_same hy _)] at hz
      cases hz
      rw [hyreleased]
      exact ⟨rfl, rfl⟩
    · intro v hv
      rw [runtime_mapRuntime_same hy] at hv
      cases hv
      refine ⟨⟨fun _ => hstate, fun _ => nofun⟩, fun k hk => ?_, fun z hz => ?_⟩
      · rw [offered_offer hk]
        exact List.mem_singleton.2 hstate
      · cases hz
        exact hfits _
  · split
    · next c _ hc =>
      rw [hb] at hc
      cases hc
      have hunread : b ∉ u.readBuffers := fun hmem =>
        not_busy_of_filled hdata ((hstored.linked.read b (Set.notMem_empty b)).1 hmem)
      exact (hstored.detach ha hxu hb hunread).startRead ha (Set.notMem_empty b) hrecord rfl hstate hj.polled
    · exact hreleased.askBuffer ha hy rfl hstate (hpoll.trans hj.polled)

theorem Sound.imageVerified (h : Sound w o ∅ s) (ha : a ∉ o) (hconfigured : Configured a s) :
    Sound w o ∅ (Machine.imageVerified a s) := by
  unfold Machine.imageVerified
  split
  · exact h
  · next e _ =>
    have hexpected : Sound w o ∅ (s.mapRuntime a fun r => { r with expected := some e.version }) :=
      h.mapPlain fun _ => ⟨rfl, rfl, rfl⟩
    have hquiet : (Machine.endSession a (s.mapRuntime a fun r => { r with expected := some e.version })).quiet = s.quiet := by
      rw [endSession_quiet, mapRuntime_quiet]
    exact (hexpected.endSession ha).enterAwaitBoot ha (session_endSession a _) (hconfigured.of_quiet hquiet) _

theorem Sound.blockToken (h : Sound w o ∅ s) (ha : a ∉ o) (hj : Judged a s r x) (hfilled : x.request = .filled) (t : Token) :
    Sound w o ∅ (Machine.blockToken a t s) := by
  cases t with
  | good | verified => exact h.blockStored ha hj hfilled
  | checkFail =>
    exact h.countRetry ha hj fun t r' x' ht hj' _ hrequest =>
      ht.offerImage hj'.runtime hj'.session (by decide) hj'.polled (fun _ => hrequest.trans hfilled) nofun nofun
  | writeFail => exact h.attemptFailed ha hj
  | busy => exact h.schedulePoll hj

theorem Sound.endToken (h : Sound w o ∅ s) (ha : a ∉ o) (hj : Judged a s r x) (hconfigured : Configured a s) (t : Token) :
    Sound w o ∅ (Machine.endToken a t s) := by
  cases t with
  | verified => exact h.imageVerified ha hconfigured
  | busy => exact h.schedulePoll hj
  | good | checkFail | writeFail => exact h.attemptFailed ha hj

theorem Sound.pollToken (h : Sound w o ∅ s) (ha : a ∉ o) (hj : Judged a s r x) (hconfigured : Configured a s) (t : Token) :
    Sound w o ∅ (Machine.pollToken a t s) := by
  have hx := (session_of_runtime hj.runtime).trans hj.session
  have hother : Sound w o ∅
      (match s.session a with
      | some { lastSent := .imageEnd, .. } => Machine.endToken a t s
      | _ => Machine.blockToken a t s) := by
    rw [hx]
    split
    · exact h.endToken ha hj hconfigured t
    · next hsent =>
      refine h.blockToken ha hj ?_ t
      rcases hj.verdict with ⟨-, hfilled⟩ | ⟨hend, -⟩
      · exact hfilled
      · obtain ⟨entry, reported, next, remaining, lastSent, retries, busyCount, buffer, request, pollTime⟩ := x
        cases hend
        exact (hsent _ _ _ _ _ _ _ _ _ rfl).elim
  cases t with
  | busy => exact h.busyAgain ha hj
  | good | verified | checkFail | writeFail => exact hother

/-- A miss of an image step is counted (R150, R153). -/
def imageMiss (a : Nat) (k : StepKind) (s : State) : State :=
  match k with
  | .busyPoll => Machine.countRetry a (Machine.schedulePoll a) s
  | _ => Machine.countRetry a (Machine.offerKind a k) s

/-- The result of an image step (R150, R153, R154, R158). -/
theorem Sound.imageResult {k : StepKind} (h : Sound w o ∅ s) (ha : a ∉ o) (hj : Judged a s r x)
    (hconfigured : Configured a s) (hblock : k = .imageBlock → x.lastSent = .block)
    (hend : k = .imageEnd → x.lastSent = .imageEnd) (hk : NodeState.image ∈ k.offeredIn) (res : Result) :
    Sound w o ∅ (Machine.imageResult a k res s) := by
  have hfilled : ∀ {y : Session}, y.AwaitsVerdict → y.lastSent = .block → y.request = .filled := fun hv hsent => by
    rcases hv with ⟨-, h⟩ | ⟨h, -⟩
    · exact h
    · rw [hsent] at h; cases h
  have hunheld : ∀ {y : Session}, y.AwaitsVerdict → y.lastSent = .imageEnd → y.request = .none := fun hv hsent => by
    rcases hv with ⟨h, -⟩ | ⟨-, h⟩
    · rw [hsent] at h; cases h
    · exact h
  have hpoll : Sound w o ∅ (Machine.countRetry a (Machine.schedulePoll a) s) :=
    h.countRetry ha hj fun t r' x' ht hj' _ _ => ht.schedulePoll hj'
  have hagain : Sound w o ∅ (Machine.countRetry a (Machine.offerKind a k) s) :=
    h.countRetry ha hj fun t r' x' ht hj' hsent _ =>
      ht.offerImage hj'.runtime hj'.session hk hj'.polled (fun hb => hfilled hj'.verdict (hsent.trans (hblock hb)))
        (fun he => hunheld hj'.verdict (hsent.trans (hend he))) fun _ => hj'.verdict
  have hmiss : Sound w o ∅ (imageMiss a k s) := by
    unfold imageMiss
    split
    · exact hpoll
    · exact hagain
  unfold Machine.imageResult
  dsimp only
  split
  · split
    · exact hmiss
    · split
      · exact h.endedToProbe ha
      · split
        · exact h.blockToken ha hj (hfilled hj.verdict (hblock rfl)) _
        · exact h.endToken ha hj hconfigured _
        · exact h.pollToken ha hj hconfigured _
  all_goals exact hmiss

end

end Sys2Proof.Machine
end

section
/-! SUPPORT. Every event leaves sessions, buffers, pending reads and readers counts in agreement: results, starts, gaps, the
restart, the switch, and the ends of store accesses (R39, R45, R46, R56 to R61, R149, R161, R163, R169 to R178). -/

namespace Sys2Proof.Machine

/-- The agreement of R148, R169 and R145, with sound records, and nothing being served. -/
abbrev Agree (s : State) : Prop := Sound True ∅ ∅ s

section
variable {s : State} {a : Nat}

theorem notServed (a : Nat) : a ∉ (∅ : Set Nat) := Set.notMem_empty a

/-! ### Probes and reconciliation (R42 to R46) -/

theorem offered_of_state {w : Prop} {o p : Set Nat} {s : State} {r : Runtime} {k : StepKind} (h : Sound w o p s) (ha : a ∉ o)
    (hr : s.runtime a = some r) (hk : r.step.offered = some k) : r.state ∈ k.offeredIn := (h.records a r ha hr).2.1 k hk

theorem Agree.nextProbeInWindow (h : Agree s) (a : Nat) (hstate : s.nodeState a ≠ .image) :
    Agree (Machine.nextProbeInWindow a s) := by
  obtain ⟨hexempt, hidle⟩ := h.exemptIdle (notServed a) hstate
  refine h.mapLinked (fun r _ => ?_) fun _ r hr hsound => ?_
  · split <;> rfl
  · rw [nodeState_of_runtime hr] at hstate
    split
    · refine recordSound_idle (hsound.session_none hstate) hstate fun k hk => ?_
      dsimp only at hk
      split at hk
      · exact absurd ((offered_cancel r.step).symm.trans hk) nofun
      · exact absurd ((offered_wait r.step).symm.trans hk) nofun
    · exact hsound

theorem Agree.probeMiss (h : Agree s) (a : Nat) (hconfigured : Configured a s) : Agree (Machine.probeMiss a s) := by
  unfold Machine.probeMiss
  split
  · exact h
  · next r hr =>
    have hmissed : Agree (s.mapRuntime a fun r => { r with misses := r.misses + 1 }) := h.mapPlain fun _ => ⟨rfl, rfl, rfl⟩
    have hrm := runtime_mapRuntime_same hr fun r => { r with misses := r.misses + 1 }
    split
    · next hstate =>
      dsimp only
      have himage : (s.mapRuntime a fun r => { r with misses := r.misses + 1 }).nodeState a ≠ .image := by
        rw [nodeState_of_runtime hrm]
        show r.state ≠ _
        rw [hstate]
        nofun
      split
      · refine hmissed.offerKind fun v hv => ?_
        rw [hrm] at hv
        cases hv
        show r.state ≠ _ ∧ r.state ∈ _
        rw [hstate]
        exact ⟨nofun, by decide⟩
      · obtain ⟨hexempt, hidle⟩ := hmissed.exemptIdle (notServed a) himage
        exact hexempt.enterAwaitBoot (notServed a) hidle (hconfigured.of_quiet (mapRuntime_quiet ..)) _
    · next hstate => exact h.nextProbeInWindow a (by rw [nodeState_of_runtime hr, hstate]; nofun)
    · next hstate =>
      refine h.mapLinked (fun _ _ => rfl) fun _ v hv hsound => ?_
      rw [hr] at hv
      cases hv
      exact recordSound_idle (hsound.session_none (by rw [hstate]; nofun)) (by rw [hstate]; nofun) fun k hk =>
        absurd ((offered_wait r.step).symm.trans hk) nofun
    · exact h

theorem Agree.reconcileKept {r : Runtime} (h : Agree s) (hr : s.runtime a = some r) (hstate : r.state ≠ .image)
    (hconfigured : Configured a s) : Agree (Machine.reconcileKept a r s) := by
  have himage : s.nodeState a ≠ .image := by rw [nodeState_of_runtime hr]; exact hstate
  unfold Machine.reconcileKept
  split
  · exact h.onwardFrom (notServed a) himage
  · split
    · exact h.nextProbeInWindow a himage
    · obtain ⟨hexempt, hidle⟩ := h.exemptIdle (notServed a) himage
      exact hexempt.enterAwaitBoot (notServed a) hidle hconfigured _
    · exact h.attemptFailureOutside (notServed a) hr hstate none
    · exact h

theorem Agree.decideImage {r : Runtime} (h : Agree s) (hr : s.runtime a = some r) (hstate : r.state ≠ .image)
    (e : NodeEntry) (rep : StatusReport) : Agree (Machine.decideImage a e rep s) := by
  obtain ⟨hexempt, hidle⟩ := h.exemptIdle (notServed a) (by rw [nodeState_of_runtime hr]; exact hstate)
  unfold Machine.decideImage
  dsimp only
  split
  · exact hexempt.enterConfig hidle
  · exact h.enterFailed (notServed a)
  · split
    · next i img hfound =>
      obtain ⟨c, hc⟩ := place_of_lookup hfound
      exact hexempt.enterImage (notServed a) hr hidle hc _ img _
    · exact h.enterFailed (notServed a)

theorem renewShadow_only (a : Nat) (s : State) : ∃ x, renewShadow a s = s.withShadow x := onlyShadow_renewShadow a s

/-- The record of a node whose new count has been taken (R46). -/
def markedRecord (marker : Byte) (r : Runtime) : Runtime :=
  { r with bootCount := some marker, noReply := 0, attempts := if r.expected = none then 0 else r.attempts }

/-- The steps of R46 after the count has been taken and the shadow renewed. -/
def judgeReport (a : Nat) (r : Runtime) (rep : StatusReport) (s : State) : State :=
  match s.entry a with
  | none => s
  | some e =>
    if rep.kind ≠ e.kind then enterFailed a s
    else
      match r.expected with
      | some v =>
        if rep.image = .intact ∧ rep.running = v then enterConfig a (s.mapRuntime a (fun r => { r with expected := none }))
        else attemptFailureOutside a (some rep.image) s
      | none => decideImage a e rep s

theorem reconcileChanged_eq (a : Nat) (r : Runtime) (marker : Byte) (rep : StatusReport) (s : State) :
    reconcileChanged a r marker rep s = judgeReport a r rep (renewShadow a (s.mapRuntime a (markedRecord marker))) := rfl

theorem Agree.judgeReport {v : Runtime} (h : Agree s) (hv : s.runtime a = some v) (hstate : v.state ≠ .image)
    (r : Runtime) (rep : StatusReport) : Agree (Machine.judgeReport a r rep s) := by
  unfold Machine.judgeReport
  split
  · exact h
  · next e _ =>
    split
    · exact h.enterFailed (notServed a)
    · split
      · split
        · have hgone : Agree (s.mapRuntime a fun r => { r with expected := none }) := h.mapPlain fun _ => ⟨rfl, rfl, rfl⟩
          obtain ⟨hexempt, hidle⟩ := hgone.exemptIdle (notServed a) (by
            rw [nodeState_of_runtime (runtime_mapRuntime_same hv _)]
            exact hstate)
          exact hexempt.enterConfig hidle
        · exact h.attemptFailureOutside (notServed a) hv hstate _
      · exact h.decideImage hv hstate e rep

theorem Agree.reconcileChanged {r : Runtime} (h : Agree s) (hr : s.runtime a = some r) (hstate : r.state ≠ .image)
    (marker : Byte) (rep : StatusReport) : Agree (Machine.reconcileChanged a r marker rep s) := by
  rw [reconcileChanged_eq]
  have hmarked : Agree (s.mapRuntime a (markedRecord marker)) := h.mapPlain fun _ => ⟨rfl, rfl, rfl⟩
  have hrm := runtime_mapRuntime_same hr (markedRecord marker)
  obtain ⟨x, hx⟩ := renewShadow_only a (s.mapRuntime a (markedRecord marker))
  rw [hx]
  exact Agree.judgeReport (s := (s.mapRuntime a (markedRecord marker)).withShadow x) (hmarked.of_restore rfl rfl) hrm hstate r rep

theorem Agree.reconcile (h : Agree s) (a : Nat) (hconfigured : Configured a s) (marker : Byte) (rep : StatusReport) :
    Agree (Machine.reconcile a marker rep s) := by
  have hstep : ∀ r, s.runtime a = some r → r.state ≠ .image →
      Agree (if r.bootCount = some marker then Machine.reconcileKept a r s else Machine.reconcileChanged a r marker rep s) := by
    intro r hr hstate
    split
    · exact h.reconcileKept hr hstate hconfigured
    · exact h.reconcileChanged hr hstate marker rep
  unfold Machine.reconcile
  split
  · exact h
  · next r hr =>
    split
    · next hstate => exact hstep r hr (by rw [hstate]; nofun)
    · next hstate => exact hstep r hr (by rw [hstate]; nofun)
    · next hstate => exact hstep r hr (by rw [hstate]; nofun)
    · exact h

theorem Agree.probeResult (h : Agree s) (a : Nat) (hconfigured : Configured a s) (res : Result) :
    Agree (Machine.probeResult a res s) := by
  unfold Machine.probeResult
  split
  · split
    · exact h.reconcile a hconfigured _ _
    · exact h.probeMiss a hconfigured
  all_goals exact h.probeMiss a hconfigured

/-! ### Config, replay and release steps (R50, R120, R136) -/

theorem nodeState_mapRuntime_kept {f : Runtime → Runtime} (hf : ∀ r, (f r).state = r.state) (s : State) (a b : Nat) :
    (s.mapRuntime a f).nodeState b = s.nodeState b := by
  by_cases hb : b = a
  · subst hb
    cases hr : s.runtime b with
    | none => rw [mapRuntime_of_none hr]
    | some r => rw [nodeState_of_runtime (runtime_mapRuntime_same hr f), nodeState_of_runtime hr, hf]
  · unfold State.nodeState
    rw [runtime_mapRuntime_other s hb]

theorem Agree.stepMiss {again : State → State} (h : Agree s) (a : Nat) (hstate : s.nodeState a ≠ .image)
    (hagain : ∀ t, Agree t → t.nodeState a = s.nodeState a → Agree (again t)) : Agree (Machine.stepMiss a again s) := by
  unfold Machine.stepMiss
  split
  · exact h
  · have hmissed : Agree (s.mapRuntime a fun r => { r with misses := r.misses + 1 }) := h.mapPlain fun _ => ⟨rfl, rfl, rfl⟩
    have hsame := nodeState_mapRuntime_kept (f := fun r => { r with misses := r.misses + 1 }) (fun _ => rfl) s a a
    dsimp only
    split
    · exact hagain _ hmissed hsame
    · exact hmissed.probeFrom (notServed a) (by rw [hsame]; exact hstate)

theorem Agree.offerIn {k : StepKind} {st : NodeState} (h : Agree s) (hstate : s.nodeState a = st) (himage : st ≠ .image)
    (hk : st ∈ k.offeredIn) : Agree (Machine.offerKind a k s) :=
  h.offerKind fun r hr => by
    rw [nodeState_of_runtime hr] at hstate
    rw [hstate]
    exact ⟨himage, hk⟩

theorem Agree.configResult (h : Agree s) (hstate : s.nodeState a = .config) (res : Result) :
    Agree (Machine.configResult a res s) := by
  have himage : s.nodeState a ≠ .image := by rw [hstate]; nofun
  have hmiss : Agree (Machine.stepMiss a (Machine.offerKind a .config) s) :=
    h.stepMiss a himage fun t ht hsame => ht.offerIn (hsame.trans hstate) nofun (by decide)
  unfold Machine.configResult
  split
  · split
    · exact h.probeFrom (notServed a) himage
    · split
      · exact h.onwardFrom (notServed a) himage
      · exact h.enterFailed (notServed a)
  all_goals exact hmiss

theorem Agree.replayOn (h : Agree s) (hstate : s.nodeState a = .replay) : Agree (Machine.replayOn a s) := by
  unfold Machine.replayOn
  split
  · exact h.offerIn hstate nofun (by decide)
  · exact h.onwardFrom (notServed a) (by rw [hstate]; nofun)

theorem clearReplayed_only (a : Nat) (s : State) : ∃ x, clearReplayed a s = s.withShadow x := by
  unfold clearReplayed
  split
  · split
    · split <;> exact ⟨_, rfl⟩
    · exact ⟨_, rfl⟩
  · exact ⟨_, rfl⟩

/-- The record of a node whose replay step has been answered (R120). -/
def repliedRecord (k : ReplyKind) (x : Runtime) : Runtime :=
  { x with misses := 0, refusals := if k = .refuse then x.refusals + 1 else x.refusals }

theorem Agree.replayResult (h : Agree s) (hstate : s.nodeState a = .replay) (res : Result) :
    Agree (Machine.replayResult a res s) := by
  have hmiss : Agree (Machine.stepMiss a (Machine.replayOn a) (s.setReplayInFlight a none)) :=
    Agree.stepMiss (s := s.setReplayInFlight a none) (h.of_restore rfl rfl) a
      (by rw [show (s.setReplayInFlight a none).nodeState a = _ from hstate]; nofun)
      fun t ht hsame => ht.replayOn (hsame.trans hstate)
  unfold Machine.replayResult
  split
  · next r =>
    dsimp only
    obtain ⟨x, hx⟩ := clearReplayed_only a s
    have hcleared : Agree ((clearReplayed a s).setReplayInFlight a none) := by rw [hx]; exact h.of_restore rfl rfl
    have hsame : ((clearReplayed a s).setReplayInFlight a none).nodeState a = .replay := by rw [hx]; exact hstate
    generalize (clearReplayed a s).setReplayInFlight a none = u at hcleared hsame
    have hcounted : Agree (u.mapRuntime a (repliedRecord r.kind)) := hcleared.mapPlain fun _ => ⟨rfl, rfl, rfl⟩
    have hreplay := (nodeState_mapRuntime_kept (f := repliedRecord r.kind) (fun _ => rfl) u a a).trans hsame
    change Agree (if (u.mapRuntime a (repliedRecord r.kind)).markerChanged a r.marker then
      Machine.enterProbe a (u.mapRuntime a (repliedRecord r.kind)) else Machine.replayOn a (u.mapRuntime a (repliedRecord r.kind)))
    split
    · exact hcounted.probeFrom (notServed a) (by rw [hreplay]; nofun)
    · exact hcounted.replayOn hreplay
  all_goals exact hmiss

theorem stores_captureReleased (a : Nat) (e : HoldEntry) (k : ReplyKind) (s : State) : Stores s (captureReleased a e k s) := by
  unfold captureReleased
  split
  · split
    · unfold captureDelivered
      split
      · split
        · exact .refl s
        · exact stores_capture ..
      · exact stores_capture ..
    · exact .refl s
  · exact .refl s

end

section
variable {s : State} {a : Nat}

theorem nodeState_congr {s t : State} (h : t.restore = s.restore) (a : Nat) : t.nodeState a = s.nodeState a := by
  unfold State.nodeState State.runtime; rw [h]

/-- What a release step's valid reply has done before the node goes on (R136). -/
def releaseTaken (a : Nat) (e : HoldEntry) (rest : List HoldEntry) (r : Reply) (s : State) : State :=
  ((captureReleased a e r.kind (makeReport e .delivered (replyBytes r) s)).setQueue a rest).mapRuntime a
    fun x => { x with misses := 0 }

theorem Agree.releaseResult (h : Agree s) (hstate : s.nodeState a = .release) (res : Result) :
    Agree (Machine.releaseResult a res s) := by
  unfold Machine.releaseResult
  split
  · exact h
  · next e rest _ =>
    have hmiss : Agree (match s.runtime a with
        | none => s
        | some x =>
          let s1 := s.mapRuntime a (fun r => { r with misses := r.misses + 1 })
          if x.misses + 1 ≤ s.params.passRetries then
            Machine.offerKind a .release (s1.setQueue a ({ e with inFlight := false } :: rest))
          else Machine.enterProbe a ((makeReport e .noReply [] s1).setQueue a rest)) := by
      split
      · exact h
      · have hmissed : Agree (s.mapRuntime a fun r => { r with misses := r.misses + 1 }) :=
          h.mapPlain fun _ => ⟨rfl, rfl, rfl⟩
        have hsame := (nodeState_mapRuntime_kept (f := fun r => { r with misses := r.misses + 1 }) (fun _ => rfl) s a a).trans hstate
        dsimp only
        generalize (s.mapRuntime a fun r => { r with misses := r.misses + 1 }) = u at hmissed hsame
        split
        · have hqueued : Agree (u.setQueue a ({ e with inFlight := false } :: rest)) := hmissed.of_restore rfl rfl
          exact hqueued.offerIn (s := u.setQueue a _) hsame nofun (by decide)
        · have hreported := hmissed.reports (reports_makeReport e .noReply [] u)
          have hrelease : (makeReport e .noReply [] u).nodeState a = .release :=
            (nodeState_congr (reports_makeReport e .noReply [] u).stores.restore.1 a).trans hsame
          generalize makeReport e .noReply [] u = v at hreported hrelease
          have hqueued : Agree (v.setQueue a rest) := hreported.of_restore rfl rfl
          exact hqueued.probeFrom (notServed a) (by rw [show (v.setQueue a rest).nodeState a = _ from hrelease]; nofun)
    split
    · next r =>
      have hstores := ((reports_makeReport e .delivered (replyBytes r) s).stores.trans
        (stores_captureReleased a e r.kind _)).trans (stores_setQueue _ a rest)
      have htaken : Agree (releaseTaken a e rest r s) := (h.stores hstores).mapPlain fun _ => ⟨rfl, rfl, rfl⟩
      have hrelease : (releaseTaken a e rest r s).nodeState a = .release :=
        (nodeState_mapRuntime_kept (f := fun x => { x with misses := 0 }) (fun _ => rfl) _ a a).trans
          ((hstores.nodeState a).trans hstate)
      change Agree (if (releaseTaken a e rest r s).markerChanged a r.marker then Machine.enterProbe a (releaseTaken a e rest r s)
        else if !rest.isEmpty then Machine.offerKind a .release (releaseTaken a e rest r s)
        else Machine.onward a (releaseTaken a e rest r s))
      generalize releaseTaken a e rest r s = u at htaken hrelease
      split
      · exact htaken.probeFrom (notServed a) (by rw [hrelease]; nofun)
      · split
        · exact htaken.offerIn hrelease nofun (by decide)
        · exact htaken.onwardFrom (notServed a) (by rw [hrelease]; nofun)
    all_goals exact hmiss

/-! ### The end of a transaction (R39, R66 to R70) -/

/-- The step of a node that has just ended is off. -/
def steppedOff (r : Runtime) : Runtime := { r with step := .none }

theorem recordSound_off {r : Runtime} (h : RecordSound r) : RecordSound (steppedOff r) := by
  refine ⟨h.1, nofun, fun x hx => ?_⟩
  obtain ⟨-, -, -, -, hpoll, -⟩ := h.2.2 x hx
  exact ⟨nofun, nofun, nofun, nofun, fun h => hpoll (.inr (h.resolve_left nofun)), fun h => absurd rfl h⟩

/-- A session whose frame was in flight awaits the verdict on the frame last sent. -/
theorem verdict_of_flight {x : Session} {k : StepKind} (h : x.Fits (.inFlight k)) (hk : NodeState.image ∈ k.offeredIn) :
    x.AwaitsVerdict ∧ (k = .imageBlock → x.lastSent = .block) ∧ (k = .imageEnd → x.lastSent = .imageEnd) ∧ x.pollTime = none := by
  obtain ⟨hblock, hend, hsentBlock, hsentEnd, hpoll, hoff⟩ := h
  have hpolled := hoff nofun
  cases k with
  | imageBlock => exact ⟨.inl ⟨hsentBlock rfl, hblock rfl⟩, fun _ => hsentBlock rfl, nofun, hpolled⟩
  | imageEnd => exact ⟨.inr ⟨hsentEnd rfl, hend rfl⟩, nofun, fun _ => hsentEnd rfl, hpolled⟩
  | busyPoll => exact ⟨hpoll (.inl rfl), nofun, nofun, hpolled⟩
  | probe => exact absurd hk (by decide)
  | config => exact absurd hk (by decide)
  | replay => exact absurd hk (by decide)
  | release => exact absurd hk (by decide)

theorem Agree.stepEnded (h : Agree s) (a : Nat) (hconfigured : Configured a s) (res : Result) :
    Agree (Machine.stepEnded a res s) := by
  unfold Machine.stepEnded
  split
  · exact h.clearInFlight (notServed a)
  · next r hr =>
    have hsound := h.records a r (notServed a) hr
    have hrecord := runtime_mapRuntime_same hr steppedOff
    have hu : Agree (s.mapRuntime a steppedOff) := h.mapLinked (fun _ _ => rfl) fun _ _ _ hv => recordSound_off hv
    have hc : Configured a (s.mapRuntime a steppedOff) := hconfigured.of_quiet (mapRuntime_quiet ..)
    have hstate : (s.mapRuntime a steppedOff).nodeState a = r.state := by
      rw [nodeState_of_runtime hrecord]; rfl
    change Agree (match r.step with
      | .inFlight k => applyStep a k res (s.mapRuntime a steppedOff)
      | _ => Machine.offerFirstStep a (Machine.clearInFlight a (s.mapRuntime a steppedOff)))
    split
    · next k hk =>
      have hin : r.state ∈ k.offeredIn := hsound.2.1 k (by rw [hk]; rfl)
      generalize s.mapRuntime a steppedOff = u at hu hrecord hc hstate
      have himage : NodeState.image ∈ k.offeredIn → r.state = .image → Agree (Machine.imageResult a k res u) := fun hki himg => by
        obtain ⟨x, hx⟩ := Option.ne_none_iff_exists'.1 (hsound.1.2 himg)
        have hfits := hsound.2.2 x hx
        rw [hk] at hfits
        obtain ⟨hverdict, hblock, hend, hpolled⟩ := verdict_of_flight hfits hki
        exact Sound.imageResult hu (notServed a) ⟨hrecord, hx, rfl, hpolled, hverdict⟩ hc hblock hend hki res
      cases k with
      | probe => exact hu.probeResult a hc res
      | config => exact hu.configResult (hstate.trans (List.mem_singleton.1 hin)) res
      | replay => exact hu.replayResult (hstate.trans (List.mem_singleton.1 hin)) res
      | release => exact hu.releaseResult (hstate.trans (List.mem_singleton.1 hin)) res
      | imageBlock => exact himage (by decide) (List.mem_singleton.1 hin)
      | imageEnd => exact himage (by decide) (List.mem_singleton.1 hin)
      | busyPoll => exact himage (by decide) (List.mem_singleton.1 hin)
    · exact (hu.clearInFlight (notServed a)).offerFirstStep a

/-! ### Pass transactions (R69 to R71) -/

theorem Agree.countNoReply (h : Agree s) (a : Nat) : Agree (Machine.countNoReply a s) := by
  unfold Machine.countNoReply
  split
  · exact h
  · next r hr =>
    split
    · next hstate =>
      have hcounted : Agree (s.mapRuntime a fun r => { r with noReply := r.noReply + 1 }) := h.mapPlain fun _ => ⟨rfl, rfl, rfl⟩
      dsimp only
      split
      · refine hcounted.probeFrom (notServed a) ?_
        rw [nodeState_mapRuntime_kept (f := fun r => { r with noReply := r.noReply + 1 }) (fun _ => rfl), nodeState_of_runtime hr,
          hstate]
        nofun
      · exact hcounted
    · exact h

theorem Agree.checkPassMarker (h : Agree s) (a : Nat) (marker : Byte) : Agree (Machine.checkPassMarker a marker s) := by
  have hprobe : s.nodeState a ≠ .image → Agree (if s.markerChanged a marker then Machine.enterProbe a s else s) := fun hstate => by
    split
    · exact h.probeFrom (notServed a) hstate
    · exact h
  unfold Machine.checkPassMarker
  split
  · next hstate => exact hprobe (by rw [hstate]; nofun)
  · next hstate => exact hprobe (by rw [hstate]; nofun)
  · next hstate => exact hprobe (by rw [hstate]; nofun)
  · next hstate => exact hprobe (by rw [hstate]; nofun)
  · exact h

theorem stores_captureDelivered (a k : Nat) (c : CapturedFrame) (s : State) : Stores s (captureDelivered a k c s) := by
  unfold captureDelivered
  split
  · split
    · exact .refl s
    · exact stores_capture ..
  · exact stores_capture ..

theorem Agree.passDone (h : Agree s) (t : Transaction) (e : PassEntry) (r : Reply) : Agree (Machine.passDone t e r s) := by
  have hanswered := h.stores (stores_answerPass e .done (replyBytes r) s)
  unfold Machine.passDone
  dsimp only
  generalize answerPass e .done (replyBytes r) s = u at hanswered
  split
  · exact hanswered
  · refine Agree.checkPassMarker (Sound.mapLinked ?_ (fun v _ => ?_) fun _ v _ hv => ?_) _ _
    · split
      · split
        · exact hanswered.stores (stores_captureDelivered ..)
        · exact hanswered
      · exact hanswered
    · split <;> rfl
    · split
      · exact recordSound_of_step hv rfl rfl rfl
      · exact hv

theorem Agree.passLost (h : Agree s) (e : PassEntry) (c : AnswerCode) : Agree (Machine.passLost e c s) := by
  have hlost : Agree ((answerPass e c [] s).mapRuntime e.destination fun r => { r with passNoReplies := r.passNoReplies + 1 }) :=
    (h.stores (stores_answerPass e c [] s)).mapPlain fun _ => ⟨rfl, rfl, rfl⟩
  unfold Machine.passLost
  dsimp only
  split
  · exact hlost.countNoReply _
  · exact hlost

theorem Agree.passMiss (h : Agree s) (e : PassEntry) : Agree (Machine.passMiss e s) := by
  unfold Machine.passMiss
  dsimp only
  split
  · split
    · unfold reenter
      split <;> exact h.of_restore rfl rfl
    · exact h.passLost _ _
  · split
    · unfold reenter
      split <;> exact h.of_restore rfl rfl
    · exact h.passLost _ _
  · exact h.passLost _ _
  · exact h.passLost _ _

theorem stores_broadcastMember (e : PassEntry) (a : Nat) (s : State) : Stores s (broadcastMember e a s) := by
  unfold broadcastMember
  split
  · split
    · exact stores_capture ..
    · exact .refl s
  · split
    · exact stores_absentTreatment e a s
    · exact .refl s

theorem stores_broadcastEnded (e : PassEntry) (s : State) : Stores s (broadcastEnded e s) :=
  (stores_answerPass e .done [] s).trans (stores_forNodes (stores_broadcastMember e) _ _)

theorem Agree.transactionEnded (h : Agree s) (t : Transaction) (res : Result) (line : Line)
    (hconfigured : ∀ a, Configured a s) : Agree (Machine.transactionEnded t res line s) := by
  have hline : Agree (s.withSegment { s.segment with line := line }) := h.of_restore rfl rfl
  have hflagged : Agree (if res = .badCheck then raiseFlag .segmentCheck (s.withSegment { s.segment with line := line })
      else s.withSegment { s.segment with line := line }) := by
    split
    · exact hline.reports (reports_raiseFlag _ _)
    · exact hline
  have hc : ∀ a, Configured a (if res = .badCheck then raiseFlag .segmentCheck (s.withSegment { s.segment with line := line })
      else s.withSegment { s.segment with line := line }) := fun a => by
    split
    · obtain ⟨_, _, hr⟩ := reports_raiseFlag .segmentCheck (s.withSegment { s.segment with line := line })
      rw [hr]
      exact hconfigured a
    · exact hconfigured a
  unfold Machine.transactionEnded
  dsimp only
  split
  · next e _ =>
    unfold passEnded
    split
    · exact Agree.passDone hflagged _ _ _
    all_goals exact Agree.passMiss hflagged _
  · exact Agree.stepEnded hflagged _ (hc _) res

end

section
variable {s : State} {a : Nat}

theorem Sound.forNodes {w : Prop} {o p : Set Nat} {f : Nat → State → State} (hf : ∀ a t, Sound w o p t → Sound w o p (f a t))
    (l : List Nat) (h : Sound w o p s) : Sound w o p (Machine.forNodes l f s) :=
  forNodes_keeps (P := Sound w o p) hf l h

/-! ### Gaps (R24 to R30, R56, R57) -/

theorem OnlyReserves.restore {t : State} (h : OnlyReserves s t) : t.restore = s.restore ∧ t.store = s.store := by
  obtain ⟨_, rfl⟩ := h
  exact ⟨rfl, rfl⟩

theorem Agree.confirmGapStart (h : Agree s) (start : Time) : Agree (Machine.confirmGapStart start s) := by
  have hgap : Agree (s.withGap
      { s.gap with condition := .inGap start, aged := false, gapSet := addresses.filter s.isFed }) := h.of_restore rfl rfl
  unfold Machine.confirmGapStart
  dsimp only
  refine Sound.reports (Sound.returnPasses ?_ _) (reports_offerGap ..)
  refine Sound.forNodes (fun a t ht => ht.suspendMember (notServed a)) _ ?_
  refine Sound.forNodes (fun a t ht => ?_) _ hgap
  have hreserves := onlyReserves_rechargeNode start a t
  exact ht.of_restore hreserves.restore.1 hreserves.restore.2

theorem Agree.memberAtGapEnd (h : Agree s) (edge : Time) (a : Nat) (c : GapClass) (hconfigured : Configured a s) :
    Agree (Machine.memberAtGapEnd edge a c s) := by
  have hkeeps : ∀ r, (countClass c r).session = r.session ∧ (countClass c r).state = r.state ∧ (countClass c r).step = r.step :=
    fun r => by cases c <;> exact ⟨rfl, rfl, rfl⟩
  have hcounted : Agree (s.mapRuntime a (countClass c)) := h.mapPlain hkeeps
  have hc : Configured a (s.mapRuntime a (countClass c)) := hconfigured.of_quiet (mapRuntime_quiet ..)
  unfold Machine.memberAtGapEnd
  dsimp only
  generalize s.mapRuntime a (countClass c) = u at hcounted hc
  split
  · exact hcounted
  · next r hr =>
    have hnot : ∀ st, r.state = st → st ≠ .image → u.nodeState a ≠ .image := fun st hst hne => by
      rw [nodeState_of_runtime hr, hst]; exact hne
    have haway : ∀ (v : State), Agree v → Configured a v → v.nodeState a ≠ .image → Agree (Machine.enterAwaitBoot a edge v) :=
      fun v hv hcv hst => by
        obtain ⟨hexempt, hidle⟩ := hv.exemptIdle (notServed a) hst
        exact hexempt.enterAwaitBoot (notServed a) hidle hcv edge
    split
    · next hst =>
      split
      · exact hcounted.onwardFrom (notServed a) (hnot _ hst nofun)
      · exact hcounted.probeFrom (notServed a) (hnot _ hst nofun)
    · next hst => exact hcounted.probeFrom (notServed a) (hnot _ hst nofun)
    · next hst => exact haway u hcounted hc (hnot _ hst nofun)
    · next hst =>
      refine haway _ (hcounted.mapPlain (f := fun r => { r with attempts := 0 }) fun _ => ⟨rfl, rfl, rfl⟩)
        (hc.of_quiet (mapRuntime_quiet ..)) ?_
      rw [nodeState_mapRuntime_kept (f := fun r => { r with attempts := 0 }) (fun _ => rfl)]
      exact hnot _ hst nofun
    · exact hcounted

theorem memberAtGapEnd_configured {b : Nat} (h : Configured b s) (edge : Time) (a : Nat) (c : GapClass) :
    Configured b (memberAtGapEnd edge a c s) := h.of_quiet (memberAtGapEnd_quiet ..)

theorem Agree.confirmGapEnd (h : Agree s) (start edge : Time) (hconfigured : ∀ a, Configured a s) :
    Agree (Machine.confirmGapEnd start edge s) := by
  obtain ⟨x, y, z, heq⟩ := confirmGapEnd_eq start edge s
  obtain ⟨v, hv⟩ := onlyReserves_settledReserves edge (s.gapDuration start edge) s
  have hsettled : Agree (settledReserves edge (s.gapDuration start edge) s)
      ∧ ∀ b, Configured b (settledReserves edge (s.gapDuration start edge) s) := by
    rw [hv]
    exact ⟨h.of_restore rfl rfl, hconfigured⟩
  have hmoved := forNodes_keeps (P := fun t => Agree t ∧ ∀ b, Configured b t)
    (f := fun a => Machine.memberAtGapEnd edge a (s.classOf (s.gapDuration start edge) a))
    (fun a t ht => ⟨ht.1.memberAtGapEnd edge a _ (ht.2 a), fun b => memberAtGapEnd_configured (ht.2 b) edge a _⟩)
    s.gap.gapSet hsettled
  have hnotice := hmoved.1.reports (reports_offerGap 1 edge (s.gapDuration start edge) x y z _)
  rw [heq]
  exact hnotice.of_restore rfl rfl

/-! ### Starts of restore steps (R64, R119, R149, R154) -/

/-- A session whose step goes out fits it, the frame that goes out noted as the last sent. -/
theorem fits_sent {x y : Session} {k : StepKind} {c : StepCondition} (h : x.Fits (.ready k)) (hc : c.offered = some k)
    (hrequest : y.request = x.request) (hpoll : y.pollTime = x.pollTime) (hblock : k = .imageBlock → y.lastSent = .block)
    (hend : k = .imageEnd → y.lastSent = .imageEnd) (hbusy : k = .busyPoll → y.lastSent = x.lastSent) : y.Fits c := by
  obtain ⟨hfilled, hunheld, -, -, hverdict, hoff⟩ := h
  have hpolled := hoff nofun
  have hflight : ∀ l, c = .inFlight l → l = k := fun l hl => by rw [hl] at hc; cases hc; rfl
  unfold Session.Fits
  rw [hc, hrequest, hpoll]
  refine ⟨hfilled, hunheld, fun hl => hblock (hflight _ hl).symm, fun hl => hend (hflight _ hl).symm, fun hb => ?_,
    fun _ => hpolled⟩
  have hk : k = .busyPoll := by
    rcases hb with hb | hb
    · cases hb; rfl
    · exact absurd hpolled hb
  rw [hbusy hk]
  exact hverdict (.inl (by rw [hk]; rfl))

/-- The frame of an image step is noted as the last sent (R149, R154). -/
theorem Agree.noteSent {r : Runtime} {k : StepKind} {l : FrameLastSent} (h : Agree s) (hr : s.runtime a = some r)
    (hready : r.step = .ready k) (hblock : k = .imageBlock → l = .block) (hend : k = .imageEnd → l = .imageEnd)
    (hbusy : k ≠ .busyPoll) : Agree (s.mapSession a fun x => { x with lastSent := l, busyCount := 0 }) := by
  refine h.mapLinked (fun v _ => ?_) fun _ v hv hsound => ?_
  · show (v.session.map _).map _ = _
    rw [Option.map_map]
    rfl
  · rw [hr] at hv
    cases hv
    obtain ⟨himage, hstep, hfits⟩ := hsound
    refine ⟨?_, hstep, fun y hy => ?_⟩
    · rw [← himage]
      show r.session.map _ ≠ none ↔ _
      exact not_congr Option.map_eq_none_iff
    · obtain ⟨x, hx, rfl⟩ := Option.map_eq_some_iff.1 hy
      have hx' := hfits x hx
      rw [hready] at hx'
      refine fits_sent hx' ?_ rfl rfl hblock hend fun hk => absurd hk hbusy
      show r.step.offered = some k
      rw [hready]
      rfl

theorem reserveRelease_restore (a : Nat) (s : State) :
    (reserveRelease a s).restore = s.restore ∧ (reserveRelease a s).store = s.store := by
  unfold reserveRelease
  split
  · split <;> exact ⟨rfl, rfl⟩
  · exact ⟨rfl, rfl⟩

/-- What the start of a step writes leaves the agreement, the node's step READY, and the frame noted. -/
theorem Agree.beginStep {r : Runtime} {k : StepKind} (h : Agree s) (hr : s.runtime a = some r) (hready : r.step = .ready k) :
    Agree (Machine.beginStep a k s) ∧ ∃ v, (Machine.beginStep a k s).runtime a = some v ∧ v.step = .ready k
      ∧ (k = .imageBlock → ∀ x, v.session = some x → x.lastSent = .block)
      ∧ (k = .imageEnd → ∀ x, v.session = some x → x.lastSent = .imageEnd) := by
  have hkept : ∀ t : State, t.restore = s.restore → t.store = s.store → k ≠ .imageBlock → k ≠ .imageEnd →
      Agree t ∧ ∃ v, t.runtime a = some v ∧ v.step = .ready k
        ∧ (k = .imageBlock → ∀ x, v.session = some x → x.lastSent = .block)
        ∧ (k = .imageEnd → ∀ x, v.session = some x → x.lastSent = .imageEnd) := fun t hrestore hstore h1 h2 =>
    ⟨h.of_restore hrestore hstore, r, by unfold State.runtime; rw [hrestore]; exact hr, hready, fun hk => absurd hk h1,
      fun hk => absurd hk h2⟩
  have hnoted : ∀ l, (s.mapSession a fun x => { x with lastSent := l, busyCount := 0 }).runtime a =
      some { r with session := r.session.map fun x => { x with lastSent := l, busyCount := 0 } } := fun l =>
    runtime_mapRuntime_same hr _
  cases k with
  | probe | config | busyPoll => exact hkept s rfl rfl nofun nofun
  | replay =>
    refine hkept _ ?_ ?_ nofun nofun <;> unfold Machine.beginStep <;> dsimp only <;> split <;> rfl
  | release =>
    obtain ⟨hrestore, hstore⟩ := reserveRelease_restore a s
    refine hkept _ ?_ ?_ nofun nofun <;> unfold Machine.beginStep <;> dsimp only <;> split
    · exact hrestore
    · exact hrestore
    · exact hstore
    · exact hstore
  | imageBlock =>
    refine ⟨h.noteSent hr hready (fun _ => rfl) nofun nofun, _, hnoted .block, hready, fun _ x hx => ?_, nofun⟩
    obtain ⟨y, -, rfl⟩ := Option.map_eq_some_iff.1 hx
    rfl
  | imageEnd =>
    refine ⟨h.noteSent hr hready nofun (fun _ => rfl) nofun, _, hnoted .imageEnd, hready, nofun, fun _ x hx => ?_⟩
    obtain ⟨y, -, rfl⟩ := Option.map_eq_some_iff.1 hx
    rfl

theorem step_of_candidate {k : StepKind} {f : SegmentFrame} (h : s.candidate a = some (k, f)) :
    ∃ r, s.runtime a = some r ∧ r.step = .ready k := by
  unfold State.candidate at h
  split at h
  · next l hl =>
    split at h
    · cases h
    · obtain ⟨g, -, hg⟩ := Option.map_eq_some_iff.1 h
      cases hg
      exact ⟨_, hl, rfl⟩
  · cases h

theorem Agree.startStep (h : Agree s) (a : Nat) : Agree (Machine.startStep a s) := by
  unfold Machine.startStep
  split
  · exact h
  · next k f hcandidate =>
    obtain ⟨r, hr, hready⟩ := step_of_candidate hcandidate
    obtain ⟨hbegun, v, hv, hvready, hblock, hend⟩ := h.beginStep hr hready
    generalize Machine.beginStep a k s = u at hbegun hv
    have hcounted : Agree (countStep a u) := hbegun.of_restore rfl rfl
    have hflight : Agree ((countStep a u).mapRuntime a fun r => { r with step := .inFlight k }) := by
      refine hcounted.mapLinked (fun _ _ => rfl) fun _ z hz hsound => ?_
      rw [show (countStep a u).runtime a = u.runtime a from rfl, hv] at hz
      cases hz
      obtain ⟨himage, hstep, hfits⟩ := hsound
      refine ⟨himage, fun l hl => hstep l (by rw [hvready]; exact hl), fun x hx => ?_⟩
      have hx' := hfits x hx
      rw [hvready] at hx'
      exact fits_sent hx' rfl rfl rfl (fun hk => hblock hk x hx) (fun hk => hend hk x hx) fun _ => rfl
    exact hflight.of_restore rfl rfl

/-! ### Timers (R43, R44, R152) -/

theorem Agree.nextProbeTime {t : State} (h : Agree s) (ht : Machine.nextProbeTime a s = some t) : Agree t := by
  unfold Machine.nextProbeTime at ht
  split at ht
  · next r hr =>
    split at ht
    · split at ht
      · next hdue =>
        cases ht
        refine h.offerKind fun v hv => ?_
        rw [hr] at hv
        cases hv
        rcases hdue.1 with hstate | hstate <;> rw [hstate] <;> exact ⟨nofun, by decide⟩
      · cases ht
    · cases ht
  · cases ht

theorem Agree.bootWindowClose {t : State} (h : Agree s) (ht : Machine.bootWindowClose a s = some t) : Agree t := by
  unfold Machine.bootWindowClose at ht
  split at ht
  · next r hr =>
    split at ht
    · split at ht
      · next hdue =>
        cases ht
        obtain ⟨hexempt, hidle⟩ := h.exemptIdle (notServed a) (by rw [nodeState_of_runtime hr, hdue.1]; nofun)
        refine hexempt.enterMissing hidle fun v k hv hk => ?_
        rw [hr] at hv
        cases hv
        have hin := (h.records a r (notServed a) hr).2.1 k (by rw [hk]; rfl)
        rw [hdue.1] at hin
        cases k with
        | probe => rfl
        | config | replay | release | imageBlock | imageEnd | busyPoll => exact absurd hin (by decide)
      · cases ht
    · cases ht
  · cases ht

theorem Agree.busyPollTime {t : State} (h : Agree s) (ht : Machine.busyPollTime a s = some t) : Agree t := by
  unfold Machine.busyPollTime at ht
  split at ht
  · next r hr =>
    split at ht
    · next x hx =>
      split at ht
      · next due hdue =>
        split at ht
        · next hwait =>
          cases ht
          obtain ⟨himage, -, hfits⟩ := h.records a r (notServed a) hr
          obtain ⟨-, -, -, -, hpoll, -⟩ := hfits x hx
          have hverdict : x.AwaitsVerdict := hpoll (.inr (by rw [hdue]; nofun))
          have hmapped : r.session.map (fun x => { x with pollTime := none }) = some { x with pollTime := none } := by
            rw [hx]; rfl
          have hoff : r.step.offered = none := by rw [hwait.1]; rfl
          have hstopped : Agree (s.mapSession a fun x => { x with pollTime := none }) := by
            refine h.mapLinked (fun v _ => ?_) fun _ v hv hsound => ?_
            · show (v.session.map _).map _ = _
              rw [Option.map_map]
              rfl
            · rw [hr] at hv
              cases hv
              refine ⟨⟨fun _ => himage.1 (by rw [hx]; nofun), fun _ => ?_⟩, hsound.2.1, fun y hy => ?_⟩
              · show r.session.map _ ≠ none
                rw [hmapped]
                nofun
              · cases hmapped.symm.trans hy
                exact fits_off hoff rfl
          have hrecord : (s.mapSession a fun x => { x with pollTime := none }).runtime a =
              some { r with session := some { x with pollTime := none } } := by
            refine (runtime_mapRuntime_same hr _).trans ?_
            rw [hmapped]
          exact hstopped.offerImage hrecord rfl (by decide) rfl nofun nofun fun _ => hverdict
        · cases ht
      · cases ht
    · cases ht
  · cases ht

theorem Agree.holdExpiry {i : Nat} {t : State} (h : Agree s) (ht : Machine.holdExpiry a i s = some t) : Agree t := by
  unfold Machine.holdExpiry at ht
  split at ht
  · split at ht
    · cases ht; exact h.expireEntry (notServed a) _ _
    · cases ht
  · cases ht

end

section
variable {s : State} {a : Nat}

/-! ### The restart of the engine (R61, R163) -/

theorem Sound.clearWaiting (h : Agree s) : Sound False ∅ ∅ (Machine.clearWaiting s) :=
  ⟨⟨List.nodup_nil, fun hw => absurd rfl hw, fun _ ha => (nomatch ha), fun hw => hw.elim, h.linked.holds, h.linked.held,
    h.linked.reads, h.linked.read, h.linked.unread, h.linked.readers, h.linked.dropping⟩, h.records⟩

theorem granted_restartNode {b : Nat} (hb : b ≠ a) (s : State) : GrantedAt s (restartNode a s) b := by
  unfold restartNode
  split
  · exact .of_eq rfl
  · exact .of_eq rfl
  · exact ((GrantedAt.of_eq (runtime_mapRuntime_other s hb _)).trans (granted_endSession hb _)).trans
      (.of_eq ((enterProbeOrSuspect_doubted a _).others b hb))

theorem Sound.restartNode {w : Prop} (h : Sound w ∅ ∅ s) (a : Nat) :
    Sound w ∅ ∅ (Machine.restartNode a s) ∧ (Machine.restartNode a s).session a = none := by
  have hidle : s.nodeState a ≠ .image → s.session a = none := fun hstate => (h.exemptIdle (notServed a) hstate).2
  unfold Machine.restartNode
  split
  · next hstate => exact ⟨h, hidle (by rw [hstate]; nofun)⟩
  · next hstate => exact ⟨h, hidle (by rw [hstate]; nofun)⟩
  · have hended := (h.cancelStep a).endSession (notServed a)
    refine ⟨hended.enterProbeOrSuspect (session_endSession a _), ?_⟩
    cases hr : s.runtime a with
    | none =>
      have hnone : (Machine.endSession a (Machine.cancelStep a s)).runtime a = none := by
        have hc : (Machine.cancelStep a s).runtime a = none := by
          unfold Machine.cancelStep; rw [mapRuntime_of_none hr]; exact hr
        unfold Machine.endSession State.session
        rw [hc]
        exact hc
      generalize Machine.endSession a (Machine.cancelStep a s) = u at hnone
      have hsame : (Machine.enterProbeOrSuspect a u).runtime a = none := by
        have hquiet := congrFun (congrArg Quiet.configured (enterProbeOrSuspect_quiet u a)) a
        change ((Machine.enterProbeOrSuspect a u).runtime a).isSome = (u.runtime a).isSome at hquiet
        rw [hnone] at hquiet
        exact Option.not_isSome_iff_eq_none.1 (by rw [hquiet]; exact Bool.false_ne_true)
      unfold State.session
      rw [hsame]
      rfl
    | some r =>
      have hrecord := (endSession_of_cancelled (runtime_mapRuntime_same hr fun r => { r with step := r.step.cancel })
        r.step.cancel_cancel).2
      exact session_of_runtime ((enterProbeOrSuspect_doubted a _).record _ hrecord)

/-- Once the waiting list is given up, the walk of R61 ends every session. -/
theorem Agree.restartNodes (h : Agree s) :
    Sound False ∅ ∅ (Machine.forNodes addresses Machine.restartNode (Machine.clearWaiting s))
      ∧ ∀ a, (Machine.forNodes addresses Machine.restartNode (Machine.clearWaiting s)).session a = none := by
  have hcleared := Sound.clearWaiting h
  have hwalk : Sound False ∅ ∅ (Machine.forNodes addresses Machine.restartNode (Machine.clearWaiting s)) :=
    hcleared.forNodes (fun a t ht => (ht.restartNode a).1) addresses
  refine ⟨hwalk, fun a => ?_⟩
  by_cases ha : a ∈ addresses
  · refine forNodes_each (P := fun _ t => Sound False ∅ ∅ t) (Q := fun a t => t.session a = none)
      (fun a t ht => (ht.restartNode a).2) (fun a b t _ ht => (ht.restartNode b).1) (fun a b t hab ht => ?_)
      addresses addresses_nodup _ (fun _ _ => hcleared) a ha
    rw [session_congr ((granted_restartNode hab t).idle ht)]
    exact ht
  · cases hx : (Machine.forNodes addresses Machine.restartNode (Machine.clearWaiting s)).session a with
    | none => rfl
    | some x => exact absurd (mem_addresses_of_session hx) ha

theorem restartPasses_restore (s : State) :
    (restartPasses s).restore = s.restore ∧ (restartPasses s).store = s.store := by
  have hfold : ∀ (l : List PassEntry) (t : State), Stores t (l.foldl (fun t e => answerPass e .restarted [] t) t) := by
    intro l
    induction l with
    | nil => exact fun t => .refl t
    | cons e l ih => exact fun t => (stores_answerPass e .restarted [] t).trans (ih _)
  exact (hfold (s.segment.urgent ++ s.segment.normal) s).restore

/-- With no waiting session left, the waiting list lists exactly the waiting sessions. -/
theorem Linked.waiting {o p : Set Nat} {w : Prop} (h : Linked w o p s)
    (hnone : ∀ a x, a ∉ o → s.session a = some x → x.request ≠ .waitingList) : Linked True o p s :=
  ⟨h.nodup, h.full, h.listed, fun _ a x ha hx hw => absurd hw (hnone a x ha hx), h.holds, h.held, h.reads, h.read, h.unread,
    h.readers, h.dropping⟩

theorem Agree.engineRestartEffect {t : State} (h : Agree s) (ht : Machine.engineRestartEffect s = some t) : Agree t := by
  unfold Machine.engineRestartEffect at ht
  split at ht
  · rw [← Option.some.inj ht]
    obtain ⟨hwalk, hnone⟩ := Agree.restartNodes (h.of_restore (restartPasses_restore s).1 (restartPasses_restore s).2)
    generalize Machine.forNodes addresses Machine.restartNode (Machine.clearWaiting (restartPasses s)) = u at hwalk hnone
    exact Sound.forNodes (fun a t ht => ht.discardQueue a) addresses
      ⟨hwalk.linked.waiting (fun a x _ hx => absurd hx (by rw [hnone a]; exact nofun)), hwalk.records⟩
  · cases ht

/-! ### The store's own work (R169 to R178) -/

/-- Work of the Image Store that leaves sessions, buffers, pending reads and readers counts as they are. -/
structure StoreWork (s t : State) : Prop where
  restore : t.restore = s.restore
  reads : t.readBuffers = s.readBuffers
  readers : ∀ i, t.readersAt i = s.readersAt i
  dropping : ∀ i e, t.store.progress = some (.dropping i e) →
    s.store.progress = some (.dropping i e) ∧ (s.place i = none → t.place i = none)

theorem StoreWork.trans {t u : State} (h : StoreWork s t) (g : StoreWork t u) : StoreWork s u :=
  ⟨g.restore.trans h.restore, g.reads.trans h.reads, fun i => (g.readers i).trans (h.readers i), fun i e he => by
    obtain ⟨ht, hplace⟩ := g.dropping i e he
    obtain ⟨hs, hplace'⟩ := h.dropping i e ht
    exact ⟨hs, hplace ∘ hplace'⟩⟩

theorem Sound.work {w : Prop} {o p : Set Nat} {t : State} (h : Sound w o p s) (hw : StoreWork s t) : Sound w o p t := by
  have hruntime : ∀ a, t.runtime a = s.runtime a := fun a => by unfold State.runtime; rw [hw.restore]
  refine ⟨h.linked.congr (fun a _ => by rw [session_congr (hruntime a)]) (fun a => by rw [session_congr (hruntime a)])
    (by rw [hw.restore]) (by rw [hw.restore]) hw.reads hw.readers fun i e he => ?_,
    fun a r ha hr => h.records a r ha ((hruntime a).symm.trans hr)⟩
  obtain ⟨hs, hplace⟩ := hw.dropping i e he
  exact hplace (h.linked.dropping i e hs)

theorem storeWork_of_eq {t : State} (hrestore : t.restore = s.restore) (haccess : t.store.access = s.store.access)
    (hreads : t.store.reads = s.store.reads) (hcatalogue : t.store.catalogue = s.store.catalogue)
    (hprogress : t.store.progress = s.store.progress ∨ ∀ i e, t.store.progress ≠ some (.dropping i e)) : StoreWork s t := by
  refine ⟨hrestore, by unfold State.readBuffers; rw [haccess, hreads], readersAt_congr hcatalogue, fun i e he => ?_⟩
  rcases hprogress with h | h
  · exact ⟨h ▸ he, fun hnone => by rw [place_congr hcatalogue]; exact hnone⟩
  · exact absurd he (h i e)

theorem storeWork_reports {t : State} (h : Reports s t) : StoreWork s t := by
  obtain ⟨_, _, rfl⟩ := h
  exact storeWork_of_eq rfl rfl rfl rfl (.inl rfl)

theorem storeWork_chooseAccess (s : State) : StoreWork s (chooseAccess s) := by
  obtain ⟨a, r, h⟩ := chooseAccess_frame s
  refine ⟨by rw [h]; rfl, readBuffers_chooseAccess s, fun i => by rw [h]; rfl, fun i e he => ?_⟩
  rw [h] at he ⊢
  exact ⟨he, id⟩

theorem storeWork_finish (c : AnswerCode) (data : List Byte) (s : State) : StoreWork s (finishOperation c data s) := by
  have hnone : ∀ u : State, StoreWork u (u.withStore
      { u.store with operations := u.store.operations.tail, progress := none, cut := false }) := fun u =>
    storeWork_of_eq rfl rfl rfl rfl (.inr fun _ _ => nofun)
  unfold finishOperation
  dsimp only
  split
  · exact StoreWork.trans (t := answerRequest _ c data s) (storeWork_of_eq rfl rfl rfl rfl (.inl rfl)) (hnone _)
  · exact hnone s

theorem storeWork_setProgress {p : Progress} (hp : ∀ i e, p ≠ .dropping i e) (s : State) : StoreWork s (setProgress p s) :=
  storeWork_of_eq rfl rfl rfl rfl (.inr fun i e h => hp i e (Option.some.inj h))

theorem storeWork_endAccess (h : s.store.access = some .operation) : StoreWork s (endAccess s) := by
  refine ⟨rfl, ?_, fun _ => rfl, fun i e he => ⟨he, id⟩⟩
  unfold State.readBuffers
  rw [h]
  rfl

theorem storeWork_stage (s : State) (x : Option StagedImage) : StoreWork s (s.withStore { s.store with staged := x }) :=
  storeWork_of_eq rfl rfl rfl rfl (.inl rfl)

theorem storeWork_openStaged (kind : Byte) (version : Word16) (length : Nat) (check : Word32) (s : State) :
    StoreWork s (openStaged kind version length check s) := by
  unfold openStaged
  split
  · exact storeWork_finish ..
  · exact (storeWork_stage s _).trans (storeWork_finish ..)

/-- Putting an entry without readers, or none, in a place without readers leaves the readers counts as they are. -/
theorem readersAt_setPlace_zero {i : Nat} {c : Option CatalogueEntry} (hzero : s.readersAt i = 0)
    (hc : ∀ e, c = some e → e.readers = 0) (j : Nat) : (s.setPlace i c).readersAt j = s.readersAt j := by
  unfold State.readersAt at hzero ⊢
  rw [place_setPlace]
  by_cases hij : i = j ∧ i < 12
  · rw [if_pos hij, ← hij.1, hzero]
    cases c with
    | none => rfl
    | some e => exact hc e rfl
  · rw [if_neg hij]

theorem Agree.startDrop (h : Agree s) (kind : Byte) : Agree (Machine.startDrop kind s) := by
  unfold Machine.startDrop
  split
  · exact h.work (storeWork_finish ..)
  · next i _ =>
    split
    · exact h.work (storeWork_finish ..)
    · next e he =>
      split
      · exact h.work (storeWork_finish ..)
      · next hreaders =>
        have hzero := readersAt_setPlace_zero (s := s) (i := i) (c := none)
          (by unfold State.readersAt; rw [he]; exact Nat.le_zero.1 (Nat.not_lt.1 hreaders)) (fun _ hc => by cases hc)
        refine ⟨h.linked.congr (t := setProgress (.dropping i e.image) (s.setPlace i none)) (fun _ _ => rfl) (fun _ => rfl)
          rfl rfl rfl hzero ?_, h.records⟩
        intro j d hj
        cases hj
        exact (place_setPlace s i i none).trans (if_pos ⟨rfl, lt_of_place he⟩)

theorem Agree.beginOperation (h : Agree s) (k : OperationKind) : Agree (Machine.beginOperation k s) := by
  have hload : ∀ go : State → State, Agree (go s) → Agree (startLoading go s) := fun go hgo => by
    unfold startLoading
    split
    · exact h.work (storeWork_finish ..)
    · exact hgo
  cases k with
  | imageOpen kind version length check =>
    refine hload _ ?_
    unfold startOpen
    split
    · exact h.work (storeWork_finish ..)
    · split
      · exact h.work (storeWork_finish ..)
      · split
        · exact h.work (storeWork_finish ..)
        · split
          · exact h.work (storeWork_openStaged ..)
          · exact h.work (storeWork_setProgress (fun _ _ hp => by cases hp) s)
  | imageBlock index data =>
    refine hload _ ?_
    unfold startBlock
    split
    · split
      · exact h.work (storeWork_finish ..)
      · exact h.work (storeWork_setProgress (fun _ _ hp => by cases hp) s)
    · exact h.work (storeWork_finish ..)
  | imageClose =>
    refine hload _ ?_
    unfold startClose
    split
    · exact h.work (storeWork_finish ..)
    · split
      · exact h.work (storeWork_finish ..)
      · exact h.work (storeWork_setProgress (fun _ _ hp => by cases hp) s)
  | imageDiscard =>
    refine hload _ ?_
    unfold startDiscard
    split
    · exact h.work (storeWork_finish ..)
    · exact h.work ((storeWork_stage s none).trans (storeWork_finish ..))
  | imageDrop kind => exact hload _ (h.startDrop kind)
  | tableWrite => exact h.work (storeWork_setProgress (fun _ _ hp => by cases hp) s)
  | markWrite => exact h.work (storeWork_setProgress (fun _ _ hp => by cases hp) s)

theorem Agree.operationStart {t : State} (h : Agree s) (ht : Machine.operationStart s = some t) : Agree t := by
  unfold Machine.operationStart at ht
  split at ht
  · cases ht
    exact (h.beginOperation _).work (storeWork_chooseAccess _)
  · cases ht

theorem storeWork_programEnded (failed : Bool) (index : Nat) (s : State) : StoreWork s (programEnded failed index s) := by
  unfold programEnded
  split
  · exact storeWork_finish ..
  · split
    · exact storeWork_finish ..
    · exact (storeWork_stage s _).trans (storeWork_finish ..)

theorem Agree.blockProgramEnd {t : State} {failed : Bool} (h : Agree s) (ht : Machine.blockProgramEnd failed s = some t) :
    Agree t := by
  unfold Machine.blockProgramEnd at ht
  split at ht
  · next haccess _ =>
    cases ht
    refine h.work (((storeWork_endAccess haccess).trans (StoreWork.trans ?_ (storeWork_programEnded ..))).trans
      (storeWork_chooseAccess _))
    split
    · exact storeWork_reports (reports_raiseFlag _ _)
    · exact storeWork_of_eq rfl rfl rfl rfl (.inl rfl)
  · cases ht

theorem Agree.commit (h : Agree s) (x : StagedImage) (i : Nat) (old : Option CatalogueEntry) (hzero : s.readersAt i = 0) :
    Agree (Machine.commit x i old s) := by
  exact h.work ⟨rfl, rfl, readersAt_setPlace_zero hzero fun e he => by cases he; rfl, fun j e he => by cases he⟩

theorem Agree.closeMatched (h : Agree s) (x : StagedImage) : Agree (Machine.closeMatched x s) := by
  unfold Machine.closeMatched
  split
  · split
    · next e he =>
      split
      · exact h.work (storeWork_finish ..)
      · next hreaders =>
        refine h.commit x _ _ ?_
        unfold State.readersAt
        rw [he]
        exact Nat.le_zero.1 (Nat.not_lt.1 hreaders)
    · next hnone =>
      refine h.commit x _ _ ?_
      unfold State.readersAt
      rw [hnone]
  · split
    · next i hi =>
      refine h.commit x _ _ ?_
      have hnone := List.find?_some hi
      unfold State.readersAt
      rw [Option.isNone_iff_eq_none.1 hnone]
    · exact h.work (storeWork_finish ..)

theorem Agree.checkReadEnd {t : State} {fails : Bool} (h : Agree s) (ht : Machine.checkReadEnd fails s = some t) : Agree t := by
  unfold Machine.checkReadEnd at ht
  split at ht
  · next x index sums haccess _ =>
    cases ht
    refine Sound.work ?_ (storeWork_chooseAccess _)
    have hended := h.work (storeWork_endAccess haccess)
    split
    · have hraised : Agree (raiseFlag .storeReadError (endAccess s)) := hended.reports (reports_raiseFlag .storeReadError (endAccess s))
      split
      · exact hraised.work (storeWork_finish ..)
      · exact hraised.work ((storeWork_stage _ _).trans (storeWork_finish ..))
    · split
      · exact hended.work (storeWork_finish ..)
      · unfold checkReadGood
        dsimp only
        split
        · exact hended.work (storeWork_setProgress (fun _ _ hp => by cases hp) _)
        · split
          · exact Agree.closeMatched hended x
          · exact hended.work (storeWork_finish ..)
  · cases ht

theorem storeWork_setCopy (s : State) (p : CopyPlace) (c : Option DirectoryCopy) (l : Option CopyPlace) (b : Bool)
    (r : Option Extent) :
    StoreWork s (s.withStore { s.store.setCopy p c with latest := l, saved := b, retained := r }) := by
  cases p <;> exact storeWork_of_eq rfl rfl rfl rfl (.inl rfl)

theorem storeWork_directoryWritten (failed : Bool) (s : State) : StoreWork s (directoryWritten failed s) := by
  unfold directoryWritten
  dsimp only
  split
  · refine StoreWork.trans ?_ (storeWork_reports (reports_raiseFlag _ _))
    cases s.store.target <;> exact storeWork_of_eq rfl rfl rfl rfl (.inl rfl)
  · cases s.store.target <;> exact storeWork_of_eq rfl rfl rfl rfl (.inl rfl)

theorem Agree.dropRestored (h : Agree s) {i : Nat} {e : ImageEntry} (hprogress : s.store.progress = some (.dropping i e))
    (c : AnswerCode) (data : List Byte) :
    Agree (finishOperation c data (s.setPlace i (some { image := e, readers := 0 }))) := by
  have hnone := h.linked.dropping i e hprogress
  have hfinish := storeWork_finish c data (s.setPlace i (some { image := e, readers := 0 }))
  have hprog : (finishOperation c data (s.setPlace i (some { image := e, readers := 0 }))).store.progress = none := by
    unfold finishOperation
    dsimp only
    split <;> rfl
  have hzero : s.readersAt i = 0 := by unfold State.readersAt; rw [hnone]
  refine h.work ⟨hfinish.restore, hfinish.reads, fun j => (hfinish.readers j).trans ?_, fun j d hj => ?_⟩
  · exact readersAt_setPlace_zero hzero (fun d hd => by cases hd; rfl) j
  · rw [hprog] at hj
    cases hj

theorem Agree.directoryWriteEnd {t : State} {failed : Bool} (h : Agree s) (ht : Machine.directoryWriteEnd failed s = some t) :
    Agree t := by
  unfold Machine.directoryWriteEnd at ht
  split at ht
  · next p haccess hprogress =>
    split at ht
    · cases ht
      refine Sound.work ?_ (storeWork_chooseAccess _)
      have hwritten : Agree (directoryWritten failed (endAccess s)) :=
        (h.work (storeWork_endAccess haccess)).work (storeWork_directoryWritten ..)
      have hsame : (directoryWritten failed (endAccess s)).store.progress = some p := by
        have hkept : (directoryWritten failed (endAccess s)).store.progress = (endAccess s).store.progress := by
          unfold directoryWritten
          dsimp only
          split
          · obtain ⟨_, _, hr⟩ := reports_raiseFlag .storeWriteError
              ((endAccess s).withStore { (endAccess s).store.setCopy (endAccess s).store.target none with saved := false })
            rw [hr]
            cases hc : (endAccess s).store.target <;> rfl
          · cases hc : (endAccess s).store.target <;> rfl
        rw [hkept]
        exact hprogress
      unfold directoryWriteAnswered
      split
      · split
        · exact hwritten.work (storeWork_finish ..)
        · split
          · exact hwritten.work (storeWork_finish ..)
          · split
            · exact hwritten.work (storeWork_openStaged ..)
            · exact hwritten.work (storeWork_finish ..)
      · split
        · exact hwritten.work (storeWork_finish ..)
        · exact hwritten.work (storeWork_finish ..)
      · split
        · exact hwritten.dropRestored hsame _ _
        · exact hwritten.work (storeWork_finish ..)
      · exact hwritten.work (storeWork_finish ..)
    · cases ht
  · cases ht

theorem Agree.tableWriteEnd {t : State} {failed : Bool} (h : Agree s) (ht : Machine.tableWriteEnd failed s = some t) :
    Agree t := by
  unfold Machine.tableWriteEnd at ht
  split at ht
  · next haccess _ =>
    cases ht
    refine Sound.work ?_ (storeWork_chooseAccess _)
    have hended := h.work (storeWork_endAccess haccess)
    split
    · refine Sound.work ?_ (storeWork_finish ..)
      exact Sound.reports (s := (endAccess s).withStored none) (hended.of_restore rfl rfl) (reports_raiseFlag _ _)
    · refine Sound.work ?_ (storeWork_finish ..)
      exact hended.of_restore rfl rfl
  · cases ht

end

end Sys2Proof.Machine
end

section
/-! SUPPORT. The ends of session reads, and every command that reaches the transfers, keep the agreement (R149, R161, R170). -/

namespace Sys2Proof.Machine

section
variable {s : State} {a : Nat}

/-! ### A read ends (R149) -/

theorem readBuffers_of_access {q : ReadRequest} (h : s.store.access = some (.read q)) :
    s.readBuffers = q.buffer :: (endAccess s).readBuffers := by
  unfold State.readBuffers endAccess
  rw [h]
  rfl

/-- When a read ends its buffer is being served, and with it the nodes whose sessions hold it. -/
theorem Sound.endRead {w : Prop} {o : Set Nat} {q : ReadRequest} (h : Sound w ∅ ∅ s) (haccess : s.store.access = some (.read q))
    (hserved : ∀ n ∈ o, ∃ y, s.session n = some y ∧ y.buffer = some q.buffer)
    (hholds : ∀ n y, s.session n = some y → y.buffer = some q.buffer → n ∈ o) :
    Sound w o (insert q.buffer ∅) (endAccess s) := by
  have hlist := readBuffers_of_access haccess
  have hnodup := h.linked.reads
  rw [hlist] at hnodup
  obtain ⟨hfresh, htail⟩ := List.nodup_cons.1 hnodup
  have hbusy : Busy s.restore.buffers q.buffer := (h.linked.read q.buffer (notServed _)).1 (by rw [hlist]; exact List.mem_cons_self ..)
  have hother : ∀ {c}, c ∉ insert q.buffer (∅ : Set Nat) → c ≠ q.buffer := fun hc heq => hc (heq ▸ Set.mem_insert _ _)
  refine ⟨⟨h.linked.nodup, fun hw c _ => h.linked.full hw c (notServed c), fun n hn => ?_,
    fun hw n y hn => h.linked.waits hw n y (notServed n), fun n y hn hy => ?_, fun c n hc hcn => ?_, htail, fun c hc => ?_,
    fun c hc => ?_, h.linked.readers, h.linked.dropping⟩, fun n r _ => h.records n r (notServed n)⟩
  · obtain ⟨-, y, hy, hwait⟩ := h.linked.listed n hn
    refine ⟨fun hmem => ?_, y, hy, hwait⟩
    obtain ⟨z, hz, hb⟩ := hserved n hmem
    cases hy.symm.trans hz
    exact (engaged_of_held (h.linked.holds n y (notServed n) hy).1 hb).2 hwait
  · refine ⟨(h.linked.holds n y (notServed n) hy).1, fun c hc hbuffer => hn (hholds n y hy ?_)⟩
    rcases Set.mem_insert_iff.1 hc with rfl | hc
    · exact hbuffer
    · cases hc
  · obtain ⟨-, y, hy, hbuffer⟩ := h.linked.held c n (notServed c) hcn
    refine ⟨fun hmem => ?_, y, hy, hbuffer⟩
    obtain ⟨z, hz, hb⟩ := hserved n hmem
    cases hy.symm.trans hz
    exact hother hc (Option.some.inj (hbuffer.symm.trans hb))
  · have hread := h.linked.read c (notServed c)
    rw [hlist, List.mem_cons] at hread
    exact ⟨fun hmem => hread.1 (.inr hmem), fun hb => (hread.2 hb).resolve_left (hother hc)⟩
  · rcases Set.mem_insert_iff.1 hc with rfl | hc
    · refine ⟨hfresh, ?_⟩
      rcases hbusy with ⟨_, g⟩ | g <;> exact lt_of_buffer g
    · cases hc

theorem storeWork_stopCutClose (s : State) : StoreWork s (stopCutClose s) := by
  unfold stopCutClose
  split
  · split
    · exact storeWork_finish ..
    · exact storeWork_of_eq rfl rfl rfl rfl (.inl rfl)
  · exact storeWork_of_eq rfl rfl rfl rfl (.inl rfl)

theorem storeWork_requestMarkWrite (s : State) : StoreWork s (requestMarkWrite s) := by
  have hjoined : StoreWork s (joinOperations { kind := .markWrite, request := none } s) :=
    storeWork_of_eq rfl rfl rfl rfl (.inl rfl)
  unfold requestMarkWrite
  dsimp only
  generalize (if s.store.progress.isSome then s.store.operations.tail else s.store.operations) = l
  split
  · exact storeWork_of_eq rfl rfl rfl rfl (.inl rfl)
  · exact hjoined

theorem storeWork_markDamaged (i : Nat) (s : State) : StoreWork s (markDamaged i s) := by
  unfold markDamaged
  split
  · next e he =>
    have hplace := place_setPlace s i
    refine ⟨rfl, rfl, fun j => ?_, fun j d hj => ⟨hj, fun hnone => ?_⟩⟩
    · unfold State.readersAt
      rw [hplace]
      by_cases hij : i = j ∧ i < 12
      · rw [if_pos hij, ← hij.1, he]
      · rw [if_neg hij]
    · rw [hplace, if_neg fun hij => ?_]
      · exact hnone
      · rw [← hij.1, he] at hnone
        cases hnone
  · exact storeWork_of_eq rfl rfl rfl rfl (.inl rfl)

theorem storeWork_reportReadError (block : Nat) (s : State) : StoreWork s (reportReadError block s) := by
  unfold reportReadError
  have hraised := storeWork_reports (reports_raiseFlag .storeReadError s)
  dsimp only
  split
  · exact (hraised.trans (storeWork_markDamaged _ _)).trans (storeWork_requestMarkWrite _)
  · exact hraised.trans (storeWork_requestMarkWrite _)

/-! ### A session read's node, while the sessions of its entry end (R161) -/

/-- A node that is not on the waiting list keeps its record when a buffer falls FREE. -/
theorem runtime_freeBuffer_other {b : Nat} (hwaiting : b ∉ s.restore.waiting) (k : Nat) :
    (Machine.freeBuffer k s).runtime b = s.runtime b := by
  cases hlist : s.restore.waiting with
  | nil => rw [freeBuffer_alone hlist]; rfl
  | cons m rest =>
    rw [freeBuffer_waiting hlist]
    exact (startRead_cases ..).2.1 b fun hbm => hwaiting (by rw [hlist, hbm]; exact List.mem_cons_self ..)

theorem runtime_releaseBuffer_other {b : Nat} (hb : b ≠ a) (hwaiting : b ∉ s.restore.waiting) :
    (Machine.releaseBuffer a s).runtime b = s.runtime b := by
  unfold Machine.releaseBuffer
  split
  · have hmap := runtime_mapRuntime_other s hb fun r =>
      { r with session := r.session.map fun x => { x with buffer := none, request := .none } }
    dsimp only
    split
    · exact hmap
    · refine (runtime_freeBuffer_other (fun hmem => hwaiting ?_) _).trans hmap
      exact waiting_mapRuntime s a _ ▸ hmem
  · rfl

/-- A node that is not on the waiting list keeps its record when another's session ends. -/
theorem runtime_endSession_other {b : Nat} (hb : b ≠ a) (hwaiting : b ∉ s.restore.waiting) :
    (Machine.endSession a s).runtime b = s.runtime b := by
  unfold Machine.endSession
  split
  · rfl
  · next x _ =>
    have hcancel : (Machine.leaveWaiting a (Machine.cancelStep a s)).runtime b = s.runtime b :=
      runtime_mapRuntime_other s hb _
    have hout : b ∉ (Machine.leaveWaiting a (Machine.cancelStep a s)).restore.waiting :=
      fun hmem => hwaiting (waiting_mapRuntime s a _ ▸ (List.mem_filter.1 hmem).1)
    exact ((runtime_mapRuntime_other _ hb _).trans ((dropReader_cases ..).2 b)).trans
      ((runtime_releaseBuffer_other hb hout).trans hcancel)

theorem runtime_leaveDamaged_other {b : Nat} (hb : b ≠ a) (hwaiting : b ∉ s.restore.waiting) (place : Nat) :
    (leaveDamaged place a s).runtime b = s.runtime b := by
  unfold leaveDamaged
  split
  · split
    · split
      · exact (runtime_mapRuntime_other _ hb _).trans (runtime_endSession_other hb hwaiting)
      · exact ((leaveQueues_other a .nodeFailed .failed _).2.1 b).trans ((runtime_mapRuntime_other _ hb _).trans
          ((runtime_endSession_other hb fun hmem => hwaiting (waiting_mapRuntime s a _ ▸ hmem)).trans
            (runtime_mapRuntime_other s hb _)))
    · rfl
  · rfl

theorem Sound.leaveDamaged {w : Prop} {o p : Set Nat} (h : Sound w o p s) (ha : a ∉ o) (place : Nat) :
    Sound w o p (Machine.leaveDamaged place a s) := by
  unfold Machine.leaveDamaged
  split
  · split
    · split
      · exact (h.endSession ha).enterConfig (session_endSession a s)
      · exact h.enterFailed ha
    · exact h
  · exact h

/-- The state while the sessions of an entry end: node `a`, whose read has just ended, still holds its buffer, or has left. -/
def Leaving (a b : Nat) (x : Session) (s : State) : Prop :=
  Agree s ∨ Sound True (insert a ∅) (insert b ∅) s ∧ s.session a = some x

theorem Leaving.self {b : Nat} {x : Session} (h : Leaving a b x s) (hb : x.buffer = some b) :
    Agree (leaveDamaged x.entry a s) := by
  rcases h with h | ⟨h, hx⟩
  · exact Sound.leaveDamaged h (notServed a) _
  · unfold leaveDamaged
    rw [hx]
    dsimp only
    rw [if_pos rfl]
    split
    · exact (h.endServed (notServed b) hx hb).enterConfig (session_endSession a s)
    · exact ((h.cancelStep a).endServed (notServed b) ((session_cancelStep a a s).trans hx) hb).enterFailed_ended

theorem Leaving.other {b n : Nat} {x : Session} (h : Leaving a b x s) (hn : n ≠ a) (place : Nat) :
    Leaving a b x (leaveDamaged place n s) := by
  rcases h with h | ⟨h, hx⟩
  · exact .inl (Sound.leaveDamaged h (notServed n) _)
  · refine .inr ⟨h.leaveDamaged (fun hmem => ?_) place, ?_⟩
    · exact (Set.mem_insert_iff.1 hmem).elim hn (notServed n)
    · exact (session_congr (runtime_leaveDamaged_other hn.symm (not_waiting_of_served h) place)).trans hx

theorem Leaving.walk {b : Nat} {x : Session} (hb : x.buffer = some b) (l : List Nat) (ha : a ∈ l) (h : Leaving a b x s) :
    Agree (forNodes l (leaveDamaged x.entry) s) := by
  unfold forNodes
  induction l generalizing s with
  | nil => cases ha
  | cons n l ih =>
    by_cases hn : n = a
    · subst hn
      exact Sound.forNodes (fun m t ht => ht.leaveDamaged (notServed m) x.entry) l (h.self hb)
    · exact ih ((List.mem_cons.1 ha).resolve_left (Ne.symm hn)) (h.other hn x.entry)

/-! ### STORE_READ_END (R149, R161, R170) -/

/-- A buffer that is being served and whose read ended without a session falls FREE. -/
theorem Sound.drained {q : ReadRequest} (h : Sound True ∅ (insert q.buffer ∅) s)
    (hbuffer : s.restore.buffers[q.buffer]? = some .draining) : Agree (drainBuffer q.buffer s) := by
  unfold drainBuffer
  rw [hbuffer]
  exact h.freeBuffer (notServed _)

theorem request_of_reading {x : Session} {v : Vector Buffer 4} {b : Nat} (h : x.Held v a) (hb : x.buffer = some b)
    (hreading : v[b]? = some (.reading a)) : x.request = .reading := by
  unfold Session.Held at h
  rw [hb] at h
  cases hreq : x.request with
  | reading => rfl
  | filled =>
    rw [hreq] at h
    obtain ⟨_, g⟩ := h
    exact absurd (hreading.symm.trans g) nofun
  | waitingList => rw [hreq] at h; exact h.elim
  | none => rw [hreq] at h; exact h.elim

theorem pollTime_of_reading {y : Session} {c : StepCondition} (h : y.Fits c) (hread : y.request = .reading) :
    y.pollTime = none := by
  obtain ⟨-, -, -, -, hpoll, -⟩ := h
  by_contra hne
  rcases hpoll (.inr hne) with ⟨-, h⟩ | ⟨-, h⟩ <;> rw [hread] at h <;> cases h

/-- A served session that holds the served buffer, FILLED, is in agreement again. -/
theorem Sound.reattach {w : Prop} {o p : Set Nat} {b : Nat} {r : Runtime} {y : Session} {data : List Byte}
    (h : Sound w (insert a o) (insert b p) s) (ha : a ∉ o) (hb : b ∉ p) (hr : s.runtime a = some r) (hy : r.session = some y)
    (hyb : y.buffer = some b) (hfilled : y.request = .filled) (hbuffer : s.restore.buffers[b]? = some (.filled a data))
    (hrecord : RecordSound r) : Sound w o p s := by
  have hsession : s.session a = some y := (session_of_runtime hr).trans hy
  have hin : ∀ {n}, n ≠ a → n ∉ o → n ∉ insert a o := fun hn ho hmem => (Set.mem_insert_iff.1 hmem).elim hn ho
  have hinp : ∀ {c}, c ≠ b → c ∉ p → c ∉ insert b p := fun hc hp hmem => (Set.mem_insert_iff.1 hmem).elim hc hp
  have hout : ∀ {n}, n ∉ insert a o → n ∉ o := fun hn ho => hn (Set.mem_insert_of_mem a ho)
  obtain ⟨hunread, -⟩ := h.linked.unread b (Set.mem_insert b p)
  refine ⟨⟨h.linked.nodup, fun hw c hc => ?_, fun n hn => ⟨hout (h.linked.listed n hn).1, (h.linked.listed n hn).2⟩,
    fun hw n z hn hz hwait => ?_, fun n z hn hz => ?_, fun c n hc hcn => ?_, h.linked.reads, fun c hc => ?_,
    fun c hc => h.linked.unread c (Set.mem_insert_of_mem b hc), h.linked.readers, h.linked.dropping⟩, fun n v hn hv => ?_⟩
  · by_cases hcb : c = b
    · rw [hcb, hbuffer]; nofun
    · exact h.linked.full hw c (hinp hcb hc)
  · by_cases hna : n = a
    · subst hna
      cases hsession.symm.trans hz
      rw [hfilled] at hwait
      cases hwait
    · exact h.linked.waits hw n z (hin hna hn) hz hwait
  · by_cases hna : n = a
    · subst hna
      cases hsession.symm.trans hz
      refine ⟨?_, fun c hc heq => hb (Option.some.inj (hyb.symm.trans heq) ▸ hc)⟩
      unfold Session.Held
      rw [hyb, hfilled]
      exact ⟨data, hbuffer⟩
    · obtain ⟨hheld, havoid⟩ := h.linked.holds n z (hin hna hn) hz
      exact ⟨hheld, fun c hc => havoid c (Set.mem_insert_of_mem b hc)⟩
  · by_cases hcb : c = b
    · subst hcb
      cases engaged_inj hcn (.inr ⟨data, hbuffer⟩)
      exact ⟨ha, y, hsession, hyb⟩
    · obtain ⟨hn, hz⟩ := h.linked.held c n (hinp hcb hc) hcn
      exact ⟨hout hn, hz⟩
  · by_cases hcb : c = b
    · subst hcb
      exact ⟨fun hmem => absurd hmem hunread, fun hbusy => absurd hbusy (not_busy_of_filled hbuffer)⟩
    · exact h.linked.read c (hinp hcb hc)
  · by_cases hna : n = a
    · subst hna
      cases hr.symm.trans hv
      exact hrecord
    · exact h.records n v (hin hna hn) hv

/-- A session's record when its read has filled its buffer, an orphan on the wire or not. -/
def filledSession (r : Runtime) : Runtime :=
  { r with session := r.session.map (fun x => { x with request := .filled }), step := r.step.offer .imageBlock }

/-- A good read fills the buffer of a live session and makes its block step READY. -/
theorem Sound.readGood {q : ReadRequest} {r : Runtime} {x : Session} (h : Sound True (insert a ∅) (insert q.buffer ∅) s)
    (hreading : s.restore.buffers[q.buffer]? = some (.reading a)) (hr : s.runtime a = some r) (hx : r.session = some x)
    (hb : x.buffer = some q.buffer) (hstate : r.state = .image) (hpoll : x.pollTime = none) (data : List Byte) :
    Agree (Machine.readGood q data s) := by
  unfold Machine.readGood
  rw [hreading]
  dsimp only
  unfold Machine.offerKind
  show Agree (((s.setBuffer q.buffer (.filled a data)).mapRuntime a _).mapRuntime a _)
  rw [mapRuntime_mapRuntime]
  change Agree ((s.setBuffer q.buffer (.filled a data)).mapRuntime a filledSession)
  have hr' : (s.setBuffer q.buffer (.filled a data)).runtime a = some r := hr
  have hnew := runtime_mapRuntime_same hr' filledSession
  refine Sound.reattach (a := a) (b := q.buffer) (y := { x with request := .filled }) (data := data)
    (Sound.mapRuntime (h.setServed (.filled a data)) (fun hn => absurd (Set.mem_insert a _) hn) (fun r _ => ?_)
      fun hn => absurd (Set.mem_insert a _) hn) (notServed a) (notServed _) hnew ?_ hb rfl ?_ ?_
  · show (r.session.map _).map _ = _
    rw [Option.map_map]
    rfl
  · show r.session.map _ = _
    rw [hx]
    rfl
  · rw [buffers_mapRuntime]
    show (s.restore.buffers.setIfInBounds q.buffer _)[q.buffer]? = _
    rw [Vector.getElem?_setIfInBounds, if_pos rfl, if_pos (lt_of_buffer hreading)]
  · refine ⟨⟨fun _ => hstate, fun _ => ?_⟩, fun k hk => ?_, fun y hy => ?_⟩
    · show r.session.map _ ≠ none
      rw [hx]
      nofun
    · cases offered_offer hk
      show r.state ∈ _
      rw [hstate]
      decide
    · have hy : r.session.map _ = some y := hy
      rw [hx] at hy
      cases hy
      exact fits_offer hpoll (fun _ => rfl) nofun nofun

theorem Agree.storeReadEnd {t : State} {fails : Bool} (h : Agree s) (ht : Machine.storeReadEnd fails s = some t) : Agree t := by
  unfold Machine.storeReadEnd at ht
  split at ht
  · next q haccess =>
    rw [← Option.some.inj ht]
    refine Sound.work ?_ (storeWork_chooseAccess _)
    have hwork : StoreWork (endAccess s) (stopCutClose (endAccess s)) := storeWork_stopCutClose _
    have hbusy : Busy s.restore.buffers q.buffer :=
      (h.linked.read q.buffer (notServed _)).1 (by rw [readBuffers_of_access haccess]; exact List.mem_cons_self ..)
    have hrestore : (stopCutClose (endAccess s)).restore = s.restore := hwork.restore
    have hsame : ∀ n, (stopCutClose (endAccess s)).session n = s.session n := fun n => by
      unfold State.session State.runtime; rw [hrestore]
    have herror := storeWork_reportReadError q.block (stopCutClose (endAccess s))
    rcases hbusy with ⟨a, hreading⟩ | hdraining
    · obtain ⟨-, x, hx, hb⟩ := h.linked.held q.buffer a (notServed _) (.inl hreading)
      have hserved : Sound True (insert a ∅) (insert q.buffer ∅) (stopCutClose (endAccess s)) := by
        refine (Sound.endRead h haccess (o := insert a ∅) (fun n hn => ?_) fun n y hy hyb => ?_).work hwork
        · rcases Set.mem_insert_iff.1 hn with rfl | hn
          · exact ⟨x, hx, hb⟩
          · cases hn
        · rw [engaged_inj (engaged_of_held (h.linked.holds n y (notServed n) hy).1 hyb).1 (.inl hreading)]
          exact Set.mem_insert a ∅
      split
      · rw [readFailed_live (by rw [hrestore]; exact hreading) ((hsame a).trans hx)]
        refine Leaving.walk hb addresses (mem_addresses_of_session hx) (.inr ⟨hserved.work herror, ?_⟩)
        exact (session_congr (by unfold State.runtime; rw [herror.restore])).trans ((hsame a).trans hx)
      · obtain ⟨r, hr, hsession, hstate, hfits⟩ := image_of_session h (notServed a) hx
        refine hserved.readGood (by rw [hrestore]; exact hreading) (r := r) (x := x) ?_ hsession hb hstate ?_ _
        · unfold State.runtime
          rw [hrestore]
          exact hr
        · have hheld := (h.linked.holds a x (notServed a) hx).1
          exact pollTime_of_reading hfits (request_of_reading hheld hb hreading)
    · have hdrain : Sound True ∅ (insert q.buffer ∅) (stopCutClose (endAccess s)) := by
        refine (Sound.endRead h haccess (o := ∅) (fun n hn => by cases hn) fun n y hy hyb => ?_).work hwork
        rcases (engaged_of_held (h.linked.holds n y (notServed n) hy).1 hyb).1 with g | ⟨_, g⟩ <;>
          exact absurd (hdraining.symm.trans g) nofun
      have hbuffer : (stopCutClose (endAccess s)).restore.buffers[q.buffer]? = some .draining := by rw [hrestore]; exact hdraining
      split
      · rw [(Machine.drained hbuffer []).2]
        exact (hdrain.work herror).freeBuffer (notServed _)
      · rw [(Machine.drained hbuffer _).1]
        exact hdrain.freeBuffer (notServed _)
  · cases ht

end

section
variable {s : State} {a : Nat}

/-- The agreement is about the restore block and the store alone. -/
theorem Agree.still {t : State} (h : Agree s) (hsame : t.restore = s.restore ∧ t.store = s.store) : Agree t :=
  h.of_restore hsame.1 hsame.2

theorem Agree.endCommand (h : Agree s) : Agree (Machine.endCommand s) := by
  rw [endCommand_transmit]
  exact h.of_restore rfl rfl

/-! ### Transactions (R65, R78) -/

theorem Agree.transactionStart {t : State} (h : Agree s) (ht : Machine.transactionStart s = some t) : Agree t := by
  unfold Machine.transactionStart at ht
  split at ht
  · cases hpick : s.pick with
    | urgent e rest => rw [hpick] at ht; cases ht; exact h.of_restore rfl rfl
    | normal e rest => rw [hpick] at ht; cases ht; exact h.of_restore rfl rfl
    | step a => rw [hpick] at ht; cases ht; exact h.startStep a
    | nothing => rw [hpick] at ht; cases ht
  · cases ht

theorem Agree.segmentFrameSent {t : State} (h : Agree s) (ht : Machine.segmentFrameSent s = some t) : Agree t := by
  unfold Machine.segmentFrameSent at ht
  split at ht
  · split at ht
    · cases ht
      exact Sound.stores (s := s.setLine .free) (h.of_restore rfl rfl) (stores_broadcastEnded _ _)
    · cases ht
      exact h.of_restore rfl rfl
  · cases ht

theorem Agree.replyTimeout {t : State} (h : Agree s) (hconfigured : ∀ a, Configured a s)
    (ht : Machine.replyTimeout s = some t) : Agree t := by
  unfold Machine.replyTimeout at ht
  split at ht
  · cases ht; exact h.transactionEnded _ _ _ hconfigured
  · cases ht

theorem Agree.replyReceived {t : State} {chars : List Byte} (h : Agree s) (hconfigured : ∀ a, Configured a s)
    (ht : Machine.replyReceived chars s = some t) : Agree t := by
  unfold Machine.replyReceived at ht
  split at ht
  · split at ht
    · cases ht; exact h.transactionEnded _ _ _ hconfigured
    · cases ht
  · cases ht

theorem Agree.replyCutShort {t : State} (h : Agree s) (hconfigured : ∀ a, Configured a s)
    (ht : Machine.replyCutShort s = some t) : Agree t := by
  unfold Machine.replyCutShort at ht
  split at ht
  · cases ht; exact h.transactionEnded _ _ _ hconfigured
  · cases ht

/-! ### Gap edges (R19, R20) -/

theorem Configured.withGap (h : Configured a s) (g : GapMonitor) : Configured a (s.withGap g) := h

theorem Agree.gapEdgeAbsent {t : State} (h : Agree s) (ht : Machine.gapEdgeAbsent s = some t) : Agree t := by
  have hgap : ∀ g, Agree (s.withGap g) := fun g => h.of_restore rfl rfl
  unfold Machine.gapEdgeAbsent at ht
  split at ht
  · cases ht
  · dsimp only at ht
    split at ht
    · split at ht
      · cases ht; exact (hgap _).confirmGapStart _
      · cases ht; exact hgap _
    · cases ht; exact Sound.reports (hgap _) (reports_raiseFlag _ _)
    · cases ht; exact hgap _

theorem Agree.gapEdgePresent {t : State} (h : Agree s) (hconfigured : ∀ a, Configured a s)
    (ht : Machine.gapEdgePresent s = some t) : Agree t := by
  have hgap : ∀ g, Agree (s.withGap g) := fun g => h.of_restore rfl rfl
  unfold Machine.gapEdgePresent at ht
  split at ht
  · dsimp only at ht
    split at ht
    · split at ht
      · cases ht; exact (hgap _).confirmGapEnd _ _ fun a => (hconfigured a).withGap _
      · cases ht; exact hgap _
    · cases ht; exact Sound.reports (hgap _) (reports_raiseFlag _ _)
    · cases ht; exact hgap _
  · cases ht

theorem Agree.gapStart {t : State} (h : Agree s) (ht : Machine.gapStart s = some t) : Agree t := by
  unfold Machine.gapStart at ht
  split at ht
  · split at ht
    · cases ht; exact h.confirmGapStart _
    · cases ht
  · cases ht

theorem Agree.gapEnd {t : State} (h : Agree s) (hconfigured : ∀ a, Configured a s) (ht : Machine.gapEnd s = some t) : Agree t := by
  unfold Machine.gapEnd at ht
  split at ht
  · split at ht
    · cases ht; exact h.confirmGapEnd _ _ hconfigured
    · cases ht
  · cases ht

/-! ### The table switch (R59, R122, R141, R189) -/

/-- The record of a served node without a session is replaced by one without a session, or dropped. -/
theorem Sound.setRecord {w : Prop} {o p : Set Nat} {v : Option Runtime} (h : Sound w (insert a o) p s)
    (hidle : s.session a = none) (hv : v.bind (·.session) = none) :
    Sound w (insert a o) p (s.setRuntime a v) ∧ (s.setRuntime a v).session a = none := by
  have hsession : ∀ b, (s.setRuntime a v).session b = s.session b := fun b => by
    unfold State.session
    rw [runtime_setRuntime]
    split
    · next hab => rw [← hab.1]; exact hv.trans hidle.symm
    · rfl
  refine ⟨⟨h.linked.congr (fun b _ => by rw [hsession]) (fun b => by rw [hsession]) rfl rfl rfl (fun _ => rfl)
    h.linked.dropping, fun b r hb hr => h.records b r hb ?_⟩, (hsession a).trans hidle⟩
  rw [runtime_setRuntime, if_neg fun hab : a = b ∧ _ => hb (hab.1 ▸ Set.mem_insert _ o)] at hr
  exact hr

theorem Agree.addNode (h : Agree s) (hnone : s.runtime a = none) : Agree (Machine.addNode a s) := by
  have hidle : s.session a = none := by unfold State.session; rw [hnone]; rfl
  obtain ⟨hset, hnew⟩ := (Sound.exempt h (unheld_of_none hidle)).setRecord hidle (v := some (freshRuntime (s.carriesStep a))) rfl
  unfold Machine.addNode
  dsimp only
  split
  · exact Sound.of_restore (hset.enterSuspect hnew .probe) rfl rfl
  · exact hset.enterProbe hnew

theorem Agree.removeNode (h : Agree s) : Agree (Machine.removeNode a s) := by
  have hended := Sound.endSession (Sound.cancelStep h a) (notServed a)
  obtain ⟨hset, hnew⟩ := hended.setRecord (session_endSession a _) (v := none) rfl
  refine hset.restored (unheld_of_none hnew) fun r hr => ?_
  rw [runtime_setRuntime] at hr
  split at hr
  · cases hr
  · next hother =>
    have haddress : ∀ v, (Machine.endSession a (Machine.cancelStep a s)).runtime a = some v → False := fun v hv =>
      hother ⟨rfl, isAddress_of_runtime hv⟩
    exact (haddress r hr).elim

theorem Agree.switchRuntime (h : Agree s) (old new : Tables) (hnone : old.node a = none → s.runtime a = none) :
    Agree (Machine.switchRuntime old new a s) := by
  unfold Machine.switchRuntime
  split
  · next hold _ => exact h.addNode (hnone hold)
  · exact h.removeNode
  · exact h

theorem Agree.switchRuntimes (old new : Tables) (l : List Nat) (hl : l.Nodup) (h : Agree s)
    (hnone : ∀ a ∈ l, old.node a = none → s.runtime a = none) : Agree (Machine.forNodes l (Machine.switchRuntime old new) s) := by
  unfold Machine.forNodes
  induction l generalizing s with
  | nil => exact h
  | cons a l ih =>
    obtain ⟨ha, hl⟩ := List.nodup_cons.1 hl
    refine ih hl (h.switchRuntime old new (hnone a (List.mem_cons_self ..))) fun b hb hold => ?_
    have hkept := isSome_runtime_switchRuntime_other old new (show b ≠ a from fun heq => ha (heq ▸ hb)) s
    rw [hnone b (List.mem_cons_of_mem a hb) hold] at hkept
    exact Option.not_isSome_iff_eq_none.1 (by rw [hkept]; exact Bool.false_ne_true)

theorem switchReserve_restore (old new : Tables) (a : Nat) (s : State) :
    (switchReserve old new a s).restore = s.restore ∧ (switchReserve old new a s).store = s.store := by
  unfold switchReserve
  split
  · exact ⟨rfl, rfl⟩
  · exact ⟨rfl, rfl⟩
  · split <;> exact ⟨rfl, rfl⟩
  · exact ⟨rfl, rfl⟩

theorem forgetDestination_restore (a : Nat) (s : State) :
    (forgetDestination a s).restore = s.restore ∧ (forgetDestination a s).store = s.store := by
  unfold forgetDestination
  dsimp only
  split <;> exact ⟨rfl, rfl⟩

theorem Agree.switchPasses (h : Agree s) (old new : Tables) (a : Nat) : Agree (Machine.switchPasses old new a s) := by
  have hforgot := h.still (forgetDestination_restore a s)
  unfold Machine.switchPasses
  split
  · exact Sound.returnPasses hforgot [a]
  · exact hforgot.of_restore rfl rfl
  · exact h

theorem onlyShadow_clearShadow (a : Nat) (e : NodeEntry) (s : State) : OnlyShadow s (clearShadow a e s) := by
  have hslot : ∀ i u, OnlyShadow u (clearSlot i u) := fun i u => by
    unfold clearSlot
    split <;> exact ⟨_, rfl⟩
  have hwalk : ∀ (l : List Nat) u, OnlyShadow u (forNodes l clearSlot u) := fun l u =>
    forNodes_keeps (P := OnlyShadow u) (fun i v hv => by
      obtain ⟨x, rfl⟩ := hv
      obtain ⟨y, hy⟩ := hslot i (u.withShadow x)
      exact ⟨y, hy⟩) l ⟨_, rfl⟩
  obtain ⟨x, hx⟩ := hwalk (List.range' e.shadowBase e.shadowCount) s
  unfold clearShadow
  dsimp only
  rw [hx]
  split <;> exact ⟨_, rfl⟩

theorem nodeState_cancelStep (a b : Nat) (s : State) : (Machine.cancelStep a s).nodeState b = s.nodeState b :=
  nodeState_mapRuntime_kept (f := fun r => { r with step := r.step.cancel }) (fun _ => rfl) s a b

theorem Agree.replayAfterSwitch (h : Agree s) (a : Nat) : Agree (Machine.replayAfterSwitch a s) := by
  have hleave : ∀ r, s.runtime a = some r → r.state = .replay → Agree (onward a (Machine.cancelStep a s)) := fun r hr hstate => by
    refine (Sound.cancelStep h a).onwardFrom (notServed a) ?_
    rw [nodeState_cancelStep, nodeState_of_runtime hr, hstate]
    nofun
  unfold Machine.replayAfterSwitch
  split
  · exact h
  · next r _ hr =>
    split
    · exact h
    · exact hleave _ hr rfl
  · exact h

theorem Agree.switchShadow (h : Agree s) (old new : Tables) (a : Nat) : Agree (Machine.switchShadow old new a s) := by
  have hcleared : ∀ e, Agree (clearShadow a e s) := fun e => by
    obtain ⟨x, hx⟩ := onlyShadow_clearShadow a e s
    rw [hx]
    exact h.of_restore rfl rfl
  unfold Machine.switchShadow
  split
  · exact hcleared _
  · split
    · exact h
    · exact (hcleared _).replayAfterSwitch a
  · exact h

theorem Agree.switchHold (h : Agree s) (old new : Tables) (a : Nat) : Agree (Machine.switchHold old new a s) := by
  have htrimmed : ∀ c, Agree (trimQueue a c s) := fun c =>
    Sound.of_restore (Sound.reports h (reports_reportDiscarded ((s.queue a).drop c).reverse s)) rfl rfl
  unfold Machine.switchHold
  split
  · exact Sound.discardQueue h a
  · split
    · unfold releaseAfterTrim
      split
      · next hleft =>
        refine Sound.onwardFrom (Sound.cancelStep (htrimmed _) a) (notServed a) ?_
        rw [nodeState_cancelStep, hleft.1]
        nofun
      · exact htrimmed _
    · exact h
  · exact h

theorem Agree.switchedRecords (h : Agree s) (hconfigured : ∀ a, Configured a s) :
    Agree (Machine.switchedRecords addresses s) := by
  unfold Machine.switchedRecords
  dsimp only
  have htables : Agree ((s.withTables s.responder.edit).withResponder { s.responder with mode := .service }) :=
    h.of_restore rfl rfl
  refine Agree.switchRuntimes s.tables s.responder.edit addresses addresses_nodup (Sound.forNodes
    (fun a t ht => Agree.still ht (switchReserve_restore s.tables s.responder.edit a t)) addresses htables) fun a _ hold => ?_
  unfold State.runtime
  rw [forNodes_same State.restore (fun a t => (switchReserve_restore s.tables s.responder.edit a t).1)]
  exact hconfigured a hold

theorem Agree.switchBlocks (h : Agree s) (old new : Tables) : Agree (Machine.switchBlocks addresses old new s) := by
  have hpasses := Sound.forNodes (fun a t ht => Agree.switchPasses ht old new a) addresses h
  have hcounters : ∀ c, Agree ((Machine.forNodes addresses (Machine.switchPasses old new) s).withCounters c) := fun c =>
    Sound.of_restore hpasses rfl rfl
  exact Sound.work (Sound.forNodes (fun a t ht => Agree.switchHold ht old new a) addresses
    (Sound.forNodes (fun a t ht => Agree.switchShadow ht old new a) addresses (hcounters _)))
    (storeWork_of_eq rfl rfl rfl rfl (.inl rfl))

theorem Agree.tableSwitch (h : Agree s) (hconfigured : ∀ a, Configured a s) : Agree (Machine.tableSwitch s) := by
  rw [tableSwitch_eq]
  exact (h.switchedRecords hconfigured).switchBlocks _ _

end

end Sys2Proof.Machine
end

section
/-! SUPPORT. Every command and both resets keep sessions, buffers, the waiting list, pending reads and readers counts in
agreement. -/

namespace Sys2Proof.Machine

/-- The restore block and the store are as they were. -/
def Still (s t : State) : Prop := t.restore = s.restore ∧ t.store = s.store

section
variable {s : State}

theorem Still.trans {t u : State} (h : Still s t) (g : Still t u) : Still s u := ⟨g.1.trans h.1, g.2.trans h.2⟩

theorem Stores.still {t : State} (h : Stores s t) : Still s t := h.restore

/-! ### Frames and takes -/

theorem still_receiver (r : RxCondition) (s : State) : Still s (s.setReceiver r) := ⟨rfl, rfl⟩

theorem still_raiseFlag (f : Flag) (s : State) : Still s (raiseFlag f s) := (reports_raiseFlag f s).stores.still

theorem still_acceptFrame (f : TrunkFrame) (s : State) : Still s (acceptFrame f s) := by
  unfold acceptFrame
  split
  · exact ⟨rfl, rfl⟩
  · exact still_raiseFlag .ingressOverrun (s.withTrunk { s.trunk with ingressDrop := s.trunk.ingressDrop + 1 })

theorem still_goodFrame {chars : List Byte} {t : State} (h : goodFrame chars s = some t) : Still s t := by
  unfold goodFrame at h
  split at h
  · cases h; exact (still_receiver _ s).trans (still_acceptFrame ..)
  · cases h

theorem still_badFrame {chars : List Byte} {t : State} (h : badFrame chars s = some t) : Still s t := by
  unfold badFrame at h
  split at h
  · cases h; exact (still_receiver _ s).trans (still_raiseFlag ..)
  · cases h

theorem still_trunkCharacterGap {ender : Option Byte} {t : State} (h : trunkCharacterGap ender s = some t) : Still s t := by
  unfold trunkCharacterGap at h
  split at h
  · cases h
  · cases h; exact (still_receiver _ s).trans (still_raiseFlag ..)

theorem still_trunkFrameSent {t : State} (h : trunkFrameSent s = some t) : Still s t := by
  obtain ⟨i, -, rfl⟩ := Option.map_eq_some_iff.mp h
  exact ⟨rfl, rfl⟩

theorem still_trunkFrameStart {t : State} (h : trunkFrameStart s = some t) : Still s t := by
  unfold trunkFrameStart at h
  split at h
  · cases h; exact still_receiver _ s
  · cases h

theorem still_takeHead {f : TrunkFrame} {i : Nat} {t : State} (h : s.takeHead = some (f, i, t)) :
    Still s t ∧ t.tables = s.tables := by
  unfold State.takeHead at h
  split at h
  · cases h
  · split at h
    · cases h
    · cases h; exact ⟨⟨rfl, rfl⟩, rfl⟩

theorem still_unknownRequest {t : State} (h : unknownRequest s = some t) : Still s t := by
  unfold unknownRequest at h
  split at h
  · next f i u hu =>
    have htaken := (still_takeHead hu).1
    split at h
    · split at h
      · cases h; exact htaken.trans ⟨rfl, rfl⟩
      · split at h
        · cases h
        · cases h; exact htaken.trans ⟨rfl, rfl⟩
    · cases h
  · cases h

theorem still_nonRequestFrame {t : State} (h : nonRequestFrame s = some t) : Still s t := by
  unfold nonRequestFrame at h
  split at h
  · next f i u hu =>
    split at h
    · cases h
    · cases h; exact (still_takeHead hu).1.trans ⟨rfl, rfl⟩
  · cases h

/-! ### The Classifier -/

theorem still_countMatch (r : RuleRef) (n : Nat) (s : State) : Still s (countMatch r n s) := by
  unfold countMatch
  split
  · exact ⟨rfl, rfl⟩
  · split <;> exact ⟨rfl, rfl⟩

theorem still_appendPass (e : PassEntry) (s : State) : Still s (appendPass e s) := by
  unfold appendPass
  split <;> exact ⟨rfl, rfl⟩

theorem still_disposeHold (e : PassEntry) (s : State) : Still s (disposeHold e s) := by
  have happend := (stores_appendHold e.destination (e.held (some e.tag)) s).still
  unfold disposeHold
  dsimp only
  split <;> exact happend.trans ⟨rfl, rfl⟩

theorem still_disposeLatest (e : PassEntry) (s : State) : Still s (disposeLatest e s) := by
  have hcaptured := (stores_captureLatest e.destination e.action.slot e.captured s).still
  unfold disposeLatest
  dsimp only
  split <;> exact hcaptured.trans ⟨rfl, rfl⟩

theorem still_disposeUnicast (e : PassEntry) (s : State) : Still s (disposeUnicast e s) := by
  have hpass : Still s (disposePass e s) := by
    unfold disposePass
    split
    · exact still_appendPass e s
    · exact ⟨rfl, rfl⟩
  unfold disposeUnicast
  split
  case h_1 | h_2 => exact hpass
  case h_3 | h_4 => exact ⟨rfl, rfl⟩
  case h_5 =>
    split
    · exact still_disposeLatest e s
    · exact still_disposeHold e s
    · exact still_disposeHold e s
  all_goals
    split
    · exact still_disposeHold e s
    · exact still_disposeLatest e s
    · exact ⟨rfl, rfl⟩

theorem still_disposeBroadcast (e : PassEntry) (m : Option Nat) (s : State) : Still s (disposeBroadcast e m s) := by
  unfold disposeBroadcast
  split
  · exact (stores_forNodes (stores_absentTreatment e) _ s).still.trans (still_appendPass _ _)
  · exact ⟨rfl, rfl⟩

theorem still_segmentRequest {t : State} (h : segmentRequest s = some t) : Still s t := by
  unfold segmentRequest at h
  split at h
  · next f i u hu =>
    have htaken := (still_takeHead hu).1
    split at h
    · split at h
      · next q _ =>
        cases h
        refine htaken.trans ?_
        unfold classifyRequest
        dsimp only
        refine (still_countMatch (u.tables.matched q).ref q.payload.length u).trans ?_
        split
        · exact ⟨rfl, rfl⟩
        · split
          · exact still_disposeBroadcast _ _ _
          · exact still_disposeUnicast _ _
      · cases h; exact htaken.trans ⟨rfl, rfl⟩
    · cases h
  · cases h

/-! ### Clocks and the line -/

theorem still_gapAgedExpiry {t : State} (h : gapAgedExpiry s = some t) : Still s t := by
  unfold gapAgedExpiry at h
  split at h
  · split at h
    · cases h; exact ⟨rfl, rfl⟩
    · cases h
  · cases h

theorem still_originAgedExpiry {a : Nat} {t : State} (h : originAgedExpiry a s = some t) : Still s t := by
  unfold originAgedExpiry at h
  split at h
  · split at h
    · cases h; exact ⟨rfl, rfl⟩
    · cases h
  · cases h

theorem still_replyStart {t : State} (h : replyStart s = some t) : Still s t := by
  unfold replyStart at h
  split at h
  · cases h; exact ⟨rfl, rfl⟩
  · cases h

theorem still_settlingEnd {t : State} (h : settlingEnd s = some t) : Still s t := by
  unfold settlingEnd at h
  split at h
  · cases h; exact ⟨rfl, rfl⟩
  · cases h

/-! ### Management requests that reach neither the Restore Engine nor the Image Store -/

theorem still_actReadNode (q : Request) (s : State) : Still s (actReadNode q s) := by
  unfold actReadNode; split <;> exact ⟨rfl, rfl⟩

theorem still_actReadCounters (q : Request) (s : State) : Still s (actReadCounters q s) := by
  unfold actReadCounters
  dsimp only
  split
  · split <;> exact ⟨rfl, rfl⟩
  · split <;> exact ⟨rfl, rfl⟩
  · split <;> exact ⟨rfl, rfl⟩
  · exact ⟨rfl, rfl⟩

theorem still_actReadRule (q : Request) (s : State) : Still s (actReadRule q s) := by
  unfold actReadRule
  dsimp only
  split
  · exact ⟨rfl, rfl⟩
  · split <;> exact ⟨rfl, rfl⟩

theorem still_actReadSet (q : Request) (s : State) : Still s (actReadSet q s) := by
  unfold actReadSet; split <;> exact ⟨rfl, rfl⟩

theorem still_actReadShadow (q : Request) (s : State) : Still s (actReadShadow q s) := by
  unfold actReadShadow; split <;> exact ⟨rfl, rfl⟩

theorem still_actWriteRule (q : Request) (s : State) : Still s (actWriteRule q s) := by
  unfold actWriteRule
  dsimp only
  split
  · split <;> exact ⟨rfl, rfl⟩
  · exact ⟨rfl, rfl⟩

theorem still_actWriteDefault (q : Request) (s : State) : Still s (actWriteDefault q s) := by
  unfold actWriteDefault; split <;> exact ⟨rfl, rfl⟩

theorem still_actWriteSet (q : Request) (s : State) : Still s (actWriteSet q s) := by
  unfold actWriteSet
  dsimp only
  split
  · split <;> exact ⟨rfl, rfl⟩
  · exact ⟨rfl, rfl⟩

theorem still_actWriteNode (q : Request) (s : State) : Still s (actWriteNode q s) := by
  unfold actWriteNode
  dsimp only
  split
  · split <;> exact ⟨rfl, rfl⟩
  · exact ⟨rfl, rfl⟩

theorem still_actWriteConfigRecord (q : Request) (s : State) : Still s (actWriteConfigRecord q s) := by
  unfold actWriteConfigRecord
  dsimp only
  split <;> exact ⟨rfl, rfl⟩

theorem still_actSetIdentity (q : Request) (s : State) : Still s (actSetIdentity q s) := by
  unfold actSetIdentity
  dsimp only
  split
  · exact ⟨rfl, rfl⟩
  · split <;> exact ⟨rfl, rfl⟩
  · exact ⟨rfl, rfl⟩

theorem still_actClearFlags (q : Request) (s : State) : Still s (actClearFlags q s) := by
  unfold actClearFlags
  dsimp only
  split <;> exact ⟨rfl, rfl⟩

theorem still_actSetNoticeMask (q : Request) (s : State) : Still s (actSetNoticeMask q s) := by
  unfold actSetNoticeMask
  dsimp only
  split <;> exact ⟨rfl, rfl⟩

/-! ### Management requests that reach them -/

/-- A management request keeps the agreement when its own rule does. -/
theorem Agree.takeRequest {k : RequestCode} {act : Request → State → State} {t : State} (h : Agree s)
    (hconfigured : ∀ a, Configured a s) (ha : ∀ q u, Agree u → (∀ a, Configured a u) → Agree (act q u))
    (ht : Machine.takeRequest k act s = some t) : Agree t := by
  unfold Machine.takeRequest at ht
  split at ht
  · next f i u hu =>
    obtain ⟨htaken, htables⟩ := still_takeHead hu
    have hagree : Agree u := h.still htaken
    split at ht
    · split at ht
      · cases ht
        unfold judgeRequest
        split
        · exact hagree.of_restore rfl rfl
        · split
          · exact hagree.of_restore rfl rfl
          · split
            · exact hagree.of_restore rfl rfl
            · exact ha _ u hagree fun a => (hconfigured a).congr htables (by unfold State.runtime; rw [htaken.1])
      · cases ht
    · cases ht
  · cases ht

theorem Agree.done (h : Agree s) (q : Request) (d : List Byte) : Agree (Machine.done q d s) := h.of_restore rfl rfl

theorem Agree.actClearCounters (h : Agree s) (q : Request) : Agree (Machine.actClearCounters q s) := by
  unfold Machine.actClearCounters
  dsimp only
  split
  · split
    · exact h.of_restore rfl rfl
    · exact h.of_restore rfl rfl
  · split
    · refine Agree.done (s := s.mapRuntime (q.arg 1) clearNodeCounters) ?_ q []
      exact Sound.mapPlain h fun r => ⟨rfl, rfl, rfl⟩
    · exact h.of_restore rfl rfl
  · split
    · refine Agree.done (s := clearRuleCounters (q.arg 1) s) ?_ q []
      unfold clearRuleCounters
      split <;> exact h.of_restore rfl rfl
    · exact h.of_restore rfl rfl
  · exact h.of_restore rfl rfl

theorem Agree.join (h : Agree s) (o : Operation) : Agree (joinOperations o s) :=
  Sound.work h (storeWork_of_eq rfl rfl rfl rfl (.inl rfl))

theorem Agree.actStoreTables (h : Agree s) (q : Request) : Agree (Machine.actStoreTables q s) := by
  unfold Machine.actStoreTables
  split
  · exact h.of_restore rfl rfl
  · exact h.join _

theorem Agree.actIsolateNode (h : Agree s) (q : Request) : Agree (Machine.actIsolateNode q s) := by
  unfold Machine.actIsolateNode
  split
  · exact h.of_restore rfl rfl
  · exact h.of_restore rfl rfl
  · exact Agree.done (Sound.enterIsolated h (notServed _)) q []

theorem Agree.actRestoreNode (h : Agree s) (q : Request) : Agree (Machine.actRestoreNode q s) := by
  unfold Machine.actRestoreNode
  dsimp only
  split
  · exact h.of_restore rfl rfl
  · refine Agree.done ?_ q []
    have hforgot : Agree (s.mapRuntime (q.arg 0) forgetBoot) :=
      Sound.mapPlain h fun r => by unfold forgetBoot; split <;> exact ⟨rfl, rfl, rfl⟩
    exact ((Sound.cancelStep hforgot _).endSession (notServed _)).enterProbeOrSuspect (session_endSession _ _)

theorem Agree.actSetMode (h : Agree s) (q : Request) (hconfigured : ∀ a, Configured a s) : Agree (Machine.actSetMode q s) := by
  unfold Machine.actSetMode
  split
  · exact h.of_restore rfl rfl
  · split
    · exact h.of_restore rfl rfl
    · unfold enterService
      split
      · exact h.of_restore rfl rfl
      · exact (h.tableSwitch hconfigured).done q _
  · exact h.of_restore rfl rfl

/-! ### The two resets (R60, R179) -/

theorem restart_buffer (x : Straps) (high : Bool) (s : State) (b : Nat) :
    (restart x high s).restore.buffers[b]? = if b < 4 then some .free else none := reset_buffer b

theorem restart_readersAt (x : Straps) (high : Bool) (s : State) (i : Nat) : (restart x high s).readersAt i = 0 := by
  unfold State.readersAt
  cases hplace : (restart x high s).place i with
  | none => rfl
  | some e =>
    cases htaken : takenCopy (strappedBlocks x) (cutDirectory s.store) with
    | none =>
      rw [(restart_untaken (high := high) htaken).2.2 i] at hplace
      cases hplace
    | some k =>
      rw [(restart_taken (high := high) htaken).2.2 i (lt_of_place hplace)] at hplace
      obtain ⟨_, -, rfl⟩ := Option.map_eq_some_iff.1 hplace
      rfl

/-- At a start no node has a session and every buffer is FREE. -/
theorem agree_restart (x : Straps) (high : Bool) (s : State) : Agree (restart x high s) := by
  have hidle := restart_idle x high s
  have hfree : ∀ {b : Nat} {y : Buffer}, (restart x high s).restore.buffers[b]? = some y → y = .free := fun {b y} h => by
    rw [restart_buffer] at h
    split at h
    · exact (Option.some.inj h).symm
    · cases h
  refine ⟨⟨List.nodup_nil, fun h => absurd rfl h, fun _ h => (nomatch h), fun _ a y _ hy => ?_, fun a y _ hy => ?_,
    fun b a _ h => ?_, List.nodup_nil, fun b _ => ⟨fun h => (nomatch h), fun h => ?_⟩, fun _ h => (nomatch h), fun i => ?_,
    fun i e h => (nomatch h)⟩, fun a r _ hr => ?_⟩
  · rw [hidle a] at hy; cases hy
  · rw [hidle a] at hy; cases hy
  · rcases h with h | ⟨_, h⟩ <;> cases hfree h
  · rcases h with ⟨_, h⟩ | h <;> cases hfree h
  · rw [restart_readersAt]
    unfold State.sessionsOf
    rw [List.filter_eq_nil_iff.2 fun a _ => by rw [hidle a]; exact Bool.false_ne_true]
    rfl
  · rw [restart_runtime] at hr
    obtain ⟨_, -, rfl⟩ := Option.map_eq_some_iff.1 hr
    exact recordSound_idle rfl nofun fun k hk => by cases hk; decide

theorem agree_firstSample (h : Agree s) : Agree (firstSample s) := by
  unfold firstSample
  split
  · split
    · exact h.confirmGapStart 0
    · exact h.of_restore rfl rfl
  · exact h

/-! ### Every command -/

theorem agree_happens {r : Option State} {t : State} (h : Agree s) (hr : ∀ u, r = some u → Agree u)
    (ht : happens r s = .next t) : Agree t := by
  unfold happens at ht
  split at ht
  · cases ht; exact (hr _ rfl).endCommand
  · cases ht; exact h

theorem agree_withinStore {go : State → Option State} {t : State} (h : Agree s) (hgo : ∀ u, go s = some u → Agree u)
    (ht : withinStore go s = .next t) : Agree t := by
  unfold withinStore at ht
  split at ht
  · cases ht; exact h
  · next hu _ => cases ht; exact (hgo _ hu).endCommand
  · next hu _ =>
    split at ht
    · cases ht; exact (hgo _ hu).endCommand
    · cases ht

/-- A command that leaves the restore block and the store as they are. -/
theorem agree_still {r : Option State} {t : State} (h : Agree s) (hr : ∀ {u}, r = some u → Still s u)
    (ht : happens r s = .next t) : Agree t := agree_happens h (fun _ hu => h.still (hr hu)) ht

/-- A management request whose own rule leaves them. -/
theorem agree_request {k : RequestCode} {act : Request → State → State} {t : State} (h : Agree s)
    (hconfigured : ∀ a, Configured a s) (ha : ∀ q u, Still u (act q u))
    (ht : happens (takeRequest k act s) s = .next t) : Agree t :=
  agree_happens h (fun _ hu => h.takeRequest hconfigured (fun q u hq _ => hq.still (ha q u)) hu) ht

theorem agree_exec {c : Instr} {t : State} (h : Agree s) (hconfigured : ∀ a, Configured a s) (ht : exec c s = .next t) :
    Agree t := by
  have request : ∀ {k : RequestCode} {act : Request → State → State}, (∀ q u, Agree u → (∀ a, Configured a u) → Agree (act q u)) →
      happens (takeRequest k act s) s = .next t → Agree t := fun ha =>
    agree_happens h fun u hu => h.takeRequest hconfigured ha hu
  cases c with
  | powerOn x high => cases ht; exact (agree_firstSample (agree_restart x high s)).endCommand
  | reset x high => cases ht; exact (agree_firstSample (agree_restart x high s)).endCommand
  | goodFrame chars => exact agree_still h still_goodFrame ht
  | badFrame chars => exact agree_still h still_badFrame ht
  | trunkCharacterGap ender => exact agree_still h still_trunkCharacterGap ht
  | trunkFrameSent => exact agree_still h still_trunkFrameSent ht
  | trunkFrameStart => exact agree_still h still_trunkFrameStart ht
  | segmentRequest => exact agree_still h still_segmentRequest ht
  | unknownRequest => exact agree_still h still_unknownRequest ht
  | nonRequestFrame => exact agree_still h still_nonRequestFrame ht
  | readStatus => exact agree_request (act := actReadStatus) h hconfigured (fun _ _ => ⟨rfl, rfl⟩) ht
  | readNode => exact agree_request h hconfigured still_actReadNode ht
  | readCounters => exact agree_request h hconfigured still_actReadCounters ht
  | clearCounters => exact request (fun q u hu _ => hu.actClearCounters q) ht
  | readRule => exact agree_request h hconfigured still_actReadRule ht
  | readSet => exact agree_request h hconfigured still_actReadSet ht
  | readShadow => exact agree_request h hconfigured still_actReadShadow ht
  | readParameters => exact agree_request (act := actReadParameters) h hconfigured (fun _ _ => ⟨rfl, rfl⟩) ht
  | readIdentity => exact agree_request (act := actReadIdentity) h hconfigured (fun _ _ => ⟨rfl, rfl⟩) ht
  | storeTables => exact request (fun q u hu _ => hu.actStoreTables q) ht
  | imageOpen => exact request (fun q u hu _ => hu.join _) ht
  | imageBlock => exact request (fun q u hu _ => hu.join _) ht
  | imageClose => exact request (fun q u hu _ => hu.join _) ht
  | imageDiscard => exact request (fun q u hu _ => hu.join _) ht
  | imageDrop => exact request (fun q u hu _ => hu.join _) ht
  | restartEngine => exact agree_request (act := actRestartEngine) h hconfigured (fun _ _ => ⟨rfl, rfl⟩) ht
  | setNoticeMask => exact agree_request h hconfigured still_actSetNoticeMask ht
  | writeRule => exact agree_request h hconfigured still_actWriteRule ht
  | writeDefault => exact agree_request h hconfigured still_actWriteDefault ht
  | writeSet => exact agree_request h hconfigured still_actWriteSet ht
  | writeNode => exact agree_request h hconfigured still_actWriteNode ht
  | writeConfigRecord => exact agree_request h hconfigured still_actWriteConfigRecord ht
  | writeParameters => exact agree_request (act := actWriteParameters) h hconfigured (fun _ _ => ⟨rfl, rfl⟩) ht
  | setMode => exact request (fun q u hu hc => hu.actSetMode q hc) ht
  | isolateNode => exact request (fun q u hu _ => hu.actIsolateNode q) ht
  | restoreNode => exact request (fun q u hu _ => hu.actRestoreNode q) ht
  | setIdentity => exact agree_request h hconfigured still_actSetIdentity ht
  | clearFlags => exact agree_request h hconfigured still_actClearFlags ht
  | engineRestartEffect => exact agree_happens h (fun _ hu => h.engineRestartEffect hu) ht
  | operationStart => exact agree_happens h (fun _ hu => h.operationStart hu) ht
  | blockProgramEnd b => exact agree_withinStore h (fun _ hu => h.blockProgramEnd hu) ht
  | checkReadEnd b => exact agree_withinStore h (fun _ hu => h.checkReadEnd hu) ht
  | directoryWriteEnd b => exact agree_withinStore h (fun _ hu => h.directoryWriteEnd hu) ht
  | tableWriteEnd b => exact agree_withinStore h (fun _ hu => h.tableWriteEnd hu) ht
  | storeReadEnd b => exact agree_withinStore h (fun _ hu => h.storeReadEnd hu) ht
  | gapEdgeAbsent => exact agree_happens h (fun _ hu => h.gapEdgeAbsent hu) ht
  | gapEdgePresent => exact agree_happens h (fun _ hu => h.gapEdgePresent hconfigured hu) ht
  | gapStart => exact agree_happens h (fun _ hu => h.gapStart hu) ht
  | gapEnd => exact agree_happens h (fun _ hu => h.gapEnd hconfigured hu) ht
  | gapAgedExpiry => exact agree_still h still_gapAgedExpiry ht
  | originAgedExpiry a => exact agree_still h still_originAgedExpiry ht
  | transactionStart => exact agree_happens h (fun _ hu => h.transactionStart hu) ht
  | segmentFrameSent => exact agree_happens h (fun _ hu => h.segmentFrameSent hu) ht
  | replyTimeout => exact agree_happens h (fun _ hu => h.replyTimeout hconfigured hu) ht
  | replyReceived chars => exact agree_happens h (fun _ hu => h.replyReceived hconfigured hu) ht
  | replyCharacterGap => exact agree_happens h (fun _ hu => h.replyCutShort hconfigured hu) ht
  | replyLengthAbove64 b =>
    refine agree_happens h (fun _ hu => ?_) ht
    unfold replyTooLong at hu
    split at hu
    · exact h.replyCutShort hconfigured hu
    · cases hu
  | replyStart => exact agree_still h still_replyStart ht
  | settlingEnd => exact agree_still h still_settlingEnd ht
  | nextProbeTime a => exact agree_happens h (fun _ hu => h.nextProbeTime hu) ht
  | bootWindowClose a => exact agree_happens h (fun _ hu => h.bootWindowClose hu) ht
  | busyPollTime a => exact agree_happens h (fun _ hu => h.busyPollTime hu) ht
  | holdExpiry a i => exact agree_happens h (fun _ hu => h.holdExpiry hu) ht

/-- Settles O7: the agreement is kept by every command, and a millisecond changes only the clock. -/
theorem stepKeepsTransfersSound : Obligations.StepKeepsTransfersSound := by
  intro s t hs h
  obtain ⟨hruntimes, hagree⟩ := (transfersSound_iff s).1 hs
  have hconfigured : ∀ a, Configured a s := fun a hnone => by
    have hsame := hruntimes.1 a
    rw [hnone] at hsame
    exact Option.not_isSome_iff_eq_none.1 (by rw [hsame]; exact Bool.false_ne_true)
  refine (transfersSound_iff t).2 ⟨(step_keeps h).2.2.2.2.1 hruntimes, ?_⟩
  unfold step at h
  split at h
  · cases h; exact hagree.of_restore rfl rfl
  · next c rest _ => exact agree_exec (s := s.withPending rest) (hagree.of_restore rfl rfl) hconfigured h

end

end Sys2Proof.Machine
end

section
/-! SUPPORT. The effect of an engine restart, block by block (R61, R83, R140, R163, R195). -/

namespace Sys2Proof.Machine

section
variable {s t : State} {a : Nat}

/-! ### The pass queue is answered (R83) -/

/-- Every entry of a list is answered RESTARTED. -/
def answerRestarted (l : List PassEntry) (s : State) : State := l.foldl (fun t e => answerPass e .restarted [] t) s

theorem answerRestarted_frame (l : List PassEntry) (s : State) :
    ∃ x y, answerRestarted l s = { s with trunk := { s.trunk with egress := x, order := y } } := by
  unfold answerRestarted
  induction l generalizing s with
  | nil => exact ⟨_, _, rfl⟩
  | cons e l ih =>
    obtain ⟨x, y, h⟩ := ih (answerPass e .restarted [] s)
    exact ⟨x, y, h⟩

theorem answerRestarted_keeps {i : Nat} {f : TrunkFrame} (l : List PassEntry) (hi : ∀ e ∈ l, e.reservation ≠ i)
    (h : s.trunk.egress[i]? = some (.waiting f)) : (answerRestarted l s).trunk.egress[i]? = some (.waiting f) := by
  unfold answerRestarted
  induction l generalizing s with
  | nil => exact h
  | cons e l ih =>
    exact ih (fun x hx => hi x (List.mem_cons_of_mem e hx))
      ((egress_enqueue_other (Ne.symm (hi e List.mem_cons_self)) _).trans h)

theorem answerRestarted_answers (l : List PassEntry) (hl : (l.map (·.reservation)).Nodup) {e : PassEntry} (he : e ∈ l)
    (hi : e.reservation < 24) (s : State) :
    (answerRestarted l s).trunk.egress[e.reservation]? = some (.waiting (segmentAnswer e.tag .restarted [])) := by
  induction l generalizing s with
  | nil => cases he
  | cons x l ih =>
    obtain ⟨hx, hl⟩ := List.nodup_cons.1 hl
    rcases List.mem_cons.1 he with rfl | he
    · exact answerRestarted_keeps l (fun y hy heq => hx (List.mem_map.2 ⟨y, hy, heq⟩)) (egress_enqueue_self hi _)
    · exact ih hl he (answerPass x .restarted [] s)

/-- The Segment Master's block after a restart. -/
def restartedSegment (g : SegmentMaster) : SegmentMaster :=
  { g with urgent := [], normal := [], runCount := 0, lastEntrance := 0, lastInfo := 0, restartPending := false }

theorem restartPasses_frame (s : State) :
    ∃ x y, restartPasses s =
      { s with trunk := { s.trunk with egress := x, order := y }, segment := restartedSegment s.segment } := by
  obtain ⟨x, y, h⟩ := answerRestarted_frame (s.segment.urgent ++ s.segment.normal) s
  refine ⟨x, y, ?_⟩
  show (answerRestarted (s.segment.urgent ++ s.segment.normal) s).withSegment
    (restartedSegment (answerRestarted (s.segment.urgent ++ s.segment.normal) s).segment) = _
  rw [h]
  rfl

theorem restartPasses_answers (h : ((s.segment.urgent ++ s.segment.normal).map (·.reservation)).Nodup) {e : PassEntry}
    (he : e ∈ s.segment.urgent ++ s.segment.normal) (hi : e.reservation < 24) :
    (restartPasses s).trunk.egress[e.reservation]? = some (.waiting (segmentAnswer e.tag .restarted [])) :=
  answerRestarted_answers _ h he hi s

/-! ### The nodes restart (R61, R163) -/

/-- What the restart of nodes changes while the pass queue and the waiting list are empty. -/
structure Restarts (s t : State) : Prop where
  frame : ∃ x g c, t = { s with restore := x, gap := { s.gap with gapSet := g }, store := { s.store with catalogue := c } }
  members : ∀ a ∈ s.gap.gapSet, isAddress a = true → a ∈ t.gap.gapSet
  waiting : s.restore.waiting = [] → t.restore.waiting = []
  images : ∀ i, (t.place i).map (·.image) = (s.place i).map (·.image)

theorem Restarts.refl (s : State) : Restarts s s := ⟨⟨_, _, _, rfl⟩, fun _ h _ => h, id, fun _ => rfl⟩

theorem Restarts.trans {u : State} (h : Restarts s t) (g : Restarts t u) : Restarts s u := by
  obtain ⟨x, g1, c, rfl⟩ := h.frame
  obtain ⟨y, g2, d, hu⟩ := g.frame
  exact ⟨⟨y, g2, d, hu⟩, fun a ha hn => g.members a (h.members a ha hn) hn, fun hw => g.waiting (h.waiting hw),
    fun i => (g.images i).trans (h.images i)⟩

theorem restarts_mapRuntime (s : State) (a : Nat) (f : Runtime → Runtime) : Restarts s (s.mapRuntime a f) := by
  have hwaiting := waiting_mapRuntime s a f
  unfold State.mapRuntime at hwaiting ⊢
  split
  · exact ⟨⟨_, _, _, rfl⟩, fun _ h _ => h, id, fun _ => rfl⟩
  · exact .refl s

theorem restarts_cancelStep (a : Nat) (s : State) : Restarts s (cancelStep a s) := restarts_mapRuntime s a _

theorem restarts_setBuffer (s : State) (b : Nat) (x : Buffer) : Restarts s (s.setBuffer b x) :=
  ⟨⟨_, _, _, rfl⟩, fun _ h _ => h, id, fun _ => rfl⟩

theorem restarts_releaseBuffer (hwaiting : s.restore.waiting = []) (a : Nat) : Restarts s (releaseBuffer a s) := by
  unfold releaseBuffer
  split
  · have hmap := restarts_mapRuntime s a fun r =>
      { r with session := r.session.map fun x => { x with buffer := none, request := .none } }
    dsimp only
    split
    · exact hmap.trans (restarts_setBuffer _ _ _)
    · refine hmap.trans ?_
      rw [State.mapSession, freeBuffer_alone (hmap.waiting hwaiting)]
      exact restarts_setBuffer _ _ _
  · exact .refl s

theorem restarts_dropReader (n : Nat) (s : State) : Restarts s (dropReader n s) := by
  unfold dropReader
  split
  · next e he =>
    refine ⟨⟨_, s.gap.gapSet, _, rfl⟩, fun _ h _ => h, id, fun i => ?_⟩
    rw [place_setPlace]
    split
    · next hi => rw [← hi.1, he]; rfl
    · rfl
  · exact .refl s

theorem restarts_endSession (hwaiting : s.restore.waiting = []) (a : Nat) : Restarts s (endSession a s) := by
  unfold endSession
  split
  · exact .refl s
  · next x _ =>
    have hcancel : Restarts s (leaveWaiting a (cancelStep a s)) := (restarts_cancelStep a s).trans
      ⟨⟨_, _, _, rfl⟩, fun _ h _ => h, fun hw => by
        show (cancelStep a s).restore.waiting.filter _ = []
        rw [hw]; rfl, fun _ => rfl⟩
    exact ((hcancel.trans (restarts_releaseBuffer (hcancel.waiting hwaiting) a)).trans (restarts_dropReader x.entry _)).trans
      (restarts_mapRuntime _ a _)

theorem restarts_enterProbeOrSuspect (hpasses : s.segment.urgent = [] ∧ s.segment.normal = []) (a : Nat) :
    Restarts s (enterProbeOrSuspect a s) := by
  have hreturn : ∀ u, Restarts s u → Restarts s (returnPasses [a] u) := fun u hu => by
    obtain ⟨_, _, _, h⟩ := hu.frame
    rw [returnPasses_empty (by rw [h]; exact hpasses.1) (by rw [h]; exact hpasses.2)]
    exact hu
  unfold enterProbeOrSuspect
  split
  · have hmoved : Restarts s (joinGapSet a (enterSuspect a .probe s)) := by
      have hsuspect : Restarts s (enterSuspect a .probe s) := restarts_mapRuntime s a _
      refine hsuspect.trans ⟨⟨_, _, _, rfl⟩, fun b hb hn => ?_, id, fun _ => rfl⟩
      have hgap : (enterSuspect a .probe s).gap = s.gap := (sameBlocks_mapRuntime s a _).gap
      rw [hgap] at hb
      show b ∈ addressSet (a :: (enterSuspect a .probe s).gap.gapSet)
      rw [addressSet_eq_filter, hgap]
      exact List.mem_filter.2 ⟨mem_addresses hn, decide_eq_true (List.mem_cons_of_mem a hb)⟩
    dsimp only
    split
    · exact hreturn _ hmoved
    · exact hmoved
  · unfold enterProbe
    dsimp only
    have hmoved := restarts_mapRuntime s a fun r =>
      { r.move .probe with misses := 0, bootCount := r.countOnDoubt, step := r.step.offer .probe }
    split
    · exact hreturn _ hmoved
    · exact hmoved

theorem restarts_restartNode (hwaiting : s.restore.waiting = []) (hpasses : s.segment.urgent = [] ∧ s.segment.normal = [])
    (a : Nat) : Restarts s (restartNode a s) := by
  unfold restartNode
  split
  · exact .refl s
  · exact .refl s
  · have hcancel := restarts_cancelStep a s
    have hended := hcancel.trans (restarts_endSession (hcancel.waiting hwaiting) a)
    refine hended.trans (restarts_enterProbeOrSuspect ?_ a)
    obtain ⟨_, _, _, h⟩ := hended.frame
    rw [h]
    exact hpasses

/-- The record of a node after the restart. -/
def restartedRecord (suspect : Bool) (r : Runtime) : Runtime :=
  match r.state with
  | .unconfigured | .isolated => r
  | _ => doubtedRecord suspect { r with step := r.step.cancel, session := none }

theorem restartedRecord_of_active {suspect : Bool} {r : Runtime} (hisolated : r.state ≠ .isolated)
    (hunconfigured : r.state ≠ .unconfigured) :
    restartedRecord suspect r = doubtedRecord suspect { r with step := r.step.cancel, session := none } := by
  unfold restartedRecord
  split
  · next h => exact absurd h hunconfigured
  · next h => exact absurd h hisolated
  · rfl

theorem countOnDoubt_eq (r : Runtime) :
    r.countOnDoubt = if r.state = .image ∨ r.state = .config then none else r.bootCount := by
  unfold Runtime.countOnDoubt
  split
  · next h => rw [if_pos (.inl h)]
  · next h => rw [if_pos (.inr h)]
  · next h g => rw [if_neg (not_or.2 ⟨h, g⟩)]

/-- A FED node in a gap. -/
def State.doubts (s : State) (a : Nat) : Bool := s.gapInProgress && s.isFed a

theorem Restarts.doubts (h : Restarts s t) (a : Nat) : t.doubts a = s.doubts a := by
  obtain ⟨_, _, _, rfl⟩ := h.frame
  rfl

theorem Restarts.passes (h : Restarts s t) : t.segment = s.segment := by
  obtain ⟨_, _, _, rfl⟩ := h.frame
  rfl

theorem restartNode_other {b : Nat} (hb : b ≠ a) (hwaiting : s.restore.waiting = []) :
    (restartNode a s).runtime b = s.runtime b := by
  unfold restartNode
  split
  · rfl
  · rfl
  · have hw : b ∉ (cancelStep a s).restore.waiting := by
      rw [(restarts_cancelStep a s).waiting hwaiting]
      exact List.not_mem_nil
    exact ((enterProbeOrSuspect_doubted a _).others b hb).trans
      ((runtime_endSession_other hb hw).trans (runtime_mapRuntime_other s hb _))

theorem restartNode_still (h : s.nodeState a = .unconfigured ∨ s.nodeState a = .isolated) : restartNode a s = s := by
  unfold restartNode
  rcases h with h | h <;> rw [h]

theorem restartNode_active (hunconfigured : s.nodeState a ≠ .unconfigured) (hisolated : s.nodeState a ≠ .isolated) :
    restartNode a s = enterProbeOrSuspect a (endSession a (cancelStep a s)) := by
  unfold restartNode
  split
  · next h => exact absurd h hunconfigured
  · next h => exact absurd h hisolated
  · rfl

theorem restartedRecord_still {suspect : Bool} {r : Runtime} (h : r.state = .unconfigured ∨ r.state = .isolated) :
    restartedRecord suspect r = r := by
  unfold restartedRecord
  rcases h with h | h <;> rw [h]

theorem restartNode_self {r : Runtime} (hr : s.runtime a = some r) :
    (restartNode a s).runtime a = some (restartedRecord (s.doubts a) r)
      ∧ (s.doubts a = true → r.state ≠ .isolated → r.state ≠ .unconfigured → a ∈ (restartNode a s).gap.gapSet) := by
  have hdoubted := enterProbeOrSuspect_doubted a (endSession a (cancelStep a s))
  have hsame : (endSession a (cancelStep a s)).doubts a = s.doubts a := by
    obtain ⟨x, y, h⟩ := (onlyTransfers_mapRuntime s a fun r => { r with step := r.step.cancel }).trans
      (onlyTransfers_endSession a _)
    change endSession a (cancelStep a s) = _ at h
    rw [h]
    rfl
  have hrecord := hdoubted.record _ (runtime_cancelStep_endSession hr)
  change _ = some (doubtedRecord ((endSession a (cancelStep a s)).doubts a) _) at hrecord
  rw [hsame] at hrecord
  have hjoins := hdoubted.joins
  change (endSession a (cancelStep a s)).doubts a = true → _ at hjoins
  rw [hsame] at hjoins
  by_cases hstill : r.state = .unconfigured ∨ r.state = .isolated
  · rw [restartNode_still ((nodeState_of_runtime hr).symm ▸ hstill), restartedRecord_still hstill]
    exact ⟨hr, fun _ hi hu => absurd hstill (not_or.2 ⟨hu, hi⟩)⟩
  · obtain ⟨hu, hi⟩ := not_or.1 hstill
    rw [restartNode_active ((nodeState_of_runtime hr).symm ▸ hu) ((nodeState_of_runtime hr).symm ▸ hi),
      restartedRecord_of_active hi hu]
    exact ⟨hrecord, fun hd _ _ => hjoins hd (isAddress_of_runtime hr)⟩

/-- What the restart leaves of one node. -/
def RestartedAt (u t : State) (a : Nat) : Prop :=
  ∀ r, u.runtime a = some r → t.runtime a = some (restartedRecord (u.doubts a) r)
    ∧ (u.doubts a = true → r.state ≠ .isolated → r.state ≠ .unconfigured → a ∈ t.gap.gapSet)

theorem restartNodes_spec (hwaiting : s.restore.waiting = []) (hpasses : s.segment.urgent = [] ∧ s.segment.normal = []) :
    Restarts s (forNodes addresses restartNode s) ∧ ∀ a, RestartedAt s (forNodes addresses restartNode s) a := by
  have hstep : ∀ a t, Restarts s t → Restarts s (restartNode a t) := fun a t h =>
    h.trans (restarts_restartNode (h.waiting hwaiting) (by rw [h.passes]; exact hpasses) a)
  refine ⟨forNodes_keeps (P := Restarts s) hstep addresses (.refl s), fun a r hr => ?_⟩
  refine (forNodes_each (P := fun a t => Restarts s t ∧ t.runtime a = s.runtime a)
    (Q := fun a t => Restarts s t ∧ RestartedAt s t a) (fun a t h => ⟨hstep a t h.1, fun r hr => ?_⟩)
    (fun a b t hab h => ⟨hstep b t h.1, (restartNode_other hab (h.1.waiting hwaiting)).trans h.2⟩)
    (fun a b t hab h => ⟨hstep b t h.1, fun r hr => ?_⟩) addresses addresses_nodup s (fun _ _ => ⟨.refl s, rfl⟩) a
    (mem_addresses_of_runtime hr)).2 r hr
  · rw [← h.1.doubts a]
    exact restartNode_self (h.2.trans hr)
  · obtain ⟨hrecord, hmember⟩ := h.2 r hr
    refine ⟨(restartNode_other hab (h.1.waiting hwaiting)).trans hrecord, fun hd hi hu => ?_⟩
    exact (restarts_restartNode (h.1.waiting hwaiting) (by rw [h.1.passes]; exact hpasses) b).members a (hmember hd hi hu)
      (isAddress_of_runtime hr)

/-! ### The hold queues are discarded (R140) -/

theorem queue_outside (s : State) (ha : isAddress a ≠ true) : s.queue a = [] := by
  unfold State.queue
  have hnone : atNode s.hold.queues a = none := by
    by_cases ha0 : a = 0
    · rw [ha0]; rfl
    · unfold atNode
      rw [if_neg ha0]
      refine Vector.getElem?_eq_none (by_contra fun hlt => ha ?_)
      exact isAddress_eq_true (Nat.pos_of_ne_zero ha0) (by omega)
  rw [hnone]
  rfl

/-- What the discard of queues changes. -/
def Discards (s t : State) : Prop := ∃ x y h, t = { s with trunk := x, responder := y, hold := h }

theorem discards_discardQueue (a : Nat) (s : State) : Discards s (discardQueue a s) := by
  obtain ⟨x, y, h⟩ := reports_reportDiscarded (s.queue a) s
  unfold discardQueue
  rw [h]
  exact ⟨_, _, _, rfl⟩

theorem discards_all (s : State) : Discards s (forNodes addresses discardQueue s) :=
  forNodes_keeps (P := Discards s) (fun a t ht => by
    obtain ⟨_, _, _, rfl⟩ := ht
    obtain ⟨x, y, h, heq⟩ := discards_discardQueue a { s with trunk := _, responder := _, hold := _ }
    exact ⟨x, y, h, heq⟩) addresses ⟨_, _, _, rfl⟩

theorem queue_discarded (s : State) (a : Nat) : (forNodes addresses discardQueue s).queue a = [] := by
  by_cases ha : isAddress a = true
  · refine (forNodes_each (P := fun _ _ => True) (Q := fun a t => t.queue a = [] ∨ isAddress a ≠ true)
      (fun a t _ => ?_) (fun _ _ _ _ _ => trivial) (fun a b t hab h => ?_) addresses addresses_nodup s (fun _ _ => trivial) a
      (mem_addresses ha)).resolve_right fun h => h ha
    · by_cases ha : isAddress a = true
      · exact .inl ((discardQueue_cases a t).2.2 ha)
      · exact .inr ha
    · exact h.imp_left ((discardQueue_other hab t).trans ·)
  · exact queue_outside _ ha

theorem makeReport_keeps {i : Nat} {f : TrunkFrame} {e : HoldEntry} (hi : e.reservation ≠ some i) (c : AnswerCode)
    (rest : List Byte) (h : s.trunk.egress[i]? = some (.waiting f)) :
    (makeReport e c rest s).trunk.egress[i]? = some (.waiting f) := by
  unfold makeReport
  split
  · exact h
  · split
    · next j hj => exact (egress_enqueue_other (fun hij => hi (hj.trans (congrArg some hij.symm))) _).trans h
    · exact keepsFrames_offerFrame _ s i f h

/-- A frame that waits in an entry which no held frame reserves stays there. -/
theorem discardQueue_keeps {i : Nat} {f : TrunkFrame} (hi : ∀ e ∈ s.queue a, e.reservation ≠ some i)
    (h : s.trunk.egress[i]? = some (.waiting f)) : (discardQueue a s).trunk.egress[i]? = some (.waiting f) := by
  have hwalk : ∀ (l : List HoldEntry) (t : State), (∀ e ∈ l, e.reservation ≠ some i) →
      t.trunk.egress[i]? = some (.waiting f) → (reportDiscarded l t).trunk.egress[i]? = some (.waiting f) := fun l => by
    unfold reportDiscarded
    induction l with
    | nil => exact fun _ _ h => h
    | cons e l ih =>
      exact fun t hl h => ih _ (fun x hx => hl x (List.mem_cons_of_mem e hx)) (makeReport_keeps (hl e List.mem_cons_self) _ _ h)
  exact hwalk _ s hi h

theorem discards_keep {i : Nat} {f : TrunkFrame} (l : List Nat) (hi : ∀ a, ∀ e ∈ s.queue a, e.reservation ≠ some i)
    (h : s.trunk.egress[i]? = some (.waiting f)) :
    (forNodes l discardQueue s).trunk.egress[i]? = some (.waiting f) := by
  unfold forNodes
  induction l generalizing s with
  | nil => exact h
  | cons a l ih =>
    refine ih (fun b e he => ?_) (discardQueue_keeps (hi a) h)
    by_cases hb : b = a
    · subst hb
      by_cases haddress : isAddress b = true
      · rw [(discardQueue_cases b s).2.2 haddress] at he; cases he
      · rw [queue_outside _ haddress] at he; cases he
    · rw [discardQueue_other hb] at he
      exact hi b e he

/-! ### The effect (R61, R163, R195) -/

/-- With no session left, no place has a reader, and a buffer is being read or is FREE. -/
theorem Sound.quietBuffers {w : Prop} (h : Sound w ∅ ∅ t) (hnone : ∀ a, t.session a = none) :
    (∀ i e, t.place i = some e → e.readers = 0)
      ∧ ∀ b x, t.restore.buffers[b]? = some x → x = if b ∈ t.readBuffers then .draining else .free := by
  refine ⟨fun i e he => ?_, fun b x hx => ?_⟩
  · have hcount : t.readersAt i = 0 := by
      rw [h.linked.readers]
      unfold State.sessionsOf
      rw [List.filter_eq_nil_iff.2 fun a _ => by rw [hnone a]; exact Bool.false_ne_true]
      rfl
    unfold State.readersAt at hcount
    rw [he] at hcount
    exact hcount
  · have hidle : ∀ a, ¬ Engaged t.restore.buffers b a := fun a hengaged => by
      obtain ⟨-, y, hy, -⟩ := h.linked.held b a (notServed b) hengaged
      rw [hnone a] at hy
      cases hy
    have hbusy := h.linked.read b (notServed b)
    cases x with
    | free =>
      rw [if_neg fun hb => ?_]
      rcases hbusy.1 hb with ⟨_, g⟩ | g <;> exact absurd (hx.symm.trans g) nofun
    | reading a => exact absurd (.inl hx) (hidle a)
    | filled a data => exact absurd (.inr ⟨data, hx⟩) (hidle a)
    | draining => rw [if_pos (hbusy.2 (.inr hx))]

/-- A buffer is being read exactly when it is READING or DRAINING. -/
theorem Agree.buffers_read (h : Agree s) (b : Nat) :
    (s.restore.buffers[b]?).map (fun _ => if b ∈ s.readBuffers then Buffer.draining else .free) =
      (s.restore.buffers[b]?).map
        (fun x => match x with | .reading _ | .draining => .draining | .free | .filled _ _ => .free) := by
  have hbusy := h.linked.read b (notServed b)
  cases hx : s.restore.buffers[b]? with
  | none => rfl
  | some x =>
    refine congrArg some ?_
    cases x with
    | reading a => exact if_pos (hbusy.2 (.inl ⟨a, hx⟩))
    | draining => exact if_pos (hbusy.2 (.inr hx))
    | free =>
      refine if_neg fun hb => ?_
      rcases hbusy.1 hb with ⟨_, g⟩ | g <;> exact absurd (hx.symm.trans g) nofun
    | filled a data =>
      refine if_neg fun hb => ?_
      rcases hbusy.1 hb with ⟨_, g⟩ | g <;> exact absurd (hx.symm.trans g) nofun

/-- The state in which the nodes restart. -/
def State.cleared (s : State) : State := clearWaiting (restartPasses s)

theorem cleared_frame (s : State) :
    ∃ x y, s.cleared =
      { s with
        trunk := { s.trunk with egress := x, order := y }
        segment := restartedSegment s.segment
        restore := { s.restore with waiting := [] } } := by
  obtain ⟨x, y, h⟩ := restartPasses_frame s
  refine ⟨x, y, ?_⟩
  unfold State.cleared
  rw [h]
  rfl

theorem exec_engineRestartEffect (hpending : s.segment.restartPending = true) (hidle : s.transaction = none) :
    exec .engineRestartEffect s =
      .next (endCommand (forNodes addresses discardQueue (forNodes addresses restartNode s.cleared))) := by
  show happens (engineRestartEffect s) s = _
  unfold engineRestartEffect
  rw [if_pos ⟨hpending, hidle⟩]
  rfl

/-- Settles O44: the blocks one after another; the agreement after the nodes' restart decides the buffers and the readers. -/
theorem engineRestartTakesEffect : Obligations.EngineRestartTakesEffect := by
  intro s
  refine ⟨fun tag rest i hasks => ?_, fun hpending hidle => ?_⟩
  · rw [hasks.runs_act (act := actRestartEngine) rfl nofun rfl, ← done_asked (args := [])]
    rfl
  obtain ⟨x, y, hcleared⟩ := cleared_frame s
  have hagree : s.TransfersSound →
      Agree s ∧ Sound False ∅ ∅ (forNodes addresses restartNode s.cleared)
        ∧ ∀ a, (forNodes addresses restartNode s.cleared).session a = none := fun hs => by
    have h := ((transfersSound_iff s).1 hs).2
    exact ⟨h, Agree.restartNodes (h.of_restore (restartPasses_restore s).1 (restartPasses_restore s).2)⟩
  obtain ⟨hwalk, hrecords⟩ := restartNodes_spec (s := s.cleared) (by rw [hcleared]) (by rw [hcleared]; exact ⟨rfl, rfl⟩)
  have hshown : ((s.segment.urgent ++ s.segment.normal).map (·.reservation)).Nodup →
      ∀ e ∈ s.segment.urgent ++ s.segment.normal, e.reservation < 24 →
        (forNodes addresses restartNode s.cleared).trunk.egress[e.reservation]? =
          some (.waiting (segmentAnswer e.tag .restarted [])) := fun hnodup e he hlt => by
    obtain ⟨_, _, _, h⟩ := hwalk.frame
    rw [h]
    exact restartPasses_answers hnodup he hlt
  have hqueues : ∀ a, (forNodes addresses restartNode s.cleared).queue a = s.queue a := fun a => by
    obtain ⟨_, _, _, h⟩ := hwalk.frame
    rw [h, hcleared]
    rfl
  have hwaiting := hwalk.waiting (by rw [hcleared])
  have himages := hwalk.images
  obtain ⟨r, g, c, hframe⟩ := hwalk.frame
  rw [exec_engineRestartEffect hpending hidle]
  refine ⟨_, rfl, ?_⟩
  generalize forNodes addresses restartNode s.cleared = u at *
  have hquiet : (forNodes addresses discardQueue u).quiet = u.quiet :=
    forNodes_same State.quiet (fun a t => discardQueue_quiet t a) addresses u
  have hempty := queue_discarded u
  have hkeep : ∀ {i f}, (∀ a, ∀ e ∈ u.queue a, e.reservation ≠ some i) → u.trunk.egress[i]? = some (.waiting f) →
      (forNodes addresses discardQueue u).trunk.egress[i]? = some (.waiting f) := fun hi h => discards_keep addresses hi h
  obtain ⟨tr, re, ho, hdiscards⟩ := discards_all u
  generalize forNodes addresses discardQueue u = v at *
  rw [endCommand_transmit]
  have hrestore : v.restore = u.restore := by rw [hdiscards]
  have hstore : v.store = u.store := by rw [hdiscards]
  have hgap : v.gap = u.gap := by rw [hdiscards]
  have hruntime : ∀ a, v.runtime a = u.runtime a := fun a => by unfold State.runtime; rw [hrestore]
  have hplace : ∀ i, v.place i = u.place i := fun i => by unfold State.place; rw [hstore]
  have hframes : u.responder = s.responder ∧ u.trunk.ingress = s.trunk.ingress := by
    rw [hframe, hcleared]; exact ⟨rfl, rfl⟩
  have hfields : v.segment = restartedSegment s.segment ∧ v.tables = s.tables ∧ v.stored = s.stored ∧ v.shadow = s.shadow
      ∧ v.counters = s.counters ∧ v.gap = { s.gap with gapSet := v.gap.gapSet }
      ∧ v.store = { s.store with catalogue := v.store.catalogue } := by
    rw [hdiscards, hframe, hcleared]; exact ⟨rfl, rfl, rfl, rfl, rfl, rfl, rfl⟩
  obtain ⟨hsegment, htables, hstored, hshadow, hcounters, hgaps, hstores⟩ := hfields
  have hbefore : ∀ a, s.cleared.runtime a = s.runtime a ∧ s.cleared.doubts a = s.doubts a := fun a => by
    rw [hcleared]; exact ⟨rfl, rfl⟩
  have hafter : ∀ a r, s.runtime a = some r → v.runtime a = some (restartedRecord (s.doubts a) r)
      ∧ (s.doubts a = true → r.state ≠ .isolated → r.state ≠ .unconfigured → a ∈ v.gap.gapSet) := fun a r hr => by
    obtain ⟨hrecord, hmember⟩ := hrecords a r ((hbefore a).1.trans hr)
    rw [(hbefore a).2] at hrecord hmember
    exact ⟨(hruntime a).trans hrecord, by rw [hgap]; exact hmember⟩
  refine ⟨hsegment, htables, hstored, hshadow, hcounters, hgaps,
    (congrArg Quiet.identity hquiet).trans (congrArg (·.identity) hframes.1),
    (congrArg Quiet.mode hquiet).trans (congrArg (·.mode) hframes.1),
    (congrArg Quiet.edit hquiet).trans (congrArg (·.edit) hframes.1),
    (congrArg Quiet.mask hquiet).trans (congrArg (·.mask) hframes.1), hstores, fun i => ?_,
    (congrArg (·.waiting) hrestore).trans hwaiting, fun hs => ?_,
    (congrArg Quiet.ingress hquiet).trans hframes.2, hempty, fun a r hr hstate => ?_, fun a r hr hisolated hunconfigured => ?_,
    fun hnodup e he hlt hheld => ?_⟩
  · show (v.place i).map _ = _
    rw [hplace, himages, hcleared]
    rfl
  · obtain ⟨hbefore, hsound, hnone⟩ := hagree hs
    obtain ⟨hreaders, hbuffers⟩ := hsound.quietBuffers hnone
    refine ⟨fun i e he => hreaders i e ((hplace i).symm.trans he), fun b => ?_⟩
    have hreads : u.readBuffers = s.readBuffers := by rw [hframe, hcleared]; rfl
    have hsize : ∀ x, u.restore.buffers[b]? = some x →
        u.restore.buffers[b]? = some (if b ∈ s.readBuffers then .draining else .free) := fun x hx => by
      rw [hx, hbuffers b x hx, hreads]
    refine Eq.trans ?_ (hbefore.buffers_read b)
    show v.restore.buffers[b]? = _
    rw [hrestore]
    by_cases hb : b < 4
    · rw [hsize _ (Vector.getElem?_eq_getElem hb), Vector.getElem?_eq_getElem hb]
      rfl
    · rw [Vector.getElem?_eq_none (Nat.not_lt.1 hb), Vector.getElem?_eq_none (Nat.not_lt.1 hb)]
      rfl
  · have hrecord := (hafter a r hr).1
    rw [restartedRecord_still (.inr hstate)] at hrecord
    exact (nodeState_of_runtime hrecord).trans hstate
  · obtain ⟨hrecord, hmember⟩ := hafter a r hr
    rw [restartedRecord_of_active hisolated hunconfigured] at hrecord
    exact ⟨_, hrecord, rfl, rfl, countOnDoubt_eq r, rfl, rfl, rfl, rfl, rfl, rfl, rfl, rfl, rfl, rfl, rfl, rfl,
      fun hd => hmember hd hisolated hunconfigured⟩
  · rw [← endCommand_transmit]
    refine State.Shows.endCommand (.inl ?_)
    exact hkeep (fun a h hh => hheld a h (by rwa [hqueues a] at hh)) (hshown hnodup e he hlt)

end

end Sys2Proof.Machine
end

section
/-! SUPPORT. The Segment Master: the frames of restore steps, the arbiter and the line (R1 to R4, R64 to R67, R76 to R80). -/

namespace Sys2Proof.Machine

section
variable {s : State} {a : Nat}

/-! ### The frames of restore steps (R119, R134, R149, R154) -/

/-- The pending slots of a list that begins, after slots without the mark, with a marked one. -/
theorem pendingSlots_of_split {l l' : List Nat} {i : Nat} (hlist : s.replayList a = l ++ i :: l')
    (hbefore : ∀ j ∈ l, s.slotPending j = false) (hi : s.slotPending i = true) :
    s.pendingSlots a = i :: l'.filter s.slotPending := by
  unfold State.pendingSlots
  rw [hlist, List.filter_append, List.filter_eq_nil_iff.2 fun j hj => by rw [hbefore j hj]; exact Bool.false_ne_true,
    List.filter_cons_of_pos hi]
  rfl

theorem slotPending_of_slot {i : Nat} {q : ShadowRecord} (h : s.slot i = some q) : s.slotPending i = q.marked := by
  unfold State.slotPending; rw [h]

theorem blockData_of_filled {x : Session} {b : Nat} {data : List Byte} (hb : x.buffer = some b)
    (hfilled : s.restore.buffers[b]? = some (.filled a data)) : s.blockData a x = some data := by
  unfold State.blockData
  rw [hb]
  dsimp only
  rw [hfilled]
  exact if_pos rfl

theorem identityBytes_written (x : Identity) :
    identityBytes (some x) = le16n x.car ++ [u8 x.position, match x.orientation with | .a => 0 | .b => 1] := by
  obtain ⟨car, position, orientation⟩ := x
  cases orientation <;> rfl

theorem stepFrame_config {e : NodeEntry} (he : s.entry a = some e) :
    s.stepFrame a .config = some (plainStepFrame a .config (identityBytes s.responder.identity ++ e.config)) := by
  show (s.entry a).map _ = _
  rw [he]
  rfl

theorem stepFrame_imageBlock {x : Session} {b : Nat} {data : List Byte} (hx : s.session a = some x) (hb : x.buffer = some b)
    (hfilled : s.restore.buffers[b]? = some (.filled a data)) :
    s.stepFrame a .imageBlock = some (plainStepFrame a .imageBlock (le16n x.next ++ data)) := by
  show (match s.session a with
    | some x => (s.blockData a x).map (fun d => plainStepFrame a .imageBlock (le16n x.next ++ d))
    | none => none) = _
  rw [hx]
  dsimp only
  rw [blockData_of_filled hb hfilled]
  rfl

theorem stepFrame_imageEnd {x : Session} {c : CatalogueEntry} (hx : s.session a = some x) (hc : s.place x.entry = some c) :
    s.stepFrame a .imageEnd = some (plainStepFrame a .imageEnd (imageEndPayload c.image)) := by
  show ((s.session a).bind s.sessionImage).map _ = _
  rw [hx, Option.bind_some]
  unfold State.sessionImage
  rw [hc]
  rfl

theorem stepFrame_replay {i : Nat} {l : List Nat} {r : ShadowRecord} (hpending : s.pendingSlots a = i :: l)
    (hr : s.slot i = some r) : s.stepFrame a .replay = some (replayFrame a r) := by
  show (match s.pendingSlots a with | i :: _ => (s.slot i).map (replayFrame a) | [] => none) = _
  rw [hpending]
  dsimp only
  rw [hr]
  rfl

theorem stepFrame_release {e : HoldEntry} {l : List HoldEntry} (hqueue : s.queue a = e :: l) :
    s.stepFrame a .release = some (releaseFrame a e) := by
  show (s.queue a).head?.map _ = _
  rw [hqueue]
  rfl

/-- Settles O50: each step's frame is its kind, its function, its marker and its payload. -/
theorem restoreStepFramesOnTheWire : Obligations.RestoreStepFramesOnTheWire := by
  intro s a
  have hwire : ∀ {k f}, s.stepFrame a k = some f → (s.stepFrame a k).map SegmentFrame.wire = some f.wire := fun h => by
    rw [h]; rfl
  refine ⟨rfl, rfl, fun e x he hx => ?_, fun e he hx => ?_,
    fun x b data hx hb hfilled => hwire (stepFrame_imageBlock hx hb hfilled), fun x c hx hc => hwire (stepFrame_imageEnd hx hc),
    fun i l l' r hlist hbefore hr hmarked => ?_, fun e rest hqueue hkind => ?_, fun e rest hqueue hkind => ?_, fun f => ?_⟩
  · have h := hwire (stepFrame_config he)
    rw [hx, identityBytes_written] at h
    exact h
  · have h := hwire (stepFrame_config he)
    rw [hx] at h
    exact h
  · refine hwire (stepFrame_replay (pendingSlots_of_split hlist (fun j hj => ?_) ((slotPending_of_slot hr).trans hmarked)) hr)
    unfold State.slotPending
    split
    · next q hq => exact hbefore j hj q hq
    · rfl
  · have h := hwire (stepFrame_release hqueue)
    unfold releaseFrame at h
    rw [hkind] at h
    exact h
  · have h := hwire (stepFrame_release hqueue)
    unfold releaseFrame at h
    cases hk : e.kind with
    | query => exact absurd hk hkind
    | command => rw [hk] at h; exact h
    | broadcast => rw [hk] at h; exact h
  · unfold SegmentFrame.wire SegmentFrame.covered check16
    simp only [List.length_cons, List.length_append, List.length_nil]
    omega

end

section
variable {s : State} {a : Nat}

/-! ### The search of the arbiter (R77, R78) -/

/-- A READY step of a node of a class that can start (R76, R77). -/
def State.Ready (s : State) (c : NodeClass) (a : Nat) : Prop :=
  ∃ e r k f, s.entry a = some e ∧ e.cls = c ∧ s.runtime a = some r ∧ r.step = .ready k ∧ s.stepFrame a k = some f
    ∧ (k = .release → s.needsReservation a = true → s.freeEntry ≠ none)

theorem candidate_of_ready {r : Runtime} {k : StepKind} {f : SegmentFrame} (hr : s.runtime a = some r) (hstep : r.step = .ready k)
    (hf : s.stepFrame a k = some f) (hfree : k = .release → s.needsReservation a = true → s.freeEntry ≠ none) :
    s.candidate a = some (k, f) := by
  obtain ⟨state, bootCount, noReply, attempts, expected, phase, window, nextProbe, step, misses, session, restores, survived,
    lost, refusals, passNoReplies⟩ := r
  cases hstep
  unfold State.candidate
  rw [hr]
  dsimp only
  rw [if_neg fun h => hfree h.1 h.2.1 h.2.2, hf]
  rfl

theorem isClass_iff {c : NodeClass} : s.isClass a c = true ↔ ∃ e, s.entry a = some e ∧ e.cls = c := by
  unfold State.isClass
  cases s.entry a with
  | none => exact ⟨nofun, nofun⟩
  | some e => exact ⟨fun h => ⟨e, rfl, beq_iff_eq.1 h⟩, fun ⟨_, he, h⟩ => by cases he; exact beq_iff_eq.2 h⟩

theorem ready_iff {c : NodeClass} : s.Ready c a ↔ (s.isClass a c && (s.candidate a).isSome) = true := by
  rw [Bool.and_eq_true, isClass_iff]
  constructor
  · rintro ⟨e, r, k, f, he, hc, hr, hstep, hf, hfree⟩
    exact ⟨⟨e, he, hc⟩, by rw [candidate_of_ready hr hstep hf hfree]; rfl⟩
  · rintro ⟨⟨e, he, hc⟩, hsome⟩
    obtain ⟨⟨k, f⟩, hcandidate⟩ := Option.isSome_iff_exists.1 hsome
    obtain ⟨r, hr, hstep⟩ := step_of_candidate hcandidate
    unfold State.candidate at hcandidate
    split at hcandidate
    · next l hl =>
      cases hl.symm.trans hr
      cases hstep
      split at hcandidate
      · cases hcandidate
      · next hfree =>
        obtain ⟨g, hg, heq⟩ := Option.map_eq_some_iff.1 hcandidate
        cases heq
        exact ⟨e, _, k, f, he, hc, hr, rfl, hg, fun hk hn hf => hfree ⟨hk, hn, hf⟩⟩
    · cases hcandidate

/-- The place of an address in the round that begins after `last`. -/
def turnOf (last a : Nat) : Nat := (a + 29 - last) % 30

theorem searchOrder_turn {last k b : Nat} (hlast : last ≤ 30) (h : (searchOrder last)[k]? = some b) : turnOf last b = k := by
  unfold searchOrder at h
  unfold turnOf
  rw [List.getElem?_append] at h
  simp only [List.length_range'] at h
  split at h
  · rw [List.getElem?_range' (by assumption)] at h
    cases h
    omega
  · next hk =>
    by_cases hlt : k - (30 - last) < last
    · rw [List.getElem?_range' hlt] at h
      cases h
      omega
    · rw [List.getElem?_eq_none (by simp only [List.length_range']; omega)] at h
      cases h

theorem mem_searchOrder {last : Nat} (hlast : last ≤ 30) (ha : isAddress a = true) : a ∈ searchOrder last := by
  have hbounds := of_decide_eq_true ha
  unfold searchOrder
  rw [List.mem_append, List.mem_range'_1, List.mem_range'_1]
  omega

/-- The round takes the READY step whose turn is first. -/
theorem chooseStep_of_first {c : NodeClass} {last : Nat} (hlast : last ≤ 30) (ha : s.Ready c a)
    (hfirst : ∀ b, s.Ready c b → turnOf last a ≤ turnOf last b) : s.chooseStep c last = some a := by
  unfold State.chooseStep
  obtain ⟨e, _, _, _, he, -⟩ := id ha
  cases hfound : (searchOrder last).find? fun a => s.isClass a c && (s.candidate a).isSome with
  | none => exact absurd (ready_iff.1 ha) (List.find?_eq_none.1 hfound a (mem_searchOrder hlast (isAddress_of_entry he)))
  | some b =>
    have hb : s.Ready c b := ready_iff.2 (List.find?_some (p := fun a => s.isClass a c && (s.candidate a).isSome) hfound)
    obtain ⟨-, i, hi, hib, hbefore⟩ := List.find?_eq_some_iff_getElem.1 hfound
    obtain ⟨j, hj, hja⟩ := List.getElem_of_mem (mem_searchOrder hlast (isAddress_of_entry he))
    have hti := searchOrder_turn hlast (List.getElem?_eq_some_iff.2 ⟨hi, hib⟩)
    have htj := searchOrder_turn hlast (List.getElem?_eq_some_iff.2 ⟨hj, hja⟩)
    have hle : j ≤ i := by
      have := hfirst b hb
      omega
    rcases Nat.lt_or_eq_of_le hle with hlt | heq
    · have hnot := hbefore j hlt
      rw [hja, ready_iff.1 ha] at hnot
      cases hnot
    · subst heq
      exact congrArg some (hib.symm.trans hja)

theorem chooseStep_of_none {c : NodeClass} (h : ∀ b, ¬ s.Ready c b) (last : Nat) : s.chooseStep c last = none := by
  unfold State.chooseStep
  exact List.find?_eq_none.2 fun b _ hb => h b (ready_iff.2 hb)

/-! ### What is picked (R77, R80) -/

theorem pick_urgent {e : PassEntry} {rest : List PassEntry} (h : s.segment.urgent = e :: rest) : s.pick = .urgent e rest := by
  unfold State.pick; rw [h]

theorem pick_limit {e : PassEntry} {rest : List PassEntry} (hurgent : s.segment.urgent = [])
    (hnormal : s.segment.normal = e :: rest) (hlimit : s.params.restoreRunLimit ≤ s.segment.runCount) :
    s.pick = .normal e rest := by
  unfold State.pick; rw [hurgent, hnormal]; exact if_pos hlimit

theorem pick_below (hurgent : s.segment.urgent = [])
    (hnormal : s.segment.normal = [] ∨ s.segment.runCount < s.params.restoreRunLimit) : s.pick = s.pickBelowUrgent := by
  unfold State.pick
  rw [hurgent]
  dsimp only
  split
  · next h =>
    rcases hnormal with hn | hlt
    · rw [h] at hn; cases hn
    · exact if_neg (Nat.not_le.2 hlt)
  · rfl

theorem pickBelow_entrance (h : s.chooseStep .entrance s.segment.lastEntrance = some a) : s.pickBelowUrgent = .step a := by
  unfold State.pickBelowUrgent; rw [h]

theorem pickBelow_normal {e : PassEntry} {rest : List PassEntry} (h : ∀ b, ¬ s.Ready .entrance b)
    (hnormal : s.segment.normal = e :: rest) : s.pickBelowUrgent = .normal e rest := by
  unfold State.pickBelowUrgent; rw [chooseStep_of_none h, hnormal]

theorem pickBelow_info (h : ∀ b, ¬ s.Ready .entrance b) (hnormal : s.segment.normal = []) :
    s.pickBelowUrgent = match s.chooseStep .info s.segment.lastInfo with | some a => .step a | none => .nothing := by
  unfold State.pickBelowUrgent; rw [chooseStep_of_none h, hnormal] <;> rfl

theorem exec_transactionStart (hfree : s.segment.line = .free) (hrunning : s.segment.restartPending = false) :
    exec .transactionStart s = happens (startPicked s.pick s) s := by
  show happens (transactionStart s) s = _
  unfold transactionStart
  rw [if_pos ⟨hfree, hrunning⟩]

/-! ### The start of a step (R79, R80, R119, R135, R149) -/

/-- A session when its block or its IMAGE END is sent (R149, R152, R154). -/
def Session.sent (k : StepKind) (x : Session) : Session :=
  match k with
  | .imageBlock => { x with lastSent := .block, busyCount := 0 }
  | .imageEnd => { x with lastSent := .imageEnd, busyCount := 0 }
  | _ => x

/-- What the start of node `a`'s step leaves before the frame is on the wire. -/
structure Begun (a : Nat) (k : StepKind) (r : Runtime) (s t : State) : Prop where
  frame : ∃ x y z w, t = { s with restore := x, hold := y, trunk := z, shadow := { s.shadow with inFlight := w } }
  ingress : t.trunk.ingress = s.trunk.ingress
  record : t.runtime a = some { r with session := r.session.map (Session.sent k) }
  runtimes : ∀ b, b ≠ a → t.runtime b = s.runtime b
  queues : ∀ b, b ≠ a → t.queue b = s.queue b
  flights : ∀ b, b ≠ a → t.replayInFlight b = s.replayInFlight b
  shadow : k ≠ .replay → t.shadow = s.shadow
  replay : ∀ i l, k = .replay → s.pendingSlots a = i :: l → t.replayInFlight a = some { slot := i, replaced := false }
  hold : k ≠ .release → t.hold = s.hold ∧ t.trunk = s.trunk
  head : ∀ h l, k = .release → s.queue a = h :: l → s.needsReservation a = false →
    t.queue a = { h with inFlight := true } :: l ∧ t.trunk = s.trunk
  reserved : ∀ h l i, k = .release → s.queue a = h :: l → s.needsReservation a = true → s.freeEntry = some i →
    t.queue a = { h with inFlight := true, reservation := some i } :: l
      ∧ t.trunk = { s.trunk with egress := s.trunk.egress.setIfInBounds i .reserved }

theorem begun_of_plain {r : Runtime} {k : StepKind} (hr : s.runtime a = some r) (hsent : r.session.map (Session.sent k) = r.session)
    (hreplay : k ≠ .replay) (hrelease : k ≠ .release) : Begun a k r s s where
  frame := ⟨_, _, _, _, rfl⟩
  ingress := rfl
  record := by rw [hsent]; exact hr
  runtimes := fun _ _ => rfl
  queues := fun _ _ => rfl
  flights := fun _ _ => rfl
  shadow := fun _ => rfl
  replay := fun _ _ h => absurd h hreplay
  hold := fun _ => ⟨rfl, rfl⟩
  head := fun _ _ h => absurd h hrelease
  reserved := fun _ _ _ h => absurd h hrelease

theorem begun_of_session {r : Runtime} {k : StepKind} (hr : s.runtime a = some r) (hreplay : k ≠ .replay)
    (hrelease : k ≠ .release) : Begun a k r s (s.mapSession a (Session.sent k)) := by
  have hblocks := sameBlocks_mapRuntime s a fun r => { r with session := r.session.map (Session.sent k) }
  have hframe : s.mapSession a (Session.sent k) =
      s.withRestore (s.mapSession a (Session.sent k)).restore := by
    unfold State.mapSession State.mapRuntime
    split <;> rfl
  refine ⟨⟨_, s.hold, s.trunk, s.shadow.inFlight, hframe⟩, ?_, runtime_mapRuntime_same hr _,
    fun b hb => runtime_mapRuntime_other s hb _, fun b _ => hblocks.queue b, fun b _ => ?_, fun _ => hblocks.shadow,
    fun _ _ h => absurd h hreplay, fun _ => ⟨hblocks.hold, ?_⟩, fun _ _ h => absurd h hrelease,
    fun _ _ _ h => absurd h hrelease⟩
  · rw [hframe]; rfl
  · rw [hframe]; rfl
  · rw [hframe]; rfl

theorem begun_of_replay {r : Runtime} (hr : s.runtime a = some r) : Begun a .replay r s (beginStep a .replay s) := by
  have hsent : r.session.map (Session.sent .replay) = r.session := Option.map_id'
  have hlist : ∀ i l, s.pendingSlots a = i :: l →
      beginStep a .replay s = s.setReplayInFlight a (some { slot := i, replaced := false }) := fun i l h => by
    unfold beginStep
    dsimp only
    rw [h]
  cases hpending : s.pendingSlots a with
  | nil =>
    have hsame : beginStep a .replay s = s := by unfold beginStep; dsimp only; rw [hpending]
    rw [hsame]
    exact ⟨⟨_, _, _, _, rfl⟩, rfl, by rw [hsent]; exact hr, fun _ _ => rfl, fun _ _ => rfl, fun _ _ => rfl,
      fun h => absurd rfl h, fun i l _ h => absurd (hpending.symm.trans h) nofun, fun _ => ⟨rfl, rfl⟩, nofun, nofun⟩
  | cons i l =>
    rw [hlist i l hpending]
    refine ⟨⟨_, _, _, _, rfl⟩, rfl, by rw [hsent]; exact hr, fun _ _ => rfl, fun _ _ => rfl, fun b hb => ?_,
      fun h => absurd rfl h, fun j m _ h => ?_, fun _ => ⟨rfl, rfl⟩, nofun, nofun⟩
    · rw [replayInFlight_setReplayInFlight, if_neg fun h => hb h.1.symm]
    · rw [hpending] at h
      cases h
      rw [replayInFlight_setReplayInFlight, if_pos ⟨rfl, isAddress_of_runtime hr⟩]

theorem reserveRelease_unneeded (h : s.needsReservation a = false) : reserveRelease a s = s := by
  unfold reserveRelease; rw [h]; rfl

theorem reserveRelease_made {h : HoldEntry} {l : List HoldEntry} {i : Nat} (hqueue : s.queue a = h :: l)
    (hneeds : s.needsReservation a = true) (hfree : s.freeEntry = some i) :
    reserveRelease a s = (s.setEgress i .reserved).setQueue a ({ h with reservation := some i } :: l) := by
  unfold reserveRelease
  rw [if_pos hneeds, hqueue, hfree]

/-- The head of a queue goes in flight. -/
def sendHead (a : Nat) (s : State) : State :=
  match s.queue a with
  | e :: rest => s.setQueue a ({ e with inFlight := true } :: rest)
  | [] => s

theorem beginStep_release (a : Nat) (s : State) : beginStep a .release s = sendHead a (reserveRelease a s) := rfl

theorem sendHead_cons {e : HoldEntry} {l : List HoldEntry} (h : s.queue a = e :: l) :
    sendHead a s = s.setQueue a ({ e with inFlight := true } :: l) := by
  unfold sendHead; rw [h]

theorem setQueue_setQueue (s : State) (a : Nat) (q p : List HoldEntry) : ((s.setQueue a q).setQueue a p) = s.setQueue a p := by
  unfold State.setQueue
  show s.withHold { s.hold with queues := putNode (putNode s.hold.queues a q) a p } = _
  rw [show putNode (putNode s.hold.queues a q) a p = putNode s.hold.queues a p from ?_]
  unfold putNode
  split
  · rfl
  · exact Vector.ext fun i hi => by simp [Vector.getElem_setIfInBounds]

theorem begun_of_release {r : Runtime} (hr : s.runtime a = some r)
    (hfree : s.needsReservation a = true → s.freeEntry ≠ none) : Begun a .release r s (beginStep a .release s) := by
  have hsent : r.session.map (Session.sent .release) = r.session := Option.map_id'
  have ha := isAddress_of_runtime hr
  rw [beginStep_release]
  cases hqueue : s.queue a with
  | nil =>
    have hneeds : s.needsReservation a = false := by unfold State.needsReservation; rw [hqueue]
    have hsame : sendHead a (reserveRelease a s) = s := by
      rw [reserveRelease_unneeded hneeds]; unfold sendHead; rw [hqueue]
    rw [hsame]
    exact ⟨⟨_, _, _, _, rfl⟩, rfl, by rw [hsent]; exact hr, fun _ _ => rfl, fun _ _ => rfl, fun _ _ => rfl, fun _ => rfl, nofun,
      fun h => absurd rfl h, fun h l _ hq => absurd (hqueue.symm.trans hq) nofun,
      fun h l i _ hq => absurd (hqueue.symm.trans hq) nofun⟩
  | cons e l =>
    cases hneeds : s.needsReservation a with
    | false =>
      rw [reserveRelease_unneeded hneeds, sendHead_cons hqueue]
      refine ⟨⟨_, _, _, _, rfl⟩, rfl, by rw [hsent]; exact hr, fun _ _ => rfl, fun b hb => ?_, fun _ _ => rfl, fun _ => rfl,
        nofun, fun h => absurd rfl h, fun h m _ hq _ => ?_, fun h m i _ _ hn => absurd (hneeds.symm.trans hn) nofun⟩
      · rw [queue_setQueue, if_neg fun h => hb h.1.symm]
      · rw [hqueue] at hq
        cases hq
        exact ⟨(queue_setQueue ..).trans (if_pos ⟨rfl, ha⟩), rfl⟩
    | true =>
      obtain ⟨i, hi⟩ := Option.ne_none_iff_exists'.1 (hfree hneeds)
      rw [reserveRelease_made hqueue hneeds hi, sendHead_cons ((queue_setQueue ..).trans (if_pos ⟨rfl, ha⟩)), setQueue_setQueue]
      refine ⟨⟨_, _, _, _, rfl⟩, rfl, by rw [hsent]; exact hr, fun _ _ => rfl, fun b hb => ?_, fun _ _ => rfl, fun _ => rfl,
        nofun, fun h => absurd rfl h, fun h m _ _ hn => absurd (hneeds.symm.trans hn) nofun, fun h m j _ hq _ hj => ?_⟩
      · rw [queue_setQueue, if_neg fun h => hb h.1.symm]
        rfl
      · rw [hqueue] at hq
        cases hq
        cases hi.symm.trans hj
        exact ⟨(queue_setQueue ..).trans (if_pos ⟨rfl, ha⟩), rfl⟩

theorem beginStep_begun {r : Runtime} {k : StepKind} (hr : s.runtime a = some r)
    (hfree : k = .release → s.needsReservation a = true → s.freeEntry ≠ none) : Begun a k r s (beginStep a k s) := by
  have hsame : r.session.map (fun x : Session => x) = r.session := Option.map_id'
  cases k with
  | probe => exact begun_of_plain hr hsame nofun nofun
  | config => exact begun_of_plain hr hsame nofun nofun
  | busyPoll => exact begun_of_plain hr hsame nofun nofun
  | imageBlock => exact begun_of_session hr nofun nofun
  | imageEnd => exact begun_of_session hr nofun nofun
  | replay => exact begun_of_replay hr
  | release => exact begun_of_release hr (hfree rfl)

end

section
variable {s : State} {a : Nat}

/-- A frame goes on the wire (R64). -/
def wireLine (c : Carrier) (f : SegmentFrame) (kept : Bool) : Line :=
  .sending { carries := c, destination := f.destination, kind := f.kind, timeout := none, destinationKept := kept } f.wire

theorem exec_pass (hfree : s.segment.line = .free) (hrunning : s.segment.restartPending = false) {e : PassEntry}
    {g : SegmentMaster} (h : startPicked s.pick s = some (startPass e (s.withSegment g))) :
    exec .transactionStart s =
      .next (endCommand
        { s with segment := { g with line := wireLine (.pass e) (passFrame e) (s.runtime e.destination).isSome } }) := by
  rw [exec_transactionStart hfree hrunning, h]
  rfl

/-- What the start of a step's transaction leaves. -/
structure StepStarted (c : NodeClass) (a : Nat) (k : StepKind) (r : Runtime) (f : SegmentFrame) (s t : State) : Prop where
  begun : ∃ u, Begun a k r s u ∧ t.hold = u.hold ∧ t.shadow = u.shadow
    ∧ t.trunk = (endCommand { s with trunk := u.trunk }).trunk
  segment : t.segment =
    { s.segment with
      line := wireLine (.step a) f true
      runCount := if s.segment.normal = [] then s.segment.runCount else min 16 (s.segment.runCount + 1)
      lastEntrance := if c = .entrance then a else s.segment.lastEntrance
      lastInfo := if c = .info then a else s.segment.lastInfo }
  record : t.runtime a = some { r with step := .inFlight k, session := r.session.map (Session.sent k) }
  runtimes : ∀ b, b ≠ a → t.runtime b = s.runtime b
  rest : t.gap = s.gap ∧ t.tables = s.tables ∧ t.store = s.store ∧ t.responder = s.responder

theorem countStep_segment {c : NodeClass} {e : NodeEntry} (he : s.entry a = some e) (hc : e.cls = c) :
    (countStep a s).segment =
      { s.segment with
        runCount := if s.segment.normal = [] then s.segment.runCount else min 16 (s.segment.runCount + 1)
        lastEntrance := if c = .entrance then a else s.segment.lastEntrance
        lastInfo := if c = .info then a else s.segment.lastInfo } := by
  have hclass : s.isClass a .entrance = true ↔ c = .entrance := by
    rw [isClass_iff]
    exact ⟨fun ⟨d, hd, h⟩ => by cases he.symm.trans hd; exact hc.symm.trans h, fun h => ⟨e, he, hc.trans h⟩⟩
  have hcount : (if s.segment.normal.isEmpty then s.segment else
        { s.segment with runCount := min 16 (s.segment.runCount + 1) }) =
      { s.segment with
        runCount := if s.segment.normal = [] then s.segment.runCount else min 16 (s.segment.runCount + 1) } := by
    cases hn : s.segment.normal with
    | nil => rfl
    | cons x l => rfl
  show (s.withSegment (if s.isClass a .entrance then { (if s.segment.normal.isEmpty then s.segment else
      { s.segment with runCount := min 16 (s.segment.runCount + 1) }) with lastEntrance := a } else
      { (if s.segment.normal.isEmpty then s.segment else
        { s.segment with runCount := min 16 (s.segment.runCount + 1) }) with lastInfo := a })).segment = _
  rw [hcount]
  cases c with
  | entrance => rw [if_pos (hclass.2 rfl)]; rfl
  | info => rw [if_neg fun h => absurd (hclass.1 h) nofun]; rfl

theorem exec_step (hfree : s.segment.line = .free) (hrunning : s.segment.restartPending = false) {c : NodeClass}
    (hpick : s.pick = .step a) (hready : s.Ready c a) {r : Runtime} {k : StepKind} {f : SegmentFrame}
    (hr : s.runtime a = some r) (hstep : r.step = .ready k) (hf : s.stepFrame a k = some f) :
    ∃ t, exec .transactionStart s = .next t ∧ StepStarted c a k r f s t := by
  obtain ⟨e, r', k', f', he, hc, hr', hstep', hf', hentry⟩ := hready
  cases hr.symm.trans hr'
  cases hstep.symm.trans hstep'
  have hbegun := beginStep_begun (k := k) hr hentry
  rw [exec_transactionStart hfree hrunning, hpick]
  show ∃ t, happens (some (startStep a s)) s = .next t ∧ _
  unfold startStep
  rw [candidate_of_ready hr hstep hf hentry]
  refine ⟨_, rfl, ?_⟩
  dsimp only
  generalize beginStep a k s = u at hbegun ⊢
  obtain ⟨x, y, z, w, hframe⟩ := hbegun.frame
  have hcounted := countStep_segment (s := u) (a := a) (c := c) (by rw [hframe]; exact he) hc
  have hrecord : (countStep a u).runtime a = some { r with session := r.session.map (Session.sent k) } := hbegun.record
  rw [mapRuntime_of_runtime hrecord, endCommand_transmit]
  refine ⟨⟨u, hbegun, rfl, rfl, ?_⟩, ?_, ?_, fun b hb => ?_, ?_⟩
  · rw [endCommand_transmit, hframe]; rfl
  · exact (congrArg (fun g : SegmentMaster => { g with line := wireLine (.step a) f true }) hcounted).trans
      (by rw [hframe])
  · exact runtime_setRuntime_same hrecord _
  · show ((countStep a u).setRuntime a _).runtime b = _
    rw [runtime_setRuntime, if_neg fun h => hb h.1.symm]
    exact hbegun.runtimes b hb
  · rw [hframe]; exact ⟨rfl, rfl, rfl, rfl⟩

/-- A RESERVED egress entry stays through the end of a command. -/
theorem endCommand_reserved {i : Nat} (h : s.trunk.egress[i]? = some .reserved) :
    (endCommand s).trunk.egress[i]? = some .reserved := by
  rw [endCommand_transmit]
  show (transmit s.trunk.egress s.trunk.order s.moment).1[i]? = _
  unfold transmit
  split
  · exact h
  · split
    · exact h
    · next w _ =>
      dsimp only
      split
      · next f hf =>
        rw [Vector.getElem?_setIfInBounds, if_neg fun hwi => ?_]
        · exact h
        · rw [hwi] at hf
          exact absurd (h.symm.trans hf) nofun
      · exact h

theorem needsReservation_cons {h : HoldEntry} {l : List HoldEntry} (hqueue : s.queue a = h :: l) :
    s.needsReservation a = (h.tag.isSome && h.reservation.isNone) := by
  unfold State.needsReservation; rw [hqueue]

/-- Settles O49: the pick by the arbiter's order, then the records of the start. -/
theorem transactionStartTakesFirstCandidate : Obligations.TransactionStartTakesFirstCandidate := by
  intro s hfree hrunning g limit line pass ready turn chosen starts
  have hstarts : ∀ {c a}, s.pick = .step a → ready c a → starts c a := by
    intro c a hpick hready r k f hr hstep hf
    obtain ⟨t, hexec, hstarted⟩ := exec_step hfree hrunning hpick hready hr hstep hf
    obtain ⟨u, hbegun, hhold, hshadow, htrunk⟩ := hstarted.begun
    obtain ⟨hgap, htables, hstore, hresponder⟩ := hstarted.rest
    obtain ⟨x, y, z, w, hframe⟩ := hbegun.frame
    have hend : ∀ v : TrunkPort, u.trunk = v → t.trunk = (endCommand { s with trunk := v }).trunk := fun v hv => by
      rw [← hv]; exact htrunk
    have hqueue : ∀ b, t.queue b = u.queue b := fun b => by unfold State.queue; rw [hhold]
    refine ⟨t, hexec, hstarted.segment, hstarted.record, fun b hb => ⟨hstarted.runtimes b hb,
      (hqueue b).trans (hbegun.queues b hb), ?_⟩, hgap, htables, hstore, hresponder, ?_, ?_,
      fun hk => hshadow.trans (hbegun.shadow hk), fun l i l' q hk hlist hbefore hq hmarked => ?_,
      fun hk => ⟨hhold.trans (hbegun.hold hk).1, hend _ (hbegun.hold hk).2⟩, fun h l hk hcons => ⟨fun hheld => ?_,
      fun i htag hres hi => ?_⟩⟩
    · unfold State.replayInFlight
      rw [hshadow]
      exact hbegun.flights b hb
    · rw [htrunk, endCommand_transmit]
      exact hbegun.ingress
    · rw [hshadow, hframe]
    · have hpending := pendingSlots_of_split hlist hbefore ((slotPending_of_slot hq).trans hmarked)
      unfold State.replayInFlight
      rw [hshadow]
      exact hbegun.replay i _ hk hpending
    · have hneeds : s.needsReservation a = false := by
        rw [needsReservation_cons hcons]
        rcases hheld with hnone | h
        · rw [hnone]; rfl
        · rw [Option.isNone_eq_false_iff.2 (Option.isSome_iff_ne_none.2 h), Bool.and_false]
      obtain ⟨hq, ht⟩ := hbegun.head h l hk hcons hneeds
      exact ⟨(hqueue a).trans hq, hend _ ht⟩
    · have hneeds : s.needsReservation a = true := by
        rw [needsReservation_cons hcons, hres, Option.isSome_iff_ne_none.2 htag]
        rfl
      obtain ⟨hq, ht⟩ := hbegun.reserved h l i hk hcons hneeds hi
      refine ⟨(hqueue a).trans hq, ?_, hend _ ht⟩
      rw [hend _ ht]
      refine endCommand_reserved ?_
      show (s.trunk.egress.setIfInBounds i .reserved)[i]? = _
      rw [Vector.getElem?_setIfInBounds, if_pos rfl, if_pos (freeEntry_eq_some hi).1]
  refine ⟨fun e rest hurgent => ?_, fun e rest hurgent hnormal hlimit => ?_, fun a hurgent hnormal hchosen => ?_,
    fun e rest hurgent hnormal hlt hnone => ?_, fun a hurgent hnormal hnone hchosen => ?_, fun hurgent hnormal hnone hnone' => ?_⟩
  · exact exec_pass hfree hrunning (g := { g with urgent := rest }) (by rw [pick_urgent hurgent]; rfl)
  · exact exec_pass hfree hrunning (g := { g with normal := rest, runCount := 0 })
      (by rw [pick_limit hurgent hnormal hlimit]; rfl)
  · obtain ⟨hlast, hready, hfirst⟩ := hchosen
    refine hstarts ?_ hready
    rw [pick_below hurgent hnormal, pickBelow_entrance (chooseStep_of_first hlast hready hfirst)]
  · exact exec_pass hfree hrunning (g := { g with normal := rest, runCount := 0 })
      (by rw [pick_below hurgent (.inr hlt), pickBelow_normal hnone hnormal]; rfl)
  · obtain ⟨hlast, hready, hfirst⟩ := hchosen
    refine hstarts ?_ hready
    rw [pick_below hurgent (.inl hnormal), pickBelow_info hnone hnormal, chooseStep_of_first hlast hready hfirst]
  · rw [exec_transactionStart hfree hrunning, pick_below hurgent (.inl hnormal), pickBelow_info hnone hnormal,
      chooseStep_of_none hnone']
    rfl

end

end Sys2Proof.Machine
end

section
/-! SUPPORT. How transactions end: replies that fail a test, misses, pass transactions and broadcasts (R5, R6, R65 to R71). -/

namespace Sys2Proof.Machine

/-! ### Replies that R6 refuses -/

theorem ReplyKind.code_of_ofCode {b : Byte} {k : ReplyKind} (h : ReplyKind.ofCode b = some k) : b = k.code :=
  (beq_iff_eq.1 (List.find?_some (p := fun k : ReplyKind => k.code == b) h)).symm

theorem ImageState.code_le {b : Byte} {x : ImageState} (h : ImageState.ofCode b = some x) : b.toNat ≤ 3 := by
  unfold ImageState.ofCode at h
  split at h
  · next hb => rw [hb]; decide
  · split at h
    · next hb => rw [hb]; decide
    · split at h
      · next hb => rw [hb]; decide
      · split at h
        · next hb => rw [hb]; decide
        · cases h

theorem Token.code_le {b : Byte} {x : Token} (h : Token.ofCode b = some x) : b.toNat ≤ 4 := by
  unfold Token.ofCode at h
  split at h
  · next hb => rw [hb]; decide
  · split at h
    · next hb => rw [hb]; decide
    · split at h
      · next hb => rw [hb]; decide
      · split at h
        · next hb => rw [hb]; decide
        · split at h
          · next hb => rw [hb]; decide
          · cases h

theorem parseToken_isSome {payload : List Byte} (h : (parseToken payload).isSome = true) :
    payload.length = 1 ∧ (byteAt payload 0).toNat ≤ 4 := by
  unfold parseToken at h
  split at h
  · next hlength =>
    obtain ⟨x, hx⟩ := Option.isSome_iff_exists.1 h
    exact ⟨hlength, Token.code_le hx⟩
  · cases h

theorem parseStatus_isSome {payload : List Byte} (h : (parseStatus payload).isSome = true) :
    payload.length = 8 ∧ (byteAt payload 0).toNat ≤ 3 ∧ (byteAt payload 5).toNat + 256 * (byteAt payload 6).toNat ≤ 4095 := by
  unfold parseStatus at h
  split at h
  · next hlength =>
    split at h
    · next x hx =>
      dsimp only at h
      split at h
      · next hresume =>
        refine ⟨hlength, ImageState.code_le hx, ?_⟩
        rw [word16At_toNat] at hresume
        omega
      · cases h
    · cases h
  · cases h

/-- What R6 takes is listed. -/
theorem listed_of_fits {sent : SegmentKind} {r : RawReply} {k : ReplyKind} (hk : ReplyKind.ofCode r.kind = some k)
    (hfits : (replyKindFits sent k && payloadFits k r.payload) = true) : r.Listed sent := by
  obtain ⟨hkind, hpayload⟩ := Bool.and_eq_true_iff.1 hfits
  have hcode := ReplyKind.code_of_ofCode hk
  have haccept : k = .accept → r.kind = 0x80 ∧ r.payload = [] := fun h => by
    subst h; exact ⟨hcode, List.length_eq_zero_iff.1 (beq_iff_eq.1 hpayload)⟩
  have hrefuse : k = .refuse → r.kind = 0x81 ∧ r.payload.length = 1 := fun h => by
    subst h; exact ⟨hcode, beq_iff_eq.1 hpayload⟩
  have hanswer : k = .answer → r.kind = 0x82 ∧ r.payload.length ≤ 64 := fun h => by
    subst h; exact ⟨hcode, of_decide_eq_true hpayload⟩
  have hstatus : k = .statusReport → r.kind = 0x90 ∧ r.payload.length = 8 ∧ (byteAt r.payload 0).toNat ≤ 3
      ∧ (byteAt r.payload 5).toNat + 256 * (byteAt r.payload 6).toNat ≤ 4095 := fun h => by
    subst h; exact ⟨hcode, parseStatus_isSome hpayload⟩
  have htoken : k = .blockToken → r.kind = 0x91 ∧ r.payload.length = 1 ∧ (byteAt r.payload 0).toNat ≤ 4 := fun h => by
    subst h; exact ⟨hcode, parseToken_isSome hpayload⟩
  have hfit : ∀ l : List ReplyKind, (∀ x, replyKindFits sent x = true → x ∈ l) → k ∈ l := fun l hl => hl k hkind
  cases sent with
  | command =>
    have hmem := hfit [.accept, .refuse, .answer] (fun x => by cases x <;> decide)
    simp only [List.mem_cons, List.not_mem_nil, or_false] at hmem
    exact hmem.imp haccept (Or.imp hrefuse hanswer)
  | query =>
    have hmem := hfit [.answer, .refuse] (fun x => by cases x <;> decide)
    simp only [List.mem_cons, List.not_mem_nil, or_false] at hmem
    exact hmem.imp hanswer hrefuse
  | config =>
    have hmem := hfit [.accept, .refuse] (fun x => by cases x <;> decide)
    simp only [List.mem_cons, List.not_mem_nil, or_false] at hmem
    exact hmem.imp haccept hrefuse
  | statusQuery => exact hstatus (List.mem_singleton.1 (hfit [.statusReport] fun x => by cases x <;> decide))
  | imageBlock => exact htoken (List.mem_singleton.1 (hfit [.blockToken] fun x => by cases x <;> decide))
  | imageEnd => exact htoken (List.mem_singleton.1 (hfit [.blockToken] fun x => by cases x <;> decide))
  | busyPoll => exact htoken (List.mem_singleton.1 (hfit [.blockToken] fun x => by cases x <;> decide))
  | broadcast => cases k <;> cases hkind

theorem judgeReply_of_fails {sent : SegmentKind} {a : Nat} {r : RawReply} (h : r.Fails sent a) :
    judgeReply sent a r = .badCheck := by
  unfold judgeReply
  split
  · next htests =>
    obtain ⟨hcheck, hdestination, hsource⟩ := htests
    split
    · next k hk =>
      split
      · next hfits =>
        rcases h with h | h | h | h
        · exact absurd hcheck h
        · exact absurd hdestination h
        · exact absurd hsource h
        · exact absurd (listed_of_fits hk hfits) h
      · rfl
    · rfl
  · rfl

/-! ### Misses (R65 to R67) -/

section
variable {s m : State} {t : Transaction} {c : Instr} {a : Nat}

/-- The end of the transaction with a result, once the line and the flag have been set. -/
def endedWith (t : Transaction) (res : Result) (s : State) : State :=
  match t.carries with
  | .pass e => passEnded t e res s
  | .step node => stepEnded node res s

theorem transactionEnded_eq (t : Transaction) (res : Result) (line : Line) (s : State) :
    transactionEnded t res line s =
      endedWith t res (if res = .badCheck then raiseFlag .segmentCheck (s.setLine line) else s.setLine line) := by
  unfold transactionEnded endedWith
  rfl

/-- What a miss leaves before its result is used: the line, and for a bad check SEGMENT_CHECK. -/
structure Missed (s : State) (c : Instr) (m : State) : Prop where
  frame : ∃ l x y, m = { s with segment := { s.segment with line := l }, trunk := x, responder := y }
  flag : c ≠ .replyTimeout → m.flagSet .segmentCheck = true

theorem State.Misses.missed (h : s.Misses t c m) : Missed s c m := by
  have hraised : ∀ l, Missed s c (raiseFlag .segmentCheck (s.setLine l)) := fun l => by
    refine ⟨?_, fun _ => flagSet_raiseFlag ..⟩
    obtain ⟨x, y, hr⟩ := reports_raiseFlag .segmentCheck (s.setLine l)
    exact ⟨l, x, y, hr⟩
  rcases h with ⟨rfl, -, rfl⟩ | ⟨_, _, -, -, -, -, rfl⟩ | ⟨n, -, -, -, rfl⟩
  · exact ⟨⟨_, _, _, rfl⟩, fun h => absurd rfl h⟩
  · exact hraised .free
  · exact hraised (.settling n)

/-- A miss hands a timeout or a bad check to the transaction's own rule. -/
theorem State.Misses.exec_eq (h : s.Misses t c m) :
    ∃ res, (res = .timeout ∨ res = .badCheck) ∧ exec c s = .next (endCommand (endedWith t res m)) := by
  rcases h with ⟨rfl, hline, rfl⟩ | ⟨chars, r, rfl, hline, hcollect, hfails, rfl⟩ | ⟨n, hc, hline, htimeout, rfl⟩
  · refine ⟨.timeout, .inl rfl, ?_⟩
    show happens (replyTimeout s) s = _
    unfold replyTimeout
    rw [hline]
    dsimp only
    rw [transactionEnded_eq]
    rfl
  · refine ⟨.badCheck, .inr rfl, ?_⟩
    show happens (replyReceived chars s) s = _
    unfold replyReceived
    rw [hline]
    dsimp only
    rw [hcollect]
    dsimp only
    rw [judgeReply_of_fails hfails, transactionEnded_eq]
    rfl
  · have hcut : replyCutShort s = some (endedWith t .badCheck
        (raiseFlag .segmentCheck { s with segment := { s.segment with line := .settling n } })) := by
      unfold replyCutShort
      rw [hline]
      dsimp only
      rw [transactionEnded_eq, htimeout]
      rfl
    refine ⟨.badCheck, .inr rfl, ?_⟩
    rcases hc with rfl | ⟨length, hlong, rfl⟩
    · show happens (replyCutShort s) s = _
      rw [hcut]
      rfl
    · show happens (replyTooLong length s) s = _
      unfold replyTooLong
      rw [if_pos hlong, hcut]
      rfl

end

/-! ### Pass transactions to a node (R69, R70) -/

theorem putNode_same {α : Type} {v : PerNode α} {a : Nat} {x : α} (h : atNode v a = some x) : putNode v a x = v := by
  unfold atNode at h
  unfold putNode
  split
  · rfl
  · next ha =>
    rw [if_neg ha] at h
    refine Vector.ext fun i hi => ?_
    rw [Vector.getElem_setIfInBounds]
    split
    · next hia =>
      subst hia
      rw [Vector.getElem?_eq_getElem hi] at h
      exact (Option.some.inj h).symm
    · rfl

/-- A runtime record that is written back changes nothing. -/
theorem setRuntime_self {s : State} {a : Nat} {r : Runtime} (hr : s.runtime a = some r) : s.setRuntime a (some r) = s := by
  have hat : atNode s.restore.nodes a = some (some r) := Option.join_eq_some_iff.1 hr
  unfold State.setRuntime
  rw [putNode_same hat]
  rfl

theorem markerChanged_of_runtime {s : State} {a : Nat} {r : Runtime} (hr : s.runtime a = some r) {marker : Byte}
    (hcount : r.bootCount = none ∨ r.bootCount = some marker) : s.markerChanged a marker = false := by
  unfold State.markerChanged
  rw [hr]
  obtain hcount | hcount := hcount
  · cases r; cases hcount; rfl
  · cases r; cases hcount; simp

theorem markerChanged_of_ne {s : State} {a : Nat} {r : Runtime} (hr : s.runtime a = some r) {b marker : Byte}
    (hcount : r.bootCount = some b) (hb : b ≠ marker) : s.markerChanged a marker = true := by
  unfold State.markerChanged
  rw [hr]
  cases r
  cases hcount
  simpa using hb

/-- The states in which R49 looks at the marker of a pass reply. -/
def NodeState.watched (st : NodeState) : Prop := st ∈ [NodeState.online, .config, .replay, .release]

theorem checkPassMarker_unwatched {s : State} {a : Nat} (h : ¬ (s.nodeState a).watched) (marker : Byte) :
    checkPassMarker a marker s = s := by
  unfold checkPassMarker
  cases hst : s.nodeState a <;> first | rfl | exact absurd (by rw [hst]; simp [NodeState.watched]) h

theorem checkPassMarker_watched {s : State} {a : Nat} (h : (s.nodeState a).watched) (marker : Byte) :
    checkPassMarker a marker s = if s.markerChanged a marker then enterProbe a s else s := by
  unfold checkPassMarker
  cases hst : s.nodeState a <;> first | rfl | (rw [hst] at h; simp [NodeState.watched] at h)

/-- An unchanged or unknown count leaves the node where it is. -/
theorem checkPassMarker_kept {s : State} {a : Nat} {r : Runtime} (hr : s.runtime a = some r) {marker : Byte}
    (h : r.state.watched → r.bootCount = none ∨ r.bootCount = some marker) : checkPassMarker a marker s = s := by
  by_cases hw : r.state.watched
  · rw [checkPassMarker_watched (by rwa [nodeState_of_runtime hr]), markerChanged_of_runtime hr (h hw)]
    exact if_neg nofun
  · exact checkPassMarker_unwatched (by rwa [nodeState_of_runtime hr]) marker

/-- The capture of a delivered pass frame. -/
def capturePassed (t : Transaction) (e : PassEntry) (v : Reply) (s : State) : State :=
  match e.action.slot with
  | some k => if t.destinationKept && v.kind.taken then captureDelivered e.destination k e.captured s else s
  | none => s

/-- An ONLINE node that answers has no replies missing (R69). -/
def Runtime.heard (r : Runtime) : Runtime := if r.state = .online then { r with noReply := 0 } else r

theorem passDone_of_none {t : Transaction} {e : PassEntry} {v : Reply} {s : State} (h : s.runtime e.destination = none) :
    passDone t e v s = answerPass e .done (replyBytes v) s := by
  unfold passDone
  dsimp only
  rw [show (answerPass e .done (replyBytes v) s).runtime e.destination = none from h]

theorem passDone_of_some {t : Transaction} {e : PassEntry} {v : Reply} {s : State} {r : Runtime}
    (h : s.runtime e.destination = some r) :
    passDone t e v s = checkPassMarker e.destination v.marker
      ((capturePassed t e v (answerPass e .done (replyBytes v) s)).mapRuntime e.destination Runtime.heard) := by
  unfold passDone capturePassed
  dsimp only
  rw [show (answerPass e .done (replyBytes v) s).runtime e.destination = some r from h]
  rfl

theorem keepsFrames_captureDelivered (a k : Nat) (c : CapturedFrame) (s : State) :
    KeepsFrames s (captureDelivered a k c s) := by
  unfold captureDelivered
  split
  · split
    · exact .of_egress rfl
    · exact keepsFrames_capture _ _ _ _ _
  · exact keepsFrames_capture _ _ _ _ _

theorem hold_captureDelivered (a k : Nat) (c : CapturedFrame) (s : State) : (captureDelivered a k c s).hold = s.hold := by
  unfold captureDelivered
  split
  · split
    · rfl
    · exact hold_capture ..
  · exact hold_capture ..

theorem stores_capturePassed (t : Transaction) (e : PassEntry) (v : Reply) (s : State) : Stores s (capturePassed t e v s) := by
  unfold capturePassed
  split
  · split
    · exact stores_captureDelivered ..
    · exact .refl s
  · exact .refl s

theorem keepsFrames_capturePassed (t : Transaction) (e : PassEntry) (v : Reply) (s : State) :
    KeepsFrames s (capturePassed t e v s) := by
  unfold capturePassed
  split
  · split
    · exact keepsFrames_captureDelivered _ _ _ _
    · exact .of_egress rfl
  · exact .of_egress rfl

theorem capturePassed_nothing {t : Transaction} {e : PassEntry} {v : Reply}
    (h : e.action.slot = none ∨ v.kind = .refuse ∨ t.destinationKept = false) (s : State) : capturePassed t e v s = s := by
  unfold capturePassed
  split
  · next hslot =>
    rcases h with h | h | h
    · rw [hslot] at h; cases h
    · rw [h]; simp [ReplyKind.taken]
    · rw [h]; rfl
  · rfl

/-- The runtime record after the reply, before R49 looks at the marker. -/
theorem runtime_heard {t : Transaction} {e : PassEntry} {v : Reply} {s : State} {r : Runtime}
    (h : s.runtime e.destination = some r) :
    ((capturePassed t e v (answerPass e .done (replyBytes v) s)).mapRuntime e.destination Runtime.heard).runtime e.destination
      = some r.heard := by
  have hcaptured : (capturePassed t e v (answerPass e .done (replyBytes v) s)).runtime e.destination = some r :=
    ((stores_capturePassed t e v (answerPass e .done (replyBytes v) s)).runtime e.destination).trans h
  exact runtime_mapRuntime_same hcaptured _

theorem Runtime.heard_state (r : Runtime) : r.heard.state = r.state := by
  unfold Runtime.heard; split <;> rfl

theorem Runtime.heard_bootCount (r : Runtime) : r.heard.bootCount = r.bootCount := by
  unfold Runtime.heard; split <;> rfl

/-- With nothing captured and no changed marker a reply leaves the answer and the node's record. -/
theorem passDone_answers {t : Transaction} {e : PassEntry} {v : Reply} {s : State} {r : Runtime}
    (h : s.runtime e.destination = some r)
    (hslot : e.action.slot = none ∨ v.kind = .refuse ∨ t.destinationKept = false)
    (hmarker : r.state.watched → r.bootCount = none ∨ r.bootCount = some v.marker) :
    passDone t e v s = (s.setRuntime e.destination (some r.heard)).fills e.reservation
      { kind := 0x41, tag := e.tag, outcome := 0x01, body := v.kind.code :: v.function :: v.payload } := by
  rw [passDone_of_some h, checkPassMarker_kept (runtime_heard h)
    (by rw [Runtime.heard_state, Runtime.heard_bootCount]; exact hmarker), capturePassed_nothing hslot]
  exact mapRuntime_of_runtime (s := answerPass e .done (replyBytes v) s) h _

/-! ### Entry to PROBE and the frames that wait -/

theorem returnPasses_keepsFrame (l : List Nat) {s : State} {i : Nat}
    (hi : ∀ q ∈ s.segment.urgent ++ s.segment.normal, q.reservation ≠ i) {f : TrunkFrame}
    (h : s.trunk.egress[i]? = some (.waiting f)) : (returnPasses l s).trunk.egress[i]? = some (.waiting f) :=
  walkReturned_keeps l _ (fun q hq => hi q (List.mem_append_right _ hq)) _
    (walkReturned_keeps l _ (fun q hq => hi q (List.mem_append_left _ hq)) s h)

theorem enterProbe_keepsFrame (a : Nat) {s : State} {i : Nat}
    (hi : ∀ q ∈ s.segment.urgent ++ s.segment.normal, q.reservation ≠ i) {f : TrunkFrame}
    (h : s.trunk.egress[i]? = some (.waiting f)) : (enterProbe a s).trunk.egress[i]? = some (.waiting f) := by
  have hsame : ∀ g, (s.mapRuntime a g).segment = s.segment ∧ (s.mapRuntime a g).trunk = s.trunk := fun g => by
    obtain ⟨x, y, hxy⟩ := onlyTransfers_mapRuntime s a g
    rw [hxy]
    exact ⟨rfl, rfl⟩
  unfold enterProbe
  dsimp only
  split
  · exact returnPasses_keepsFrame _ (by rwa [(hsame _).1]) (by rwa [(hsame _).2])
  · rwa [(hsame _).2]

/-- The record of a node that enters PROBE. -/
def Runtime.probing (r : Runtime) : Runtime :=
  { r.move .probe with misses := 0, bootCount := r.countOnDoubt, step := r.step.offer .probe }

theorem runtime_enterProbe {s : State} {a : Nat} {r : Runtime} (hr : s.runtime a = some r) :
    (enterProbe a s).runtime a = some r.probing := by
  unfold enterProbe
  dsimp only
  split
  · rw [returnPasses_runtime]; exact runtime_mapRuntime_same hr _
  · exact runtime_mapRuntime_same hr _

section
variable {s m : State} {t : Transaction} {c : Instr}

/-! ### What a miss makes of a pass entry (R70) -/

/-- The state without the answer: the queues, the counts and the egress entries of `m` read as those of `s`. -/
theorem Missed.runtime (h : Missed s c m) (a : Nat) : m.runtime a = s.runtime a := by
  obtain ⟨_, _, _, rfl⟩ := h.frame
  rfl

theorem Missed.params (h : Missed s c m) : m.params = s.params := by
  obtain ⟨_, _, _, rfl⟩ := h.frame
  rfl

theorem Missed.queues (h : Missed s c m) : m.segment.urgent = s.segment.urgent ∧ m.segment.normal = s.segment.normal := by
  obtain ⟨_, _, _, rfl⟩ := h.frame
  exact ⟨rfl, rfl⟩

theorem endedWith_pass {e : PassEntry} (ht : t.carries = .pass e) {res : Result} (hres : res = .timeout ∨ res = .badCheck)
    (s : State) : endedWith t res s = passMiss e s := by
  unfold endedWith
  rw [ht]
  obtain rfl | rfl := hres <;> rfl

/-- The entry once its miss has been counted. -/
def PassEntry.missed (e : PassEntry) : PassEntry := { e with misses := e.misses + 1 }

theorem passMiss_serving {e : PassEntry} (h : s.runtime e.destination = none ∨ s.nodeState e.destination = .online) :
    passMiss e s = if e.misses + 1 ≤ s.params.passRetries then reenter e.missed s else passLost e.missed .noReply s := by
  unfold passMiss
  obtain h | h := h
  · rw [nodeState_of_none h]; rfl
  · rw [h]; rfl

theorem passMiss_suspect {e : PassEntry} (h : s.nodeState e.destination = .suspect) :
    passMiss e s = passLost e.missed .noReplyGap s := by
  unfold passMiss; rw [h]; rfl

theorem passMiss_other {e : PassEntry}
    (h : s.nodeState e.destination ∉ [NodeState.suspect, .online, .unconfigured]) :
    passMiss e s = passLost e.missed .noReply s := by
  unfold passMiss
  cases hst : s.nodeState e.destination <;> first | rfl | (rw [hst] at h; simp at h)

/-- The record of a node whose pass frame was lost (R70). -/
def Runtime.unanswered (r : Runtime) : Runtime := { r with passNoReplies := r.passNoReplies + 1 }

theorem passLost_none {e : PassEntry} {code : AnswerCode} (h : s.runtime e.destination = none) :
    passLost e code s = answerPass e code [] s := by
  have hnone : (answerPass e code [] s).runtime e.destination = none := h
  unfold passLost
  dsimp only
  rw [mapRuntime_of_none hnone, countNoReply, hnone]
  split <;> rfl

theorem passLost_some {e : PassEntry} {code : AnswerCode} {r : Runtime} (h : s.runtime e.destination = some r) :
    passLost e code s =
      if code = .noReply then
        countNoReply e.destination ((answerPass e code [] s).setRuntime e.destination (some r.unanswered))
      else (answerPass e code [] s).setRuntime e.destination (some r.unanswered) := by
  unfold passLost
  dsimp only
  rw [mapRuntime_of_runtime (s := answerPass e code [] s) h]
  rfl

theorem countNoReply_other {a : Nat} {r : Runtime} (h : s.runtime a = some r) (hstate : r.state ≠ .online) :
    countNoReply a s = s := by
  unfold countNoReply
  rw [h]
  exact if_neg hstate

theorem countNoReply_below {a : Nat} {r : Runtime} (h : s.runtime a = some r) (hstate : r.state = .online)
    (hbelow : r.noReply + 1 < s.params.lostThreshold) :
    countNoReply a s = s.setRuntime a (some { r with noReply := r.noReply + 1 }) := by
  unfold countNoReply
  rw [h]
  dsimp only
  rw [if_pos hstate, if_neg (Nat.not_le.2 hbelow), mapRuntime_of_runtime h]

theorem countNoReply_reached {a : Nat} {r : Runtime} (h : s.runtime a = some r) (hstate : r.state = .online)
    (hreached : s.params.lostThreshold ≤ r.noReply + 1) :
    countNoReply a s = enterProbe a (s.setRuntime a (some { r with noReply := r.noReply + 1 })) := by
  unfold countNoReply
  rw [h]
  dsimp only
  rw [if_pos hstate, if_pos hreached, mapRuntime_of_runtime h]

end

/-- A reply that is collected for a pass entry to a node (R65, R69). -/
theorem exec_replyReceived_pass {s : State} {t : Transaction} {e : PassEntry} (ht : t.carries = .pass e)
    (hdestination : t.destination = e.destination) (hkind : t.kind = e.kind.segment) (hbroadcast : e.kind ≠ .broadcast)
    (hlow : 1 ≤ e.destination) (hhigh : e.destination ≤ 30) (hline : s.segment.line = .collecting t) {v : Reply}
    (hv : (v.kind = .accept ∧ v.payload = [] ∧ e.kind = .command) ∨ (v.kind = .refuse ∧ v.payload.length = 1)
      ∨ (v.kind = .answer ∧ v.payload.length ≤ 64)) :
    exec (.replyReceived (replyChars e.destination v)) s = .next (endCommand (passDone t e v s.lineFree)) := by
  have hlength : v.payload.length ≤ 64 := by
    rcases hv with ⟨-, h, -⟩ | ⟨-, h⟩ | ⟨-, h⟩
    · rw [h]; exact Nat.zero_le _
    · omega
    · exact h
  have hfits : replyKindFits t.kind v.kind = true ∧ payloadFits v.kind v.payload = true := by
    rw [hkind]
    rcases hv with ⟨hk, hp, hcommand⟩ | ⟨hk, hp⟩ | ⟨hk, hp⟩
    · rw [hk, hp, hcommand]; exact ⟨rfl, rfl⟩
    · rw [hk]
      refine ⟨?_, by simpa [payloadFits] using hp⟩
      cases hq : e.kind
      · rfl
      · rfl
      · exact absurd hq hbroadcast
    · rw [hk]
      refine ⟨?_, by simpa [payloadFits] using hp⟩
      cases hq : e.kind
      · rfl
      · rfl
      · exact absurd hq hbroadcast
  have hended : transactionEnded t (.valid v) .free s = passDone t e v s.lineFree := by
    unfold transactionEnded
    rw [ht]
    rfl
  have hreceived : Machine.replyReceived (replyChars e.destination v) s = some (passDone t e v s.lineFree) := by
    unfold Machine.replyReceived
    rw [hline]
    dsimp only
    rw [collectReply_replyChars _ hlength]
    dsimp only
    rw [hdestination, judgeReply_collectedReply (isAddress_eq_true hlow hhigh) hfits.1 hfits.2, hended]
  show happens (Machine.replyReceived (replyChars e.destination v) s) s = _
  rw [hreceived]
  rfl

/-- What the capture of a delivered frame leaves: nothing of a pending slot, the record in any other, a miss beyond the range. -/
theorem captureDelivered_spec {s : State} {a k : Nat} {n : NodeEntry} (hn : s.entry a = some n) (ha : isAddress a = true)
    (c : CapturedFrame) :
    let i := n.shadowBase + k
    let u := captureDelivered a k c s
    (k < n.shadowCount → s.slotPending i = true → u = s)
      ∧ (k < n.shadowCount → i < 96 → s.slotPending i = false →
          u.slot i = some (capturedRecord a k c false)
            ∧ u.replayList a = (s.replayList a).filter (fun j => decide (j ≠ i)) ++ [i]
            ∧ (∀ j, j ≠ i → u.slot j = s.slot j)
            ∧ ∀ b, u.replayInFlight b = s.replayInFlight b)
      ∧ (n.shadowCount ≤ k → u.flagSet .shadowMiss = true
          ∧ u.shadow = { s.shadow with missCount := s.shadow.missCount + 1 }) := by
  intro i u
  refine ⟨fun hk hpending => ?_, fun hk hi hpending => ?_, fun hk => ?_⟩
  · show captureDelivered a k c s = s
    unfold captureDelivered
    rw [poolSlot_of_entry hn hk]
    exact if_pos hpending
  · have hslot := poolSlot_of_entry hn hk
    have hu : u = (capture a k c false s).1 := by
      show captureDelivered a k c s = _
      unfold captureDelivered
      rw [hslot]
      exact if_neg (by rw [hpending]; exact nofun)
    have hcaptured := (capture_spec hslot c false).2
    rw [show s.slotPending (n.shadowBase + k) = false from hpending, Bool.false_or] at hcaptured
    rw [hu]
    refine ⟨(hcaptured.slots i).trans (if_pos ⟨rfl, hi⟩), (hcaptured.lists a).trans (if_pos ⟨rfl, ha⟩),
      fun j hj => (hcaptured.slots j).trans (if_neg fun h => hj h.1), fun b => ?_⟩
    refine (hcaptured.flights b).trans ?_
    simp only [Bool.false_eq_true, false_and, if_false, Option.map_id']
    split
    · next h => rw [h]
    · rfl
  · have hu : u = shadowMiss s := by
      show captureDelivered a k c s = _
      unfold captureDelivered
      rw [poolSlot_beyond hn hk]
      exact congrArg Prod.fst (capture_miss (poolSlot_beyond hn hk) c false)
    rw [hu]
    exact ⟨(shadowMiss_spec s).1, (shadowMiss_spec s).2.1⟩

theorem runtime_endCommand (s : State) (a : Nat) : (endCommand s).runtime a = s.runtime a := by
  obtain ⟨x, n, h⟩ := endCommand_eq s
  rw [h]
  rfl

theorem nodeState_endCommand (s : State) (a : Nat) : (endCommand s).nodeState a = s.nodeState a := by
  unfold State.nodeState
  rw [runtime_endCommand]

/-- The answer of a pass entry that was delivered. -/
def deliveredAnswer (e : PassEntry) (v : Reply) : TrunkFrame :=
  { kind := 0x41, tag := e.tag, outcome := 0x01, body := v.kind.code :: v.function :: v.payload }

/-- A changed marker moves the node to PROBE, and the answer stands in egress. -/
theorem passDone_changed {s : State} {t : Transaction} {e : PassEntry} {v : Reply} {r : Runtime}
    (hr : s.runtime e.destination = some r) (hreservation : e.reservation < 24) (hwatched : r.state.watched) {b : Byte}
    (hcount : r.bootCount = some b) (hb : b ≠ v.marker)
    (hqueued : ∀ q ∈ s.segment.urgent ++ s.segment.normal, q.reservation ≠ e.reservation) :
    (endCommand (passDone t e v s)).nodeState e.destination = .probe
      ∧ (endCommand (passDone t e v s)).Shows e.reservation (deliveredAnswer e v) := by
  rw [passDone_of_some hr]
  have hheard := runtime_heard (t := t) (v := v) hr
  have hframe : KeepsFrames (answerPass e .done (replyBytes v) s)
      ((capturePassed t e v (answerPass e .done (replyBytes v) s)).mapRuntime e.destination Runtime.heard) := by
    refine (keepsFrames_capturePassed t e v _).trans (KeepsFrames.of_egress ?_)
    obtain ⟨x, y, hxy⟩ := onlyTransfers_mapRuntime
      (capturePassed t e v (answerPass e .done (replyBytes v) s)) e.destination Runtime.heard
    rw [hxy]
  have hsegment : ((capturePassed t e v (answerPass e .done (replyBytes v) s)).mapRuntime e.destination
      Runtime.heard).segment = s.segment := by
    obtain ⟨x, y, hxy⟩ := onlyTransfers_mapRuntime
      (capturePassed t e v (answerPass e .done (replyBytes v) s)) e.destination Runtime.heard
    obtain ⟨_, _, _, _, hu⟩ := stores_capturePassed t e v (answerPass e .done (replyBytes v) s)
    rw [hxy, hu]
    rfl
  have hshown := hframe e.reservation _ (egress_enqueue_self (s := s) hreservation _)
  generalize (capturePassed t e v (answerPass e .done (replyBytes v) s)).mapRuntime e.destination Runtime.heard = u at *
  rw [checkPassMarker_watched (by rw [nodeState_of_runtime hheard, Runtime.heard_state]; exact hwatched),
    if_pos (markerChanged_of_ne hheard (by rw [Runtime.heard_bootCount]; exact hcount) hb)]
  constructor
  · rw [nodeState_endCommand, nodeState_of_runtime (runtime_enterProbe hheard)]
    rfl
  · exact State.Shows.endCommand (.inl (enterProbe_keepsFrame _ (by rw [hsegment]; exact hqueued) hshown))

/-- A reply that captures its frame, and changes no marker. -/
theorem passDone_captures {s : State} {t : Transaction} {e : PassEntry} {v : Reply} {r : Runtime}
    (hr : s.runtime e.destination = some r) (hreservation : e.reservation < 24) {k : Nat} {n : NodeEntry}
    (hslot : e.action.slot = some k) (htaken : v.kind.taken = true) (hkept : t.destinationKept = true)
    (hn : s.entry e.destination = some n)
    (hmarker : r.state.watched → r.bootCount = none ∨ r.bootCount = some v.marker) :
    let i := n.shadowBase + k
    let u := endCommand (passDone t e v s)
    u.Shows e.reservation (deliveredAnswer e v)
      ∧ u.runtime e.destination = some r.heard ∧ u.hold = s.hold
      ∧ (k < n.shadowCount → i < 96 → s.slotPending i = true → u.shadow = s.shadow)
      ∧ (k < n.shadowCount → i < 96 → s.slotPending i = false →
          u.slot i = some (capturedRecord e.destination k e.captured false)
            ∧ u.replayList e.destination = (s.replayList e.destination).filter (fun j => decide (j ≠ i)) ++ [i]
            ∧ ∀ j, j ≠ i → u.slot j = s.slot j)
      ∧ (n.shadowCount ≤ k → u.flagSet .shadowMiss = true
          ∧ u.shadow = { s.shadow with missCount := s.shadow.missCount + 1 }) := by
  intro i u
  have ha : isAddress e.destination = true := isAddress_of_runtime hr
  have hpassed : capturePassed t e v (answerPass e .done (replyBytes v) s) =
      captureDelivered e.destination k e.captured (answerPass e .done (replyBytes v) s) := by
    unfold capturePassed
    rw [hslot, htaken, hkept]
    rfl
  have hheard := runtime_heard (t := t) (v := v) hr
  have hdone : passDone t e v s =
      (captureDelivered e.destination k e.captured (answerPass e .done (replyBytes v) s)).mapRuntime e.destination
        Runtime.heard := by
    rw [passDone_of_some hr, checkPassMarker_kept hheard
      (by rw [Runtime.heard_state, Runtime.heard_bootCount]; exact hmarker), hpassed]
  rw [hpassed] at hheard
  obtain ⟨hpending, hstored, hmissed⟩ :=
    captureDelivered_spec (s := answerPass e .done (replyBytes v) s) (k := k) hn ha e.captured
  have hshown := keepsFrames_captureDelivered e.destination k e.captured (answerPass e .done (replyBytes v) s)
    e.reservation _ (egress_enqueue_self (s := s) hreservation _)
  have hhold : (captureDelivered e.destination k e.captured (answerPass e .done (replyBytes v) s)).hold = s.hold :=
    hold_captureDelivered ..
  obtain ⟨x, m, hu⟩ := endCommand_eq (passDone t e v s)
  obtain ⟨y, z, hxy⟩ := onlyTransfers_mapRuntime
    (captureDelivered e.destination k e.captured (answerPass e .done (replyBytes v) s)) e.destination Runtime.heard
  have hplain : ∃ x y z m, u = { captureDelivered e.destination k e.captured (answerPass e .done (replyBytes v) s) with
      restore := y, store := z, trunk := x, moment := m } := by
    refine ⟨x, y, z, m, ?_⟩
    show endCommand (passDone t e v s) = _
    rw [hu, hdone, hxy]
    rfl
  have hrun : u.runtime e.destination = some r.heard := by
    show (endCommand (passDone t e v s)).runtime _ = _
    rw [runtime_endCommand, hdone]
    exact hheard
  have hends : u.Shows e.reservation (deliveredAnswer e v) := by
    refine State.Shows.endCommand (.inl ?_)
    rw [hdone, hxy]
    exact hshown
  have hsame : u.shadow = (captureDelivered e.destination k e.captured (answerPass e .done (replyBytes v) s)).shadow
      ∧ u.hold = s.hold
      ∧ (∀ f, u.flagSet f = (captureDelivered e.destination k e.captured (answerPass e .done (replyBytes v) s)).flagSet f) := by
    obtain ⟨_, _, _, _, hplain⟩ := hplain
    rw [hplain]
    exact ⟨rfl, hhold, fun _ => rfl⟩
  obtain ⟨hshadow, hsameHold, hflags⟩ := hsame
  refine ⟨hends, hrun, hsameHold, fun hk _ hp => ?_, fun hk hi hp => ?_, fun hk => ?_⟩
  · rw [hshadow, hpending hk hp]
    rfl
  · obtain ⟨hslot, hlist, hothers, -⟩ := hstored hk hi hp
    refine ⟨?_, ?_, fun j hj => ?_⟩
    · unfold State.slot at hslot ⊢
      rw [hshadow]
      exact hslot
    · unfold State.replayList at hlist ⊢
      rw [hshadow]
      exact hlist
    · have hother := hothers j hj
      unfold State.slot at hother ⊢
      rw [hshadow]
      exact hother
  · obtain ⟨hflag, hcount⟩ := hmissed hk
    exact ⟨(hflags _).trans hflag, hshadow.trans hcount⟩

/-- Beyond the lost threshold an ONLINE node enters PROBE with its count kept, and the answer stands in egress. -/
theorem passLost_reached {s : State} {e : PassEntry} {r : Runtime} (hr : s.runtime e.destination = some r)
    (hreservation : e.reservation < 24) (hstate : r.state = .online) (hreached : s.params.lostThreshold ≤ r.noReply + 1) :
    ∃ r', (passLost e .noReply s).runtime e.destination = some r' ∧ r'.state = .probe ∧ r'.bootCount = r.bootCount
      ∧ r'.noReply = r.noReply + 1 ∧ r'.passNoReplies = r.passNoReplies + 1
      ∧ ((∀ q ∈ s.segment.urgent ++ s.segment.normal, q.reservation ≠ e.reservation) →
          (passLost e .noReply s).trunk.egress[e.reservation]? =
            some (.waiting { kind := 0x41, tag := e.tag, outcome := 0x07, body := [] })) := by
  have hone : ((answerPass e .noReply [] s).setRuntime e.destination (some r.unanswered)).runtime e.destination =
      some r.unanswered := runtime_setRuntime_same (s := answerPass e .noReply [] s) hr _
  have htwo := runtime_setRuntime_same hone (some { r.unanswered with noReply := r.noReply + 1 })
  have hlost : passLost e .noReply s = enterProbe e.destination
      (((answerPass e .noReply [] s).setRuntime e.destination (some r.unanswered)).setRuntime e.destination
        (some { r.unanswered with noReply := r.noReply + 1 })) := by
    rw [passLost_some hr, if_pos rfl]
    exact countNoReply_reached hone hstate hreached
  have hshown : (((answerPass e .noReply [] s).setRuntime e.destination (some r.unanswered)).setRuntime e.destination
      (some { r.unanswered with noReply := r.noReply + 1 })).trunk.egress[e.reservation]? =
        some (.waiting { kind := 0x41, tag := e.tag, outcome := 0x07, body := [] }) :=
    egress_enqueue_self (s := s) hreservation _
  have hsegment : (((answerPass e .noReply [] s).setRuntime e.destination (some r.unanswered)).setRuntime e.destination
      (some { r.unanswered with noReply := r.noReply + 1 })).segment = s.segment := rfl
  rw [hlost]
  generalize ((answerPass e .noReply [] s).setRuntime e.destination (some r.unanswered)).setRuntime e.destination
      (some { r.unanswered with noReply := r.noReply + 1 }) = u at *
  refine ⟨_, runtime_enterProbe htwo, rfl, ?_, rfl, rfl, fun hqueued => ?_⟩
  · show ({ r.unanswered with noReply := r.noReply + 1 } : Runtime).countOnDoubt = _
    unfold Runtime.countOnDoubt
    rw [show ({ r.unanswered with noReply := r.noReply + 1 } : Runtime).state = .online from hstate]
    rfl
  · exact enterProbe_keepsFrame _ (by rw [hsegment]; exact hqueued) hshown

/-- Settles O52: a valid reply is answered and then goes to the node's record; a miss is judged by the node's state. -/
theorem passTransactionEndsInAnswer : Obligations.PassTransactionEndsInAnswer := by
  intro s t e ht hdestination hkind hbroadcast hlow hhigh hreservation a p f answer
  refine ⟨fun v hline hv => ?_, fun c m hm => ?_⟩
  · intro done ends
    have hexec := exec_replyReceived_pass ht hdestination hkind hbroadcast hlow hhigh hline hv
    have hends : ∀ u, passDone t e v s.lineFree = u.fills e.reservation done → ends u := fun u hu =>
      hexec.trans (congrArg (fun w => Host.Outcome.next (endCommand w)) hu)
    refine ⟨fun hnone => hends _ (passDone_of_none (s := s.lineFree) hnone), fun r hr => ⟨fun hslot => ?_, ?_, ?_⟩⟩
    · have hquiet := passDone_answers (s := s.lineFree) (v := v) hr hslot
      refine ⟨fun hstate hmarker => hends _ ?_, fun hstate => hends _ ?_⟩
      · rw [hquiet fun _ => hmarker, Runtime.heard, if_pos hstate]
      · have honline : r.state ≠ .online := fun h => hstate (by rw [h]; simp)
        rw [hquiet fun h => absurd h hstate, Runtime.heard, if_neg honline, setRuntime_self (s := s.lineFree) hr]
    · intro b hwatched hcount hb hqueued
      exact ⟨_, hexec, passDone_changed (s := s.lineFree) hr hreservation hwatched hcount hb hqueued⟩
    · intro k n hslot hrefuse hkept hn hmarker i
      have htaken : v.kind.taken = true := by
        rcases hv with ⟨h, -, -⟩ | ⟨h, -⟩ | ⟨h, -⟩
        · rw [h]; rfl
        · exact absurd h hrefuse
        · rw [h]; rfl
      exact ⟨_, hexec, passDone_captures (s := s.lineFree) hr hreservation hslot htaken hkept hn hmarker⟩
  · intro again ends isRetry lost
    obtain ⟨res, hres, hexec⟩ := hm.exec_eq
    have hmissed := hm.missed
    rw [endedWith_pass ht hres] at hexec
    have hends : ∀ u, passMiss e m = u → ends u := fun u hu =>
      hexec.trans (congrArg (fun w => Host.Outcome.next (endCommand w)) hu)
    have hstateOf : m.nodeState a = s.nodeState a := by
      unfold State.nodeState; rw [hmissed.runtime]
    have hserving : (s.runtime a = none ∨ s.nodeState a = .online) →
        passMiss e m = if e.misses + 1 ≤ p.passRetries then reenter e.missed m else passLost e.missed .noReply m :=
      fun h => by
        rw [passMiss_serving (by rw [hmissed.runtime]; rw [hstateOf]; exact h), hmissed.params]
        rfl
    refine ⟨fun h hretry hurgency => hends _ ?_, fun h hretry hurgency => hends _ ?_, fun h hretry => hends _ ?_,
      fun r hr => ?_⟩
    · rw [hserving h, if_pos hretry, reenter, show e.missed.action.urgency = .urgent from hurgency]
      rfl
    · rw [hserving h, if_pos hretry, reenter, show e.missed.action.urgency = .normal from hurgency]
      rfl
    · rw [hserving (.inl h), if_neg hretry, passLost_none (e := e.missed) ((hmissed.runtime a).trans h)]
      rfl
    · have hrm : m.runtime a = some r := (hmissed.runtime a).trans hr
      have hnode : m.nodeState a = r.state := nodeState_of_runtime hrm
      have hset : ∀ code, ((answerPass e.missed code [] m).setRuntime e.missed.destination
          (some r.unanswered)).runtime e.missed.destination = some r.unanswered := fun code => runtime_setRuntime_same (s := answerPass e.missed code [] m) hrm _
      refine ⟨fun hstate => hends _ ?_, fun hstate => hends _ ?_, fun hstate hretry hbelow => hends _ ?_,
        fun hstate hretry hreached => ?_⟩
      · rw [passMiss_suspect (hnode.trans hstate), passLost_some (e := e.missed) hrm, if_neg nofun]
        rfl
      · rw [passMiss_other (by rw [hnode]; exact hstate), passLost_some (e := e.missed) hrm, if_pos rfl,
          countNoReply_other (a := e.missed.destination) (hset _) fun h => hstate (by rw [show r.state = .online from h]; simp)]
        rfl
      · rw [hserving (.inr ((nodeState_of_runtime hr).trans hstate)), if_neg hretry, passLost_some (e := e.missed) hrm,
          if_pos rfl, countNoReply_below (a := e.missed.destination) (hset _) hstate (hmissed.params ▸ hbelow)]
        exact setRuntime_setRuntime (answerPass e.missed .noReply [] m) a _ _
      · have hlost := passLost_reached (e := e.missed) hrm hreservation hstate (hmissed.params ▸ hreached)
        obtain ⟨r', hr', hprobe, hcount, hno, hpasses, hshown⟩ := hlost
        refine ⟨_, r', hexec, ?_, hprobe, hcount, hno, hpasses, fun hqueued => ?_⟩
        · rw [runtime_endCommand, hserving (.inr ((nodeState_of_runtime hr).trans hstate)), if_neg hretry]
          exact hr'
        · refine State.Shows.endCommand (.inl ?_)
          rw [hserving (.inr ((nodeState_of_runtime hr).trans hstate)), if_neg hretry]
          exact hshown (by rw [hmissed.queues.1, hmissed.queues.2]; exact hqueued)

end Sys2Proof.Machine
end

section
/-! SUPPORT. What the end of a broadcast leaves for its live members (R71, R104, R113 to R115), and the line conditions (R64 to R67). -/

namespace Sys2Proof.Machine

/-! ### One live member -/

theorem forNodes_keeps_of_mem {P : State → Prop} {f : Nat → State → State} (l : List Nat)
    (hf : ∀ a ∈ l, ∀ s, P s → P (f a s)) {s : State} (h : P s) : P (forNodes l f s) := by
  induction l generalizing s with
  | nil => exact h
  | cons a l ih =>
    exact ih (fun b hb => hf b (List.mem_cons_of_mem a hb)) (hf a List.mem_cons_self s h)

section
variable {s : State} {a b : Nat}

theorem broadcastMember_online (h : s.nodeState a = .online) {e : PassEntry} {k : Nat} (hk : e.action.slot = some k) :
    broadcastMember e a s = (capture a k e.captured false s).1 := by
  unfold broadcastMember; rw [h, hk]

theorem broadcastMember_absent (h : (s.nodeState a).isAbsent = true) (e : PassEntry) :
    broadcastMember e a s = absentTreatment e a s := by
  unfold broadcastMember
  cases hst : s.nodeState a <;> rw [hst] at h <;> first | rfl | (simp [NodeState.isAbsent] at h)

theorem keepsFrames_broadcastMember (e : PassEntry) (a : Nat) (s : State) : KeepsFrames s (broadcastMember e a s) := by
  unfold broadcastMember
  split
  · split
    · exact keepsFrames_capture _ _ _ _ _
    · exact .of_egress rfl
  · split
    · exact keepsFrames_absentTreatment e a s
    · exact .of_egress rfl

theorem hold_broadcastMember_present (h : (s.nodeState a).isAbsent = false) (e : PassEntry) :
    (broadcastMember e a s).hold = s.hold := by
  unfold broadcastMember
  split
  · split
    · exact hold_capture ..
    · rfl
  · rw [if_neg (by rw [h]; exact nofun)]

/-- A policy other than QUEUE holds nothing. -/
theorem hold_absentTreatment {e : PassEntry} (h : e.action.absent ≠ .queue) (a : Nat) (s : State) :
    (absentTreatment e a s).hold = s.hold := by
  unfold absentTreatment
  split
  · next hq => exact absurd hq h
  · exact hold_captureLatest ..
  · rfl

theorem hold_broadcastMember {e : PassEntry} (h : e.action.absent ≠ .queue) (a : Nat) (s : State) :
    (broadcastMember e a s).hold = s.hold := by
  cases habsent : (s.nodeState a).isAbsent with
  | false => exact hold_broadcastMember_present habsent e
  | true => rw [broadcastMember_absent habsent, hold_absentTreatment h]

/-- A frame whose action names no slot is captured nowhere. -/
theorem shadow_broadcastMember {e : PassEntry} (h : e.action.slot = none) (a : Nat) (s : State) :
    (broadcastMember e a s).shadow = s.shadow := by
  unfold broadcastMember
  split
  · rw [h]
  · split
    · unfold absentTreatment
      split
      · exact shadow_appendHold ..
      · rw [h]; rfl
      · rfl
    · rfl

theorem queue_congr {s t : State} (h : t.hold = s.hold) (a : Nat) : t.queue a = s.queue a := by
  unfold State.queue; rw [h]

/-- A member's treatment leaves every other node's queue. -/
theorem queue_broadcastMember_other (hab : b ≠ a) (e : PassEntry) (s : State) :
    (broadcastMember e b s).queue a = s.queue a := by
  cases habsent : (s.nodeState b).isAbsent with
  | false => exact queue_congr (hold_broadcastMember_present habsent e) a
  | true =>
    rw [broadcastMember_absent habsent]
    by_cases hq : e.action.absent = .queue
    · unfold absentTreatment
      rw [hq]
      exact appendHold_queue_other hab _ s
    · exact queue_congr (hold_absentTreatment hq b s) a

theorem heldCount_congr {s t : State} (h : t.hold = s.hold) : t.heldCount = s.heldCount := by
  unfold State.heldCount State.queue; rw [h]

theorem heldCount_broadcastMember_le (e : PassEntry) (a : Nat) (s : State) :
    (broadcastMember e a s).heldCount ≤ s.heldCount + 1 := by
  cases habsent : (s.nodeState a).isAbsent with
  | false => rw [heldCount_congr (hold_broadcastMember_present habsent e)]; exact Nat.le_succ _
  | true =>
    rw [broadcastMember_absent habsent]
    by_cases hq : e.action.absent = .queue
    · unfold absentTreatment
      rw [hq]
      exact heldCount_appendHold_le a _ s
    · rw [heldCount_congr (hold_absentTreatment hq a s)]; exact Nat.le_succ _

/-- A member's treatment leaves the other nodes' slots and replays on the wire, where no two share a base. -/
theorem slot_broadcastMember_other {e : PassEntry} {k : Nat} (hk : e.action.slot = some k) {n : NodeEntry}
    (hab : b ≠ a) (halone : ∀ d, s.entry b = some d → d.shadowBase ≠ n.shadowBase) :
    (broadcastMember e b s).slot (n.shadowBase + k) = s.slot (n.shadowBase + k)
      ∧ (broadcastMember e b s).replayInFlight a = s.replayInFlight a := by
  have hpool : s.poolSlot b k ≠ some (n.shadowBase + k) := fun hb => by
    unfold State.poolSlot at hb
    split at hb
    · next d hd =>
      split at hb
      · injection hb with hb
        exact halone d hd (by omega)
      · cases hb
    · cases hb
  have hcapture : ∀ mark, (capture b k e.captured mark s).1.slot (n.shadowBase + k) = s.slot (n.shadowBase + k)
      ∧ (capture b k e.captured mark s).1.replayInFlight a = s.replayInFlight a := fun mark => by
    obtain ⟨hslot, -, hflight⟩ := capture_other hab hpool e.captured mark
    exact ⟨hslot, hflight⟩
  have hkept : ∀ t : State, t.shadow = s.shadow →
      t.slot (n.shadowBase + k) = s.slot (n.shadowBase + k) ∧ t.replayInFlight a = s.replayInFlight a := fun t ht => by
    unfold State.slot State.replayInFlight
    rw [ht]
    exact ⟨rfl, rfl⟩
  unfold broadcastMember
  split
  · rw [hk]; exact hcapture false
  · split
    · unfold absentTreatment
      split
      · exact hkept _ (shadow_appendHold ..)
      · rw [hk]; exact hcapture true
      · exact ⟨rfl, rfl⟩
    · exact ⟨rfl, rfl⟩

end

/-! ### The walk over the live members -/

/-- Each absent live member whose cap allows gets its copy, while the pool has room for every live member. -/
theorem queue_walk_broadcast (e : PassEntry) (hpolicy : e.action.absent = .queue) {a : Nat} {n : NodeEntry} (l : List Nat)
    (hl : l.Nodup) (ha : a ∈ l) (s : State) (hn : s.entry a = some n) (habsent : (s.nodeState a).isAbsent = true)
    (hcap : (s.queue a).length < n.holdCap) (hfree : l.length ≤ s.holdFree) :
    (forNodes l (broadcastMember e) s).queue a =
      s.queue a ++ [newHoldEntry a (e.held none) s.now n.holdLifetime] := by
  induction l generalizing s with
  | nil => exact absurd ha List.not_mem_nil
  | cons b l ih =>
    obtain ⟨hb, hl⟩ := List.nodup_cons.mp hl
    rw [List.length_cons] at hfree
    have hstores := stores_broadcastMember e b s
    show (forNodes l (broadcastMember e) (broadcastMember e b s)).queue a = _
    by_cases hab : b = a
    · subst hab
      have hrest : (forNodes l (broadcastMember e) (broadcastMember e b s)).queue b = (broadcastMember e b s).queue b :=
        forNodes_keeps_of_mem (P := fun t => t.queue b = (broadcastMember e b s).queue b) l
          (fun c hc t ht => (queue_broadcastMember_other (a := b) (b := c) (fun h => hb (h ▸ hc)) e t).trans ht) rfl
      rw [hrest, broadcastMember_absent habsent, absentTreatment, hpolicy]
      dsimp only
      rw [appendHold_made hn ⟨hcap, by omega⟩]
      exact (queue_setQueue ..).trans (if_pos ⟨rfl, isAddress_of_entry hn⟩)
    · have hqueue := queue_broadcastMember_other (a := a) hab e s
      have hnow : (broadcastMember e b s).now = s.now := congrArg (fun g => g.clock) hstores.gap
      have hroom := heldCount_broadcastMember_le e b s
      rw [ih hl ((List.mem_cons.1 ha).resolve_left (Ne.symm hab)) _ ((hstores.entry a).trans hn)
        (by rw [hstores.nodeState]; exact habsent) (by rw [hqueue]; exact hcap)
        (by rw [holdFree_eq] at hfree ⊢; omega), hqueue, hnow]

/-- What a live member's slot and its replay on the wire become, where no other node shares its base. -/
theorem slot_walk_broadcast (e : PassEntry) {k : Nat} (hk : e.action.slot = some k) {a : Nat} {n : NodeEntry} {s : State}
    (hn : s.entry a = some n) (hcount : k < n.shadowCount) (hpool : n.shadowBase + k < 96)
    (halone : ∀ b d, b ≠ a → s.entry b = some d → d.shadowBase ≠ n.shadowBase) (l : List Nat) (hl : l.Nodup) (ha : a ∈ l) :
    let t := forNodes l (broadcastMember e) s
    (s.nodeState a = .online → t.slot (n.shadowBase + k) =
        some (capturedRecord a k e.captured (s.slotPending (n.shadowBase + k))))
      ∧ ((s.nodeState a).isAbsent = true → e.action.absent = .latest →
          t.slot (n.shadowBase + k) = some (capturedRecord a k e.captured true)
            ∧ t.replayInFlight a =
                (s.replayInFlight a).map (fun g => if g.slot = n.shadowBase + k then { g with replaced := true } else g)) := by
  refine (forNodes_each
    (P := fun b t => b = a → Stores s t ∧ t.slot (n.shadowBase + k) = s.slot (n.shadowBase + k)
      ∧ t.replayInFlight a = s.replayInFlight a)
    (Q := fun b t => b = a → Stores s t
      ∧ (s.nodeState a = .online → t.slot (n.shadowBase + k) =
          some (capturedRecord a k e.captured (s.slotPending (n.shadowBase + k))))
      ∧ ((s.nodeState a).isAbsent = true → e.action.absent = .latest →
          t.slot (n.shadowBase + k) = some (capturedRecord a k e.captured true)
            ∧ t.replayInFlight a =
                (s.replayInFlight a).map (fun g => if g.slot = n.shadowBase + k then { g with replaced := true } else g)))
    ?_ ?_ ?_ l hl s (fun b _ _ => ⟨.refl s, rfl, rfl⟩) a ha rfl).2
  · rintro b t h rfl
    obtain ⟨ht, hslot, hflight⟩ := h rfl
    have hmade := fun mark => (capture_spec (poolSlot_of_entry ((ht.entry b).trans hn) hcount) e.captured mark).2
    refine ⟨ht.trans (stores_broadcastMember e b t), fun honline => ?_, fun habsent hlatest => ?_⟩
    · rw [broadcastMember_online ((ht.nodeState b).trans honline) hk]
      refine ((hmade false).slots _).trans ((if_pos ⟨rfl, hpool⟩).trans ?_)
      rw [Bool.false_or]
      unfold State.slotPending
      rw [hslot]
    · rw [broadcastMember_absent (by rw [ht.nodeState]; exact habsent), absentTreatment_latest e hlatest hk, ← hflight]
      exact ⟨((hmade true).slots _).trans (if_pos ⟨rfl, hpool⟩), (hmade true).flight⟩
  · rintro c b t hcb h rfl
    obtain ⟨ht, hslot, hflight⟩ := h rfl
    obtain ⟨hslot', hflight'⟩ := slot_broadcastMember_other (a := c) hk (Ne.symm hcb)
      (fun d hd => halone b d (Ne.symm hcb) ((ht.entry b).symm.trans hd))
    exact ⟨ht.trans (stores_broadcastMember e b t), hslot'.trans hslot, hflight'.trans hflight⟩
  · rintro c b t hcb h rfl
    obtain ⟨ht, honline, hlatest⟩ := h rfl
    obtain ⟨hslot', hflight'⟩ := slot_broadcastMember_other (a := c) hk (Ne.symm hcb)
      (fun d hd => halone b d (Ne.symm hcb) ((ht.entry b).symm.trans hd))
    refine ⟨ht.trans (stores_broadcastMember e b t), fun h => hslot'.trans (honline h), fun h g => ?_⟩
    obtain ⟨hmade, hmark⟩ := hlatest h g
    exact ⟨hslot'.trans hmade, hflight'.trans hmark⟩

/-! ### The end of a transaction and the line (R65, R66) -/

/-- The result's own rule leaves the line, and clears no flag. -/
theorem endedWith_kept (t : Transaction) (res : Result) (s : State) :
    (endedWith t res s).segment.line = s.segment.line
      ∧ ∀ f, s.flagSet f = true → (endedWith t res s).flagSet f = true := by
  have hwithin : ∀ f, s.flagSet f = true → s.Within (BitVec.twoPow 10 f.code) s.queued false false :=
    fun f hf => ⟨(flagSet_iff s f).1 hf, Nat.le_refl _, nofun, nofun⟩
  unfold endedWith
  split
  · next e _ =>
    exact ⟨congrArg Quiet.line (passEnded_quiet t e res s),
      fun f hf => (flagSet_iff _ f).2 (passEnded_within t e res (hwithin f hf)).flags⟩
  · next a _ =>
    exact ⟨congrArg Quiet.line (stepEnded_quiet s a res),
      fun f hf => (flagSet_iff _ f).2 (stepEnded_within a res (hwithin f hf)).flags⟩

/-- After a miss the line is FREE, or SETTLING for a reply cut short; a bad check has raised SEGMENT_CHECK. -/
theorem State.Misses.exec_line {s m : State} {t : Transaction} {c : Instr} (h : s.Misses t c m) :
    ∃ u, exec c s = .next u ∧ u.segment.line = m.segment.line ∧ (c ≠ .replyTimeout → u.flagSet .segmentCheck = true) := by
  obtain ⟨res, -, hexec⟩ := h.exec_eq
  obtain ⟨hline, hflags⟩ := endedWith_kept t res m
  obtain ⟨x, n, hu⟩ := endCommand_eq (endedWith t res m)
  refine ⟨_, hexec, ?_, fun hc => ?_⟩
  · rw [hu]; exact hline
  · rw [flagSet_endCommand]
    exact hflags _ (h.missed.flag hc)

theorem segment_raiseFlag (f : Flag) (s : State) : (raiseFlag f s).segment = s.segment := by
  obtain ⟨_, _, h⟩ := reports_raiseFlag f s
  rw [h]
  rfl

/-! ### The end of a broadcast (R71) -/

/-- The answer of a broadcast whose frame has been sent. -/
def sentAnswer (e : PassEntry) : TrunkFrame := { kind := 0x41, tag := e.tag, outcome := 0x01, body := [] }

theorem mem_addressSet {a : Nat} {l : List Nat} (ha : isAddress a = true) (h : a ∈ l) : a ∈ addressSet l := by
  rw [addressSet_eq_filter]
  exact List.mem_filter.2 ⟨mem_addresses ha, decide_eq_true h⟩

theorem of_mem_addressSet {a : Nat} {l : List Nat} (h : a ∈ addressSet l) : a ∈ l := by
  rw [addressSet_eq_filter] at h
  exact of_decide_eq_true (List.mem_filter.1 h).2

/-- A node that is no live member, or in no absent state, keeps its queue. -/
theorem queue_broadcastEnded {e : PassEntry} {s : State} {a : Nat} (h : a ∉ e.live ∨ (s.nodeState a).isAbsent = false) :
    (broadcastEnded e s).queue a = s.queue a := by
  refine (forNodes_keeps_of_mem (P := fun t => Stores s t ∧ t.queue a = s.queue a) (addressSet e.live)
    (fun b hb t ht => ⟨ht.1.trans (stores_broadcastMember e b t), Eq.trans ?_ ht.2⟩) ⟨stores_answerPass e .done [] s, rfl⟩).2
  by_cases hab : b = a
  · subst hab
    have hpresent := h.resolve_left fun hn => hn (of_mem_addressSet hb)
    exact queue_congr (hold_broadcastMember_present ((congrArg NodeState.isAbsent (ht.1.nodeState b)).trans hpresent) e) b
  · exact queue_broadcastMember_other hab e t

/-- The end of a command leaves every block but the Trunk Port. -/
theorem endCommand_blocks (s : State) :
    (endCommand s).segment = s.segment ∧ (endCommand s).restore = s.restore ∧ (endCommand s).gap = s.gap
      ∧ (endCommand s).hold = s.hold ∧ (endCommand s).shadow = s.shadow ∧ (endCommand s).store = s.store
      ∧ (endCommand s).tables = s.tables ∧ (endCommand s).responder = s.responder := by
  obtain ⟨x, n, h⟩ := endCommand_eq s
  rw [h]
  exact ⟨rfl, rfl, rfl, rfl, rfl, rfl, rfl, rfl⟩

theorem slot_congr {s t : State} (h : t.shadow = s.shadow) (i : Nat) : t.slot i = s.slot i := by
  unfold State.slot; rw [h]

theorem replayList_congr {s t : State} (h : t.shadow = s.shadow) (a : Nat) : t.replayList a = s.replayList a := by
  unfold State.replayList; rw [h]

theorem replayInFlight_congr {s t : State} (h : t.shadow = s.shadow) (a : Nat) :
    t.replayInFlight a = s.replayInFlight a := by
  unfold State.replayInFlight; rw [h]

theorem exec_segmentFrameSent_broadcast {s : State} {t : Transaction} {w : List Byte} {e : PassEntry}
    (hline : s.segment.line = .sending t w) (ht : t.carries = .pass e) (hkind : t.kind = .broadcast) :
    exec .segmentFrameSent s = .next (endCommand (broadcastEnded e s.lineFree)) := by
  show happens (segmentFrameSent s) s = _
  unfold segmentFrameSent
  rw [hline]
  dsimp only
  rw [ht, hkind]
  rfl

theorem exec_segmentFrameSent_awaiting {s : State} {t : Transaction} {w : List Byte}
    (hline : s.segment.line = .sending t w) (h : (∃ n, t.carries = .step n) ∨ t.kind ≠ .broadcast) :
    exec .segmentFrameSent s =
      .next (endCommand (s.setLine (.awaiting { t with timeout := some s.tables.params.replyTimeout }))) := by
  have hsent : segmentFrameSent s = some (s.setLine (.awaiting { t with timeout := some s.tables.params.replyTimeout })) := by
    unfold segmentFrameSent
    rw [hline]
    dsimp only
    split
    · next e hcarries hbroadcast =>
      rcases h with ⟨n, hn⟩ | hkind
      · rw [hn] at hcarries; cases hcarries
      · exact absurd hbroadcast hkind
    · rfl
  show happens (segmentFrameSent s) s = _
  rw [hsent]
  rfl

/-- Settles O51: each event of the line is its rule; a broadcast's end walks over its live members. -/
theorem lineConditionsFollowTheFrame : Obligations.LineConditionsFollowTheFrame := by
  intro s t g onLine copy
  refine ⟨fun w hline h => exec_segmentFrameSent_awaiting hline h, fun w e hline ht hkind hreservation => ?_,
    fun hline => ?_, fun n hline => ?_, fun n hline htimeout => ?_, fun hline => ?_, fun chars r hline hcollect hfails => ?_⟩
  · obtain ⟨hsegment, hrestore, hgap, hhold, hshadow, -, -, -⟩ := endCommand_blocks (broadcastEnded e s.lineFree)
    have hstores := stores_broadcastEnded e s.lineFree
    have hsame : (broadcastEnded e s.lineFree).segment = s.lineFree.segment
        ∧ (broadcastEnded e s.lineFree).restore = s.restore := by
      obtain ⟨_, _, _, _, hu⟩ := hstores
      rw [hu]
      exact ⟨rfl, rfl⟩
    have hqueue := fun a => queue_congr hhold a
    refine ⟨_, exec_segmentFrameSent_broadcast hline ht hkind, hsegment.trans hsame.1, State.Shows.endCommand (.inl ?_),
      hrestore.trans hsame.2, hgap.trans hstores.gap, fun hpolicy => hhold.trans ?_, fun hslot => hshadow.trans ?_,
      fun a n _ h => (hqueue a).trans (queue_broadcastEnded h), fun hlive => ?_,
      fun a n hn ha habsent hpolicy hcap hfree => (hqueue a).trans ?_, fun a n k hn ha hk hcount hpool halone => ?_⟩
    · exact forNodes_keeps (P := KeepsFrames (answerPass e .done [] s.lineFree))
        (fun a u hu => hu.trans (keepsFrames_broadcastMember e a u)) _ (.of_egress rfl) _ _
        (egress_enqueue_self (s := s.lineFree) hreservation _)
    · exact forNodes_same State.hold (hold_broadcastMember hpolicy) _ _
    · exact forNodes_same State.shadow (shadow_broadcastMember hslot) _ _
    · have hnone : broadcastEnded e s.lineFree = answerPass e .done [] s.lineFree := by
        unfold broadcastEnded
        rw [hlive]
        rfl
      exact ⟨by rw [hshadow, hnone]; rfl, by rw [hhold, hnone]; rfl⟩
    · refine queue_walk_broadcast e hpolicy _ (addressSet_nodup _) (mem_addressSet (isAddress_of_entry hn) ha)
        (answerPass e .done [] s.lineFree) hn habsent hcap ?_
      rw [addressSet_eq_filter]
      exact hfree
    · obtain ⟨honline, hlatest⟩ := slot_walk_broadcast e hk (s := answerPass e .done [] s.lineFree) hn hcount hpool halone
        (addressSet e.live) (addressSet_nodup _) (mem_addressSet (isAddress_of_entry hn) ha)
      refine ⟨fun hstate => (slot_congr hshadow _).trans (honline hstate), fun habsent hpolicy => ?_⟩
      obtain ⟨hmade, hmark⟩ := hlatest habsent hpolicy
      exact ⟨(slot_congr hshadow _).trans hmade, (replayInFlight_congr hshadow _).trans hmark⟩
  · show happens (replyStart s) s = _
    unfold replyStart
    rw [hline]
    rfl
  · show happens (settlingEnd s) s = _
    unfold settlingEnd
    rw [hline]
    rfl
  · have hcut : ∀ c, (c = .replyCharacterGap ∨ ∃ length : Byte, 64 < length.toNat ∧ c = .replyLengthAbove64 length) →
        ∃ u, exec c s = .next u ∧ u.segment.line = .settling n ∧ u.flagSet .segmentCheck = true := fun c hc => by
      have hm : s.Misses t c (raiseFlag .segmentCheck { s with segment := { s.segment with line := .settling n } }) :=
        .inr (.inr ⟨n, hc, hline, htimeout, rfl⟩)
      obtain ⟨u, hu, hsettling, hflag⟩ := hm.exec_line
      refine ⟨u, hu, hsettling.trans (congrArg SegmentMaster.line (segment_raiseFlag ..)), hflag ?_⟩
      rcases hc with rfl | ⟨length, -, rfl⟩ <;> exact nofun
    exact ⟨hcut _ (.inl rfl), fun length hlong => hcut _ (.inr ⟨length, hlong, rfl⟩)⟩
  · obtain ⟨u, hu, hfree, -⟩ := State.Misses.exec_line (c := .replyTimeout) (m := s.lineFree) (t := t) (.inl ⟨rfl, hline, rfl⟩)
    exact ⟨u, hu, hfree⟩
  · obtain ⟨u, hu, hfree, hflag⟩ := State.Misses.exec_line (c := .replyReceived chars)
      (m := raiseFlag .segmentCheck s.lineFree) (t := t) (.inr (.inl ⟨chars, r, rfl, hline, hcollect, hfails, rfl⟩))
    exact ⟨u, hu, hfree.trans (congrArg SegmentMaster.line (segment_raiseFlag ..)), hflag nofun⟩

end Sys2Proof.Machine
end

section
/-! SUPPORT. The timers of the nodes and of the hold queues (R43, R44, R130 to R133, R152), and the ends of restore steps. -/

namespace Sys2Proof.Machine

/-! ### What an expiry leaves (R130 to R133) -/

section
variable {s : State} {a : Nat} {r : Runtime}

/-- The report of an expired entry: none without a tag, else into its reservation or a FREE entry. -/
theorem makeReport_expired (e : HoldEntry) (s : State) :
    (e.tag = none → makeReport e .expired [] s = s)
      ∧ ∀ tag i, e.tag = some tag → (e.reservation = some i ∨ (e.reservation = none ∧ s.freeEntry = some i)) →
          makeReport e .expired [] s = s.fills i { kind := 0x43, tag := tag, outcome := 0x21, body := [u8 e.node] } := by
  unfold makeReport
  refine ⟨fun htag => by rw [htag], fun tag i htag hi => ?_⟩
  rw [htag]
  dsimp only
  rcases hi with hi | ⟨hnone, hi⟩
  · rw [hi]; rfl
  · rw [hnone]
    dsimp only
    rw [offerFrame, hi]
    rfl

theorem exec_holdExpiry {k : Nat} {e : HoldEntry} (hk : (s.queue a)[k]? = some e) (hexpiry : e.expiry = some s.gap.clock)
    (hidle : e.inFlight = false) : exec (.holdExpiry a k) s = .next (endCommand (expireEntry a k e s)) := by
  show happens (holdExpiry a k s) s = _
  rw [holdExpiry_due hk hexpiry hidle]
  rfl

/-- In a RELEASE whose queue keeps entries the step stays; its miss count is 0 when the head has gone. -/
theorem releaseAfterExpiry_kept (hr : s.runtime a = some r) (hstate : r.state = .release) (hqueue : s.queue a ≠ [])
    (k : Nat) : releaseAfterExpiry a (k == 0) s =
      if k = 0 then s.setRuntime a (some { r with misses := 0 }) else s := by
  have hfull : (s.queue a).isEmpty = false := by simpa using hqueue
  unfold releaseAfterExpiry
  rw [if_pos ((nodeState_of_runtime hr).trans hstate), hfull, if_neg nofun, mapRuntime_of_runtime hr]
  by_cases hk : k = 0 <;> simp [hk]

/-- A RELEASE without held frames and without a step in flight is left by the onward choice. -/
theorem releaseAfterExpiry_left (hr : s.runtime a = some r) (hstate : r.state = .release) (hqueue : s.queue a = [])
    (hstep : ∀ k, r.step ≠ .inFlight k) (gone : Bool) : releaseAfterExpiry a gone s = onward a s := by
  unfold releaseAfterExpiry
  rw [if_pos ((nodeState_of_runtime hr).trans hstate), hqueue, hr, if_pos List.isEmpty_nil]
  cases r with
  | mk _ _ _ _ _ _ _ _ step =>
    cases step with
    | inFlight k => exact absurd rfl (hstep k)
    | none => rfl
    | waiting => rfl
    | ready _ => rfl
    | orphaned => rfl

/-- The state an empty queue is left for. -/
theorem onwardState_of_empty (hqueue : s.queue a = []) :
    s.onwardState a = if s.hasPending a then .replay else .online := by
  unfold State.onwardState
  rw [if_pos hqueue]

theorem queue_setQueue_self (ha : isAddress a = true) (s : State) (q : List HoldEntry) : (s.setQueue a q).queue a = q :=
  (queue_setQueue ..).trans (if_pos ⟨rfl, ha⟩)

/-! ### The timers of a node (R43, R44, R152) -/

theorem exec_nextProbeTime (hr : s.runtime a = some r) (hstate : r.state = .awaitBoot ∨ r.state = .missing)
    (hstep : r.step = .waiting) (hdue : r.nextProbe = some s.gap.clock) :
    exec (.nextProbeTime a) s = .next (endCommand (s.setRuntime a (some { r with step := .ready .probe }))) := by
  have hhappens : nextProbeTime a s = some (offerKind a .probe s) := by
    unfold nextProbeTime
    rw [hr]
    dsimp only
    rw [hdue]
    exact if_pos ⟨hstate, hstep, reached_self _⟩
  have hoffered : offerKind a .probe s = s.setRuntime a (some { r with step := .ready .probe }) := by
    unfold offerKind
    rw [mapRuntime_of_runtime hr, hstep]
    rfl
  show happens (nextProbeTime a s) s = _
  rw [hhappens, hoffered]
  rfl

/-- The record of a node that enters MISSING, its probe in flight kept. -/
def Runtime.missing (r : Runtime) (due : Time) : Runtime :=
  match r.step with
  | .inFlight k => { r with state := .missing, window := none, phase := none, nextProbe := none, step := .inFlight k }
  | c =>
    { r with state := .missing, window := none, phase := none, nextProbe := some due
             step := if c = .orphaned then .orphaned else .waiting }

theorem enterMissing_spec (hr : s.runtime a = some r) :
    SameBlocks s (enterMissing a s)
      ∧ (enterMissing a s).runtime a = some (r.missing (after s.now (s.params.missingInterval * 1000))) := by
  have hnotice : ∀ u, Reports u (offerNodeState a .missing u) := reports_offerNodeState a .missing
  refine ⟨(sameBlocks_mapRuntime s a _).trans (hnotice _).sameBlocks, ((hnotice _).runtime a).trans ?_⟩
  refine (runtime_mapRuntime_same hr _).trans ?_
  unfold Runtime.missing
  cases r.step <;> rfl

theorem exec_bootWindowClose (hr : s.runtime a = some r) (hstate : r.state = .awaitBoot) {opens : Time}
    (hwindow : r.window = some (opens, s.gap.clock)) :
    exec (.bootWindowClose a) s = .next (endCommand (enterMissing a s)) := by
  have hhappens : bootWindowClose a s = some (enterMissing a s) := by
    unfold bootWindowClose
    rw [hr]
    dsimp only
    rw [hwindow]
    exact if_pos ⟨hstate, reached_self _⟩
  show happens (bootWindowClose a s) s = _
  rw [hhappens]
  rfl

theorem exec_busyPollTime (hr : s.runtime a = some r) {x : Session} (hx : r.session = some x)
    (hdue : x.pollTime = some s.gap.clock) (hstep : r.step = .waiting) :
    exec (.busyPollTime a) s = .next (endCommand
      (s.setRuntime a (some { r with step := .ready .busyPoll, session := some { x with pollTime := none } }))) := by
  have hhappens : busyPollTime a s =
      some (offerKind a .busyPoll (s.mapSession a (fun x => { x with pollTime := none }))) := by
    unfold busyPollTime
    rw [hr]
    dsimp only
    rw [hx]
    dsimp only
    rw [hdue]
    exact if_pos ⟨hstep, reached_self _⟩
  have hoffered : offerKind a .busyPoll (s.mapSession a (fun x => { x with pollTime := none })) =
      s.setRuntime a (some { r with step := .ready .busyPoll, session := some { x with pollTime := none } }) := by
    unfold offerKind State.mapSession
    rw [mapRuntime_mapRuntime, mapRuntime_of_runtime hr]
    dsimp only [Function.comp]
    rw [hstep, hx]
    rfl
  show happens (busyPollTime a s) s = _
  rw [hhappens, hoffered]
  rfl

end

/-- Settles O53: each timer is its rule at the moment the clock reaches it. -/
theorem timersActWhenReached : Obligations.TimersActWhenReached := by
  intro s a r hr now without
  have ha := isAddress_of_runtime hr
  have hwithout : ∀ k, without k = s.setQueue a ((s.queue a).eraseIdx k) := fun k => rfl
  have hrun : ∀ k, (without k).runtime a = some r := fun k => hr
  refine ⟨fun hstate hstep hdue => exec_nextProbeTime hr hstate hstep hdue, fun opens hstate hwindow => ?_,
    fun x hx hdue hstep => exec_busyPollTime hr hx hdue hstep, fun k e hk hexpiry hidle hstate => ?_,
    ?_, fun e hqueue hexpiry hidle hstate hstep => ?_⟩
  · obtain ⟨hblocks, hmissing⟩ := enterMissing_spec hr
    obtain ⟨-, -, -, hhold, hshadow, -, -, -⟩ := endCommand_blocks (enterMissing a s)
    refine ⟨_, exec_bootWindowClose hr hstate hwindow, queue_congr (hhold.trans hblocks.hold) a, hshadow.trans hblocks.shadow, ?_⟩
    rw [runtime_endCommand, hmissing]
    unfold Runtime.missing
    cases r.step <;> rfl
  · have hexec := exec_holdExpiry hk hexpiry hidle
    obtain ⟨hsilent, hreported⟩ := makeReport_expired e (without k)
    have hidleState : s.nodeState a ≠ .release := by rw [nodeState_of_runtime hr]; exact hstate
    rw [expireEntry_idle hidleState, ← hwithout k] at hexec
    refine ⟨fun htag => ?_, fun tag i htag hi => ?_⟩
    · rw [hexec, hsilent htag]
    · rw [hexec, hreported tag i htag hi]
  · intro k e hk hexpiry hidle hstate hlength left
    have hexec := exec_holdExpiry hk hexpiry hidle
    obtain ⟨hsilent, hreported⟩ := makeReport_expired e (without k)
    have hfull : (s.queue a).eraseIdx k ≠ [] := fun h => by
      have hshort := congrArg List.length h
      rw [List.length_eraseIdx, List.length_nil] at hshort
      split at hshort <;> omega
    have hrest : ∀ u : State, u.runtime a = some r → u.hold = (without k).hold → releaseAfterExpiry a (k == 0) u = left u :=
      fun u hu hhold => releaseAfterExpiry_kept hu hstate
        (by rw [queue_congr hhold, hwithout, queue_setQueue_self ha]; exact hfull) k
    have hexpired : ∀ u, makeReport e .expired [] (without k) = u → u.runtime a = some r → u.hold = (without k).hold →
        exec (.holdExpiry a k) s = .next (endCommand (left u)) := fun u hu hur hhold => by
      rw [hexec, ← hrest u hur hhold, ← hu]
      rfl
    refine ⟨fun htag => hexpired _ (hsilent htag) (hrun k) rfl, fun tag i htag hi => hexpired _ (hreported tag i htag hi) ?_ rfl⟩
    exact hrun k
  · have hexec := exec_holdExpiry (k := 0) (by rw [hqueue]; rfl) hexpiry hidle
    have hreports := reports_makeReport e .expired [] (s.setQueue a ((s.queue a).eraseIdx 0))
    have hempty : (s.setQueue a ((s.queue a).eraseIdx 0)).queue a = [] := by
      rw [queue_setQueue_self ha, hqueue]; rfl
    obtain ⟨u, hu⟩ : ∃ u, u = makeReport e .expired [] (s.setQueue a ((s.queue a).eraseIdx 0)) := ⟨_, rfl⟩
    rw [← hu] at hreports
    have hur : u.runtime a = some r := (hreports.runtime a).trans hr
    have huq : u.queue a = [] := (queue_congr hreports.sameBlocks.hold a).trans hempty
    have hupending : u.hasPending a = s.hasPending a := by
      have hshadow : u.shadow = s.shadow := hreports.sameBlocks.shadow
      unfold State.hasPending State.pendingSlots State.slotPending State.replayList State.slot
      rw [hshadow]
    have hleft : expireEntry a 0 e s = onward a u := by
      rw [hu] at hur huq ⊢
      exact releaseAfterExpiry_left hur hstate huq hstep _
    obtain ⟨hblocks, x, hx, -, hxstate, -⟩ := onward_cases hur (by rw [hstate]; rfl)
    obtain ⟨-, -, -, hhold, -, -, -, -⟩ := endCommand_blocks (onward a u)
    rw [hleft] at hexec
    refine ⟨_, hexec, (queue_congr (hhold.trans hblocks.hold) a).trans huq, ?_⟩
    rw [nodeState_endCommand, nodeState_of_runtime hx, hxstate, onwardState_of_empty huq, hupending]

/-! ### A probe that is missed (R42 to R44) -/

section
variable {s m : State} {a : Nat} {r : Runtime} {t : Transaction} {c : Instr} {res : Result}

/-- A miss of a restore step in flight goes to the rule of the step's kind. -/
theorem endedWith_step (ht : t.carries = .step a) (hr : m.runtime a = some r) {k : StepKind} (hstep : r.step = .inFlight k) :
    endedWith t res m = applyStep a k res (m.setRuntime a (some { r with step := .none })) := by
  unfold endedWith
  rw [ht]
  exact stepEnded_of_inFlight hr hstep res

theorem probeResult_missed (hres : res = .timeout ∨ res = .badCheck) (s : State) : probeResult a res s = probeMiss a s := by
  obtain rfl | rfl := hres <;> rfl

theorem enterMissing_reports (hr : s.runtime a = some r) :
    Reports (s.setRuntime a (some (r.missing (after s.now (s.params.missingInterval * 1000))))) (enterMissing a s) := by
  have hrecord : s.setRuntime a (some (r.missing (after s.now (s.params.missingInterval * 1000)))) =
      s.mapRuntime a (fun r => match r.step with
        | .inFlight k => { r.move .missing with step := .inFlight k }
        | c => { r.move .missing with nextProbe := some (after s.now (s.params.missingInterval * 1000)), step := c.wait }) := by
    rw [mapRuntime_of_runtime hr]
    unfold Runtime.missing
    cases r.step <;> rfl
  rw [hrecord]
  exact reports_offerNodeState a .missing _

theorem enterAwaitBoot_open {e : NodeEntry} (he : s.entry a = some e) (hr : s.runtime a = some r) {base : Time}
    (hopen : reached s.now (after base (e.bootMax * 10)) = false) :
    enterAwaitBoot a base s = s.setRuntime a (some
      (awaitingBoot s.now (after base (e.bootMin * 10)) (after base (e.bootMax * 10)) r)) := by
  rw [enterAwaitBoot_of_entry a base s he]
  dsimp only
  rw [hopen, if_neg nofun, mapRuntime_of_runtime hr]

/-- The record of a node whose window has closed before it opened a step. -/
def Runtime.closedOut (r : Runtime) (due : Time) : Runtime :=
  { r.move .missing with misses := 0, nextProbe := some due, step := .waiting }

theorem enterAwaitBoot_closed {e : NodeEntry} (he : s.entry a = some e) (hr : s.runtime a = some r) (hstep : r.step = .none)
    {base : Time} (hclosed : reached s.now (after base (e.bootMax * 10)) = true) :
    Reports (s.setRuntime a (some (r.closedOut (after s.now (s.params.missingInterval * 1000))))) (enterAwaitBoot a base s) := by
  have hcancelled : cancelStep a (s.mapRuntime a
      (awaitingBoot s.now (after base (e.bootMin * 10)) (after base (e.bootMax * 10)))) =
      s.setRuntime a (some { awaitingBoot s.now (after base (e.bootMin * 10)) (after base (e.bootMax * 10)) r with
        step := .none }) := by
    show (s.mapRuntime a _).mapRuntime a _ = _
    rw [mapRuntime_mapRuntime, mapRuntime_of_runtime hr]
    unfold awaitingBoot
    dsimp only [Function.comp]
    rw [hstep]
    split <;> rfl
  rw [enterAwaitBoot_of_entry a base s he]
  dsimp only
  rw [hclosed, if_pos rfl, hcancelled]
  have hreports := enterMissing_reports (runtime_setRuntime_same hr (some
    { awaitingBoot s.now (after base (e.bootMin * 10)) (after base (e.bootMax * 10)) r with step := .none }))
  rw [setRuntime_setRuntime] at hreports
  refine Eq.mp (congrArg (fun x => Reports (s.setRuntime a (some x)) _) ?_) hreports
  unfold awaitingBoot
  split <;> rfl

theorem probeMiss_again (hr : s.runtime a = some r) (hstep : r.step = .none) (hstate : r.state = .probe)
    (hretry : r.misses + 1 ≤ s.params.stepRetries) :
    probeMiss a s = s.setRuntime a (some { r with misses := r.misses + 1, step := .ready .probe }) := by
  unfold probeMiss
  rw [hr]
  dsimp only
  rw [hstate]
  dsimp only
  rw [if_pos hretry, offerKind, mapRuntime_mapRuntime, mapRuntime_of_runtime hr]
  dsimp only [Function.comp]
  rw [hstep, hstate]
  rfl

theorem probeMiss_spent (hr : s.runtime a = some r) (hstate : r.state = .probe) (hspent : s.params.stepRetries < r.misses + 1) :
    probeMiss a s = enterAwaitBoot a s.now (s.setRuntime a (some { r with misses := r.misses + 1 })) := by
  unfold probeMiss
  rw [hr]
  dsimp only
  rw [hstate]
  dsimp only
  rw [if_neg (Nat.not_le.2 hspent), mapRuntime_of_runtime hr, hstate]

theorem probeMiss_awaitBoot (hr : s.runtime a = some r) (hstep : r.step = .none) (hstate : r.state = .awaitBoot)
    {opens closes : Time} (hwindow : r.window = some (opens, closes)) :
    probeMiss a s = s.setRuntime a (some { r with
      nextProbe := some (after s.now s.params.callInterval)
      step := if reached (after s.now s.params.callInterval) closes then .none else .waiting }) := by
  unfold probeMiss
  rw [hr]
  dsimp only
  rw [hstate]
  dsimp only
  unfold nextProbeInWindow
  dsimp only
  rw [mapRuntime_of_runtime hr, hwindow, hstep, hstate]
  rfl

theorem probeMiss_missing (hr : s.runtime a = some r) (hstep : r.step = .none) (hstate : r.state = .missing) :
    probeMiss a s = s.setRuntime a (some { r with
      nextProbe := some (after s.now (s.params.missingInterval * 1000)), step := .waiting }) := by
  unfold probeMiss
  rw [hr]
  dsimp only
  rw [hstate]
  dsimp only
  rw [mapRuntime_of_runtime hr, hstep, hstate]
  rfl

/-- What a command leaves when a missed step has written one record and at most given a notice. -/
theorem State.Misses.exec_written (h : s.Misses t c m) (ht : t.carries = .step a) (hr : s.runtime a = some r) {k : StepKind}
    (hstep : r.step = .inFlight k) {x : Runtime}
    (hwritten : ∀ res, res = .timeout ∨ res = .badCheck →
      Reports (m.setRuntime a (some x)) (applyStep a k res (m.setRuntime a (some { r with step := .none })))) :
    ∃ u, exec c s = .next u ∧ u.runtime a = some x ∧ (∀ b, b ≠ a → u.runtime b = s.runtime b)
      ∧ u.segment = m.segment ∧ (c ≠ .replyTimeout → u.flagSet .segmentCheck = true)
      ∧ u.shadow = s.shadow ∧ u.hold = s.hold ∧ u.gap = s.gap ∧ u.store = s.store ∧ u.tables = s.tables := by
  obtain ⟨res, hres, hexec⟩ := h.exec_eq
  have hrm : m.runtime a = some r := (h.missed.runtime a).trans hr
  have hreports := hwritten res hres
  rw [← endedWith_step (res := res) ht hrm hstep] at hreports
  obtain ⟨hsegment, hrestore, hgap, hhold, hshadow, hstore, htables, -⟩ := endCommand_blocks (endedWith t res m)
  obtain ⟨l, y, z, hm⟩ := h.missed.frame
  obtain ⟨y', z', hreported⟩ := hreports
  refine ⟨_, hexec, ?_, fun b hb => ?_, hsegment.trans ?_, fun hc => ?_, hshadow.trans ?_, hhold.trans ?_, hgap.trans ?_,
    hstore.trans ?_, htables.trans ?_⟩
  · rw [runtime_endCommand, hreported]
    exact runtime_setRuntime_same hrm (some x)
  · rw [runtime_endCommand, hreported]
    refine Eq.trans ?_ (h.missed.runtime b)
    exact (runtime_setRuntime m a b (some x)).trans (if_neg fun hab => hb hab.1.symm)
  · rw [hreported]; rfl
  · rw [flagSet_endCommand]
    exact (endedWith_kept t res m).2 _ (h.missed.flag hc)
  all_goals rw [hreported, hm]; rfl

end

/-- Settles O54: the miss is counted and judged by the node's state. -/
theorem missedProbesFollowTheState : Obligations.MissedProbesFollowTheState := by
  intro s a e r t c m he hr hstep ht hm p now ends opens closes pause next
  have hrm : m.runtime a = some r := (hm.missed.runtime a).trans hr
  have hem : m.entry a = some e := by
    obtain ⟨_, _, _, hframe⟩ := hm.missed.frame
    rw [hframe]
    exact he
  have hnow : m.now = now := by
    obtain ⟨_, _, _, hframe⟩ := hm.missed.frame
    rw [hframe]
    rfl
  have hparams : m.params = p := hm.missed.params
  let idle : Runtime := { r with step := .none }
  have hidle : (m.setRuntime a (some idle)).runtime a = some idle := runtime_setRuntime_same hrm _
  have hends : ∀ x, (Reports (m.setRuntime a (some x)) (probeMiss a (m.setRuntime a (some idle)))) → ends x := fun x hx =>
    hm.exec_written ht hr hstep fun res hres => by
      show Reports _ (probeResult a res _)
      rw [probeResult_missed hres]
      exact hx
  have hset : ∀ x, probeMiss a (m.setRuntime a (some idle)) = (m.setRuntime a (some idle)).setRuntime a (some x) → ends x :=
    fun x hx => hends x (by rw [hx, setRuntime_setRuntime]; exact .refl _)
  have hsetNow : ∀ x, (m.setRuntime a x).now = now := fun _ => hnow
  have hsetParams : ∀ x, (m.setRuntime a x).params = p := fun _ => hparams
  refine ⟨fun hstate hretry => hset _ ?_, fun hstate hspent hopen => ?_, fun hstate hspent hclosed => hends _ ?_,
    fun o w hstate hwindow => hset _ ?_, fun hstate => hset _ ?_⟩
  · exact probeMiss_again (r := idle) hidle rfl hstate (by rw [hsetParams]; exact hretry)
  · intro y
    refine hends _ ?_
    have hmiss := probeMiss_spent (r := idle) hidle hstate (by rw [hsetParams]; exact hspent)
    rw [setRuntime_setRuntime, hsetNow] at hmiss
    have hopened := enterAwaitBoot_open (s := m.setRuntime a (some { idle with misses := idle.misses + 1 })) (base := now) hem
      (runtime_setRuntime_same hrm _) (by rw [hsetNow]; exact hopen)
    rw [setRuntime_setRuntime, hsetNow] at hopened
    rw [hmiss, hopened]
    refine Eq.mp (congrArg (fun x => Reports _ (m.setRuntime a (some x))) ?_) (Reports.refl _)
    unfold awaitingBoot
    by_cases hreached : reached now opens = true
    · rw [if_pos hreached]
      exact (if_pos hreached).symm
    · rw [if_neg hreached]
      exact (if_neg hreached).symm
  · have hmiss := probeMiss_spent (r := idle) hidle hstate (by rw [hsetParams]; exact hspent)
    rw [setRuntime_setRuntime, hsetNow] at hmiss
    have hreports := enterAwaitBoot_closed (s := m.setRuntime a (some { idle with misses := idle.misses + 1 })) (base := now)
      hem (runtime_setRuntime_same hrm _) rfl (by rw [hsetNow]; exact hclosed)
    rw [setRuntime_setRuntime, hsetNow, hsetParams] at hreports
    rw [hmiss]
    exact hreports
  · have hmiss := probeMiss_awaitBoot (r := idle) hidle rfl hstate hwindow
    rw [hsetNow, hsetParams] at hmiss
    exact hmiss
  · have hmiss := probeMiss_missing (r := idle) hidle rfl hstate
    rw [hsetNow, hsetParams] at hmiss
    exact hmiss

end Sys2Proof.Machine
end

section
/-! SUPPORT. The end of an ORPHANED step's transaction (R39, R121, R138). -/

namespace Sys2Proof.Machine

/-! ### The entry that was in flight -/

theorem putNode_none {α : Type} {v : PerNode α} {a : Nat} (h : atNode v a = none) (x : α) : putNode v a x = v := by
  unfold atNode at h
  unfold putNode
  split
  · rfl
  · next ha =>
    rw [if_neg ha] at h
    have hbeyond : 30 ≤ a - 1 := by simpa using h
    exact Vector.setIfInBounds_eq_of_size_le hbeyond

/-- A queue that is written back changes nothing. -/
theorem setQueue_self (s : State) (a : Nat) : s.setQueue a (s.queue a) = s := by
  have hput : putNode s.hold.queues a (s.queue a) = s.hold.queues := by
    unfold State.queue
    cases h : atNode s.hold.queues a with
    | none => exact putNode_none h _
    | some q => exact putNode_same h
  unfold State.setQueue
  rw [hput]
  rfl

/-- The queue with no entry in flight. -/
def stilled (l : List HoldEntry) : List HoldEntry := l.map fun e => { e with inFlight := false }

theorem stilled_of_idle {l : List HoldEntry} (h : ∀ e ∈ l, e.inFlight = false) : stilled l = l := by
  refine (List.map_congr_left (g := id) fun e he => ?_).trans (List.map_id l)
  rw [← h e he]
  rfl

theorem queue_setReplayInFlight (s : State) (a b : Nat) (x : Option ReplayInFlight) :
    (s.setReplayInFlight a x).queue b = s.queue b := rfl

theorem setQueue_stilled_queue {s : State} {a : Nat} (h : s.queue a ≠ []) (q : List HoldEntry) : (s.setQueue a q).queue a = q := by
  have ha : isAddress a = true := by
    by_contra hno
    refine h ?_
    unfold State.queue atNode
    split
    · rfl
    · next hzero =>
      have hbeyond : 30 ≤ a - 1 := by
        have hbounds : ¬ (1 ≤ a ∧ a ≤ 30) := fun h => hno (decide_eq_true h)
        omega
      rw [Vector.getElem?_eq_none hbeyond]
      rfl
  exact (queue_setQueue ..).trans (if_pos ⟨rfl, ha⟩)

section
variable {s : State} {a : Nat}

/-- While the entry in flight is not due, the end of the transaction only takes its mark away. -/
theorem clearInFlight_idle (h : ∀ e ∈ s.queue a, e.inFlight = true → e.expired s.now = false) :
    clearInFlight a s = (s.setReplayInFlight a none).setQueue a (stilled (s.queue a)) := by
  unfold clearInFlight
  dsimp only
  rw [queue_setReplayInFlight]
  split
  · next hnone =>
    have hidle : ∀ e ∈ s.queue a, e.inFlight = false := fun e he => by
      simpa using (List.findIdx?_eq_none_iff.1 hnone) e he
    rw [stilled_of_idle hidle]
    exact (setQueue_self (s.setReplayInFlight a none) a).symm
  · next i hi =>
    obtain ⟨hlt, hflight, -⟩ := List.findIdx?_eq_some_iff_getElem.1 hi
    have hfull : (s.setReplayInFlight a none).queue a ≠ [] := List.ne_nil_of_length_pos (Nat.zero_lt_of_lt hlt)
    rw [setQueue_stilled_queue hfull, List.getElem?_map, List.getElem?_eq_getElem hlt]
    dsimp only [Option.map]
    have hearly := h _ (List.getElem_mem hlt) hflight
    exact if_neg fun hc => absurd (show false = true from hearly.symm.trans hc) nofun

/-- An entry in flight whose time has passed expires now. -/
theorem clearInFlight_due {i : Nat} {e : HoldEntry} (hi : (s.queue a)[i]? = some e) (hflight : e.inFlight = true)
    (hdue : e.expired s.now = true) (hfirst : ∀ j g, j < i → (s.queue a)[j]? = some g → g.inFlight = false)
    (hstate : s.nodeState a ≠ .release) :
    clearInFlight a s = makeReport { e with inFlight := false } .expired []
      ((s.setReplayInFlight a none).setQueue a (stilled ((s.queue a).eraseIdx i))) := by
  obtain ⟨hlt, hget⟩ := List.getElem?_eq_some_iff.1 hi
  have hfound : (s.queue a).findIdx? (·.inFlight) = some i :=
    List.findIdx?_eq_some_iff_getElem.2 ⟨hlt, by rw [hget]; exact hflight, fun j hj => by
      rw [hfirst j _ hj (List.getElem?_eq_getElem (Nat.lt_trans hj hlt))]; exact nofun⟩
  have hfull : (s.setReplayInFlight a none).queue a ≠ [] := List.ne_nil_of_length_pos (Nat.zero_lt_of_lt hlt)
  unfold clearInFlight
  dsimp only
  rw [queue_setReplayInFlight, hfound]
  dsimp only
  rw [setQueue_stilled_queue hfull, List.getElem?_map, hi]
  dsimp only [Option.map]
  refine (if_pos (show HoldEntry.expired { e with inFlight := false } _ = true from hdue)).trans ?_
  rw [expireEntry_idle (by exact hstate), setQueue_stilled_queue hfull, setQueue_setQueue]
  unfold stilled
  rw [List.eraseIdx_map]

/-! ### The first step of a state (R39) -/

/-- A probe, not before the next probe time. -/
def Runtime.firstProbe (r : Runtime) (now : Time) : StepCondition :=
  match r.nextProbe with
  | some t => if reached now t then .ready .probe else .waiting
  | none => .ready .probe

/-- The step that the state of a node offers first. -/
def Runtime.firstStep (r : Runtime) (now : Time) (pending held : Bool) : StepCondition :=
  match r.state with
  | .probe => .ready .probe
  | .awaitBoot =>
    match r.window with
    | some (_, closes) => if reached now closes then .none else r.firstProbe now
    | none => .none
  | .missing => r.firstProbe now
  | .config => .ready .config
  | .replay => if pending then .ready .replay else .none
  | .release => if held then .ready .release else .none
  | _ => .none

theorem offerFirstStep_eq {r : Runtime} (hr : s.runtime a = some r) (hstep : r.step = .none) :
    offerFirstStep a s =
      s.setRuntime a (some { r with step := r.firstStep s.now (s.hasPending a) (!(s.queue a).isEmpty) }) := by
  unfold offerFirstStep Runtime.firstStep Runtime.firstProbe
  dsimp only
  rw [mapRuntime_of_runtime hr, if_neg fun h => h hstep]
  refine congrArg (fun x => s.setRuntime a (some x)) ?_
  clear hr
  cases r with
  | mk state _ _ _ _ _ window =>
    cases hstep
    cases state
    case awaitBoot =>
      cases window with
      | none => rfl
      | some w => dsimp only; split <;> rfl
    case replay => dsimp only; split <;> rfl
    case release => dsimp only; split <;> rfl
    all_goals rfl

end

/-! ### The end of the transaction -/

section
variable {s n m v : State} {a : Nat} {t : Transaction} {c : Instr} {res : Result}

theorem trunk_raiseFlag_silent (h : s.responder.mask = 0) (f : Flag) : (raiseFlag f s).trunk = s.trunk := by
  unfold raiseFlag
  dsimp only
  split
  · rfl
  · have hmask : (s.setFlag f).maskFlag = false := by
      show s.responder.mask.getLsbD 0 = false
      rw [h]
      rfl
    rw [hmask, if_neg nofun]
    rfl

/-- A record whose step has ended. -/
def Runtime.idle (r : Runtime) : Runtime := { r with step := .none }

theorem stepEnded_orphaned (h : ∀ r, n.runtime a = some r → r.step = .orphaned) (res : Result) :
    stepEnded a res n = offerFirstStep a (clearInFlight a (n.mapRuntime a Runtime.idle)) := by
  unfold stepEnded
  cases hr : n.runtime a with
  | none =>
    dsimp only
    rw [mapRuntime_of_none hr]
    have hnone : (clearInFlight a n).runtime a = none := by
      have hconfigured := congrFun (congrArg Quiet.configured (clearInFlight_quiet n a)) a
      have hsome : ((clearInFlight a n).runtime a).isSome = (n.runtime a).isSome := hconfigured
      rw [hr] at hsome
      exact Option.isSome_eq_false_iff.1 hsome |> Option.isNone_iff_eq_none.1
    obtain ⟨f, hf, -⟩ := offerFirstStep_cases a (clearInFlight a n)
    rw [hf, mapRuntime_of_none hnone]
  | some r =>
    dsimp only
    rw [h r hr]
    rfl

/-- The end of the transaction of an ORPHANED step, whatever ends it: the line as `m` has it, and at most SEGMENT_CHECK. -/
theorem exec_orphaned (ht : t.carries = .step a)
    (h : s.Misses t c m ∨ ∃ chars v, c = .replyReceived chars ∧ s.segment.line = .collecting t ∧ collectReply chars = some v
      ∧ m = s.lineFree) :
    ∃ res n, exec c s = .next (endCommand (stepEnded a res n))
      ∧ (∃ l x y, n = { s with segment := { s.segment with line := l }, trunk := x, responder := y })
      ∧ n.segment = m.segment ∧ (s.responder.mask = 0 → n.trunk = s.trunk) := by
  have hended : ∀ res n, endedWith t res n = stepEnded a res n := fun res n => by
    unfold endedWith
    rw [ht]
  rcases h with hm | ⟨chars, v, rfl, hline, hcollect, rfl⟩
  · obtain ⟨res, -, hexec⟩ := hm.exec_eq
    rw [hended] at hexec
    refine ⟨res, m, hexec, hm.missed.frame, rfl, fun hmask => ?_⟩
    rcases hm with ⟨-, -, rfl⟩ | ⟨_, _, -, -, -, -, rfl⟩ | ⟨k, -, -, -, rfl⟩
    · rfl
    · exact trunk_raiseFlag_silent (s := s.lineFree) hmask _
    · exact trunk_raiseFlag_silent (s := { s with segment := { s.segment with line := .settling k } }) hmask _
  · have hreceived : exec (.replyReceived chars) s =
        .next (endCommand (transactionEnded t (judgeReply t.kind t.destination v) .free s)) := by
      show happens (replyReceived chars s) s = _
      unfold replyReceived
      rw [hline]
      dsimp only
      rw [hcollect]
      rfl
    rw [transactionEnded_eq, hended] at hreceived
    refine ⟨_, _, hreceived, ?_, ?_, ?_⟩
    · split
      · obtain ⟨x, y, hr⟩ := reports_raiseFlag .segmentCheck (s.setLine .free)
        exact ⟨.free, x, y, hr⟩
      · exact ⟨.free, s.trunk, s.responder, rfl⟩
    · split
      · rw [segment_raiseFlag]; rfl
      · rfl
    · intro hmask
      split
      · exact trunk_raiseFlag_silent (s := s.setLine .free) hmask _
      · rfl

theorem trunk_endCommand (h : n.trunk = s.trunk) (hmoment : n.moment = s.moment) :
    (endCommand n).trunk = (endCommand s).trunk := by
  rw [endCommand_transmit, endCommand_transmit, h, hmoment]

/-- What the end of an ORPHANED step's transaction leaves, the queue and the report apart. -/
structure OrphanEnded (s m : State) (a : Nat) (q : List HoldEntry) (u : State) : Prop where
  segment : u.segment = m.segment
  flight : u.replayInFlight a = none
  flights : ∀ b, b ≠ a → u.replayInFlight b = s.replayInFlight b
  shadow : u.shadow = { s.shadow with inFlight := u.shadow.inFlight }
  others : ∀ b, b ≠ a → u.runtime b = s.runtime b ∧ u.queue b = s.queue b
  store : u.store = s.store
  gap : u.gap = s.gap
  tables : u.tables = s.tables
  lost : s.runtime a = none → u.runtime a = none
  step : ∀ r, s.runtime a = some r → u.runtime a = some
    { r with step := r.firstStep s.gap.clock (s.hasPending a) (!q.isEmpty) }
  queue : u.queue a = q

/-- The walk of the facts from the state in which the entry's mark has gone, through its report, to the end of the command. -/
theorem orphanEnded (hn : ∃ l x y, n = { s with segment := { s.segment with line := l }, trunk := x, responder := y })
    (hsegment : n.segment = m.segment) {q : List HoldEntry}
    (hqueue : (((n.mapRuntime a Runtime.idle).setReplayInFlight a none).setQueue a q).queue a = q)
    (hv : Reports (((n.mapRuntime a Runtime.idle).setReplayInFlight a none).setQueue a q) v) :
    OrphanEnded s m a q (endCommand (offerFirstStep a v)) ∧ (offerFirstStep a v).trunk = v.trunk
      ∧ (offerFirstStep a v).moment = s.moment := by
  have hruntime : ∀ b, n.runtime b = s.runtime b := fun b => by
    obtain ⟨_, _, _, rfl⟩ := hn
    rfl
  obtain ⟨f, hf, -⟩ := offerFirstStep_cases a v
  obtain ⟨x, y, hoffered⟩ := onlyTransfers_mapRuntime v a f
  have hstoreF : (v.mapRuntime a f).store = v.store := store_mapRuntime v a f
  obtain ⟨x', y', hidle⟩ := onlyTransfers_mapRuntime n a Runtime.idle
  have hstoreI : (n.mapRuntime a Runtime.idle).store = n.store := store_mapRuntime n a _
  obtain ⟨hseg, hrest, hgap, hhold, hshadow, hstore, htables, -⟩ := endCommand_blocks (offerFirstStep a v)
  have hvq : v.queue a = q := (queue_congr hv.sameBlocks.hold a).trans hqueue
  have hvshadow : v.shadow = { s.shadow with inFlight := putNode s.shadow.inFlight a none } := by
    refine hv.sameBlocks.shadow.trans ?_
    obtain ⟨_, _, _, rfl⟩ := hn
    show ({ (State.mapRuntime _ a Runtime.idle).shadow with
      inFlight := putNode (State.mapRuntime _ a Runtime.idle).shadow.inFlight a none } : ShadowStore) = _
    rw [hidle]
  have hvpending : v.hasPending a = s.hasPending a := by
    unfold State.hasPending State.pendingSlots State.slotPending State.replayList State.slot
    rw [hvshadow]
  have hvnow : v.now = s.gap.clock := by
    show v.gap.clock = _
    rw [hv.sameBlocks.gap]
    obtain ⟨_, _, _, rfl⟩ := hn
    show (State.mapRuntime _ a Runtime.idle).gap.clock = _
    rw [hidle]
  have hflight : ∀ b, v.replayInFlight b = if a = b ∧ isAddress a = true then none else s.replayInFlight b := fun b => by
    refine Eq.trans ?_ (replayInFlight_setReplayInFlight s a b none)
    unfold State.replayInFlight
    rw [hvshadow]
    rfl
  have hnone : isAddress a = false → s.replayInFlight a = none := fun ha => by
    cases hx : s.replayInFlight a with
    | none => rfl
    | some g => rw [isAddress_of_replayInFlight hx] at ha; cases ha
  have hvrun : ∀ b, v.runtime b = (n.mapRuntime a Runtime.idle).runtime b := fun b => hv.runtime b
  have hushadow : (endCommand (offerFirstStep a v)).shadow = v.shadow := by
    rw [hshadow, hf, hoffered]
  have huhold : (endCommand (offerFirstStep a v)).hold = v.hold := by rw [hhold, hf, hoffered]
  refine ⟨⟨?_, ?_, fun b hb => ?_, ?_, fun b hb => ⟨?_, ?_⟩, ?_, ?_, ?_, fun hlost => ?_, fun r hr => ?_,
    (queue_congr huhold a).trans hvq⟩, by rw [hf, hoffered], ?_⟩
  · rw [hseg, hf, hoffered, ← hsegment]
    refine hv.segment.trans ?_
    show (n.mapRuntime a Runtime.idle).segment = _
    rw [hidle]
  · rw [replayInFlight_congr hushadow, hflight]
    split
    · rfl
    · next h => exact hnone (by simpa using h)
  · rw [replayInFlight_congr hushadow, hflight, if_neg fun h => hb h.1.symm]
  · rw [hushadow, hvshadow]
  · rw [runtime_endCommand, hf, runtime_mapRuntime_other v hb, hvrun, runtime_mapRuntime_other n hb, hruntime]
  · rw [queue_congr huhold, queue_congr hv.sameBlocks.hold, queue_setQueue, if_neg fun h => hb h.1.symm]
    obtain ⟨_, _, _, rfl⟩ := hn
    show (State.mapRuntime _ a Runtime.idle).queue b = _
    rw [hidle]
    rfl
  · rw [hstore, hf, hstoreF]
    refine hv.store.trans (hstoreI.trans ?_)
    obtain ⟨_, _, _, rfl⟩ := hn
    rfl
  · rw [hgap, hf, hoffered]
    refine hv.sameBlocks.gap.trans ?_
    obtain ⟨_, _, _, rfl⟩ := hn
    show (State.mapRuntime _ a Runtime.idle).gap = _
    rw [hidle]
  · rw [htables, hf, hoffered]
    refine hv.sameBlocks.tables.trans ?_
    obtain ⟨_, _, _, rfl⟩ := hn
    show (State.mapRuntime _ a Runtime.idle).tables = _
    rw [hidle]
  · have hvnone : v.runtime a = none := by
      rw [hvrun, mapRuntime_of_none ((hruntime a).trans hlost), hruntime, hlost]
    rw [runtime_endCommand, hf, mapRuntime_of_none hvnone, hvnone]
  · have hvsome : v.runtime a = some r.idle := by
      rw [hvrun]
      exact runtime_mapRuntime_same ((hruntime a).trans hr) _
    rw [runtime_endCommand, offerFirstStep_eq hvsome rfl, runtime_setRuntime_same hvsome, hvpending, hvnow, hvq]
    rfl
  · rw [hf, hoffered]
    obtain ⟨_, _, hreport⟩ := hv
    rw [hreport]
    obtain ⟨_, _, _, rfl⟩ := hn
    show (State.mapRuntime _ a Runtime.idle).moment = _
    rw [hidle]

end

theorem eraseIdx_stilled (l : List HoldEntry) (i : Nat) : stilled (l.eraseIdx i) = (stilled l).eraseIdx i :=
  List.eraseIdx_map ..|>.symm

/-- The state's first step, as O55 writes it. -/
theorem firstStep_eq (s : State) (a : Nat) (r : Runtime) {q : List HoldEntry}
    (hq : r.state = .release → ((!q.isEmpty) = false ↔ s.queue a = [])) :
    r.firstStep s.gap.clock (s.hasPending a) (!q.isEmpty) =
      let probe := match r.nextProbe with
        | some x => if reached s.gap.clock x then StepCondition.ready .probe else .waiting
        | none => .ready .probe
      match r.state with
      | .probe => StepCondition.ready .probe
      | .awaitBoot =>
        match r.window with
        | some (_, closes) => if reached s.gap.clock closes then .none else probe
        | none => .none
      | .missing => probe
      | .config => .ready .config
      | .replay => if s.hasPending a then .ready .replay else .none
      | .release => if s.queue a = [] then .none else .ready .release
      | _ => .none := by
  unfold Runtime.firstStep Runtime.firstProbe
  cases hstate : r.state <;> first | rfl | skip
  dsimp only
  cases hempty : (!q.isEmpty) with
  | false => rw [if_pos ((hq hstate).1 hempty)]; rfl
  | true =>
    have hne : s.queue a ≠ [] := fun h => absurd (((hq hstate).2 h).symm.trans hempty) nofun
    rw [if_neg hne]
    rfl

/-- Settles O55: the mark of the entry in flight goes, the entry expires where its time has passed, and the state offers its
first step. -/
theorem orphanedStepsEndWithoutEffect : Obligations.OrphanedStepsEndWithoutEffect := by
  intro s a t c m ht hends horphaned now due calm first ends
  obtain ⟨res, n, hexec, hn, hsegment, htrunk⟩ := exec_orphaned ht hends
  have hruntime : n.runtime a = s.runtime a := by
    obtain ⟨_, _, _, rfl⟩ := hn
    rfl
  rw [stepEnded_orphaned (by rw [hruntime]; exact horphaned)] at hexec
  let b : State := n.mapRuntime a Runtime.idle
  obtain ⟨x, y, hb⟩ := onlyTransfers_mapRuntime n a Runtime.idle
  have hbq : b.queue a = s.queue a := by
    obtain ⟨_, _, _, rfl⟩ := hn
    show (State.mapRuntime _ a Runtime.idle).queue a = _
    rw [hb]
    rfl
  have hbnow : b.now = now := by
    obtain ⟨_, _, _, rfl⟩ := hn
    show (State.mapRuntime _ a Runtime.idle).now = _
    rw [hb]
    rfl
  have hbtrunk : b.trunk = n.trunk := by
    show (State.mapRuntime _ a Runtime.idle).trunk = _
    rw [hb]
  have hdue : ∀ h : HoldEntry, due h ↔ h.expired now = true := fun h => by
    show (∃ x, h.expiry = some x ∧ reached now x = true) ↔ _
    unfold HoldEntry.expired
    cases h.expiry <;> simp
  have hfirst : ∀ (r : Runtime) (q : List HoldEntry), (r.state = .release → ((!q.isEmpty) = false ↔ s.queue a = [])) →
      r.firstStep now (s.hasPending a) (!q.isEmpty) = first r := fun r q hq => firstStep_eq s a r hq
  refine ⟨fun hidle => ?_, fun i h hi hflight hh hearlier hstate => ?_⟩
  · have hcleared := clearInFlight_idle (s := b) (a := a) fun h hh hf => by
      rw [hbq] at hh
      rw [hbnow]
      exact Bool.eq_false_iff.2 fun he => hidle h hh hf ((hdue h).2 he)
    rw [hbq] at hcleared
    have hqueue : ((b.setReplayInFlight a none).setQueue a (stilled (s.queue a))).queue a = stilled (s.queue a) := by
      by_cases hempty : s.queue a = []
      · rw [queue_setQueue]
        split
        · rfl
        · rw [hempty]; exact hbq.trans hempty
      · exact setQueue_stilled_queue (by show b.queue a ≠ []; rw [hbq]; exact hempty) _
    obtain ⟨hended, hlast, hmoment⟩ := orphanEnded (m := m) hn hsegment hqueue (.refl _)
    rw [← hcleared] at hended hlast hmoment
    refine ⟨_, hexec, hended.segment, hended.flight, hended.flights, hended.shadow, hended.others, hended.store, hended.gap,
      hended.tables, hended.lost, fun r hr _ => (hended.step r hr).trans ?_, hended.queue, fun hmask => ?_⟩
    · rw [hfirst r _ fun _ => by simp [stilled]]
    · refine trunk_endCommand (hlast.trans ?_) hmoment
      rw [hcleared]
      exact hbtrunk.trans (htrunk hmask)
  · have hbstate : b.nodeState a ≠ .release := fun hc => by
      unfold State.nodeState at hc hstate
      cases hr : s.runtime a with
      | none =>
        rw [show b.runtime a = none by
          show (n.mapRuntime a Runtime.idle).runtime a = none
          rw [mapRuntime_of_none (hruntime.trans hr), hruntime, hr]] at hc
        cases hc
      | some r =>
        rw [show b.runtime a = some r.idle from runtime_mapRuntime_same (hruntime.trans hr) _] at hc
        rw [hr] at hstate
        exact hstate hc
    have hcleared := clearInFlight_due (s := b) (a := a) (by rw [hbq]; exact hi) hflight
      (by rw [hbnow]; exact (hdue h).1 hh) (by rw [hbq]; exact hearlier) hbstate
    rw [hbq] at hcleared
    have hfull : b.queue a ≠ [] := by
      rw [hbq]
      intro hempty
      rw [hempty] at hi
      cases hi
    have hreports : Reports ((b.setReplayInFlight a none).setQueue a (stilled ((s.queue a).eraseIdx i))) (clearInFlight a b) := by
      rw [hcleared]
      exact reports_makeReport ..
    obtain ⟨hended, hlast, hmoment⟩ := orphanEnded (m := m) hn hsegment (setQueue_stilled_queue hfull _) hreports
    refine ⟨_, hexec, hended.segment, hended.flight, hended.flights, hended.shadow, hended.others, hended.store, hended.gap,
      hended.tables, hended.lost, fun r hr _ => (hended.step r hr).trans ?_, hended.queue, fun htag hmask => ?_,
      fun tag k htag hreservation hk => ?_⟩
    · rw [hfirst r _ fun hc => absurd ((nodeState_of_runtime hr).trans hc) hstate]
    · refine trunk_endCommand (hlast.trans ?_) hmoment
      rw [hcleared, makeReport]
      dsimp only
      rw [htag]
      exact hbtrunk.trans (htrunk hmask)
    · refine State.Shows.endCommand (.inl ?_)
      rw [hlast, hcleared, makeReport]
      dsimp only
      rw [htag]
      dsimp only
      rw [hreservation]
      exact egress_enqueue_self hk _

end Sys2Proof.Machine
end

section
/-! SUPPORT. The results of config, replay and release steps (R47 to R52, R119 to R122, R134 to R138). -/

namespace Sys2Proof.Machine

/-! ### Where a restore goes on (R42, R47) -/

section
variable {s m : State} {a : Nat} {r : Runtime} {t : Transaction} {c : Instr} {v : Reply}

/-- Entry to PROBE of a node that is not ONLINE writes one record. -/
theorem enterProbe_of_absent (hr : s.runtime a = some r) (hstate : r.state ≠ .online) :
    enterProbe a s = s.setRuntime a (some r.probing) := by
  unfold enterProbe
  dsimp only
  rw [if_neg fun h => hstate ((nodeState_of_runtime hr).symm.trans h), mapRuntime_of_runtime hr]
  rfl

/-- The record of a node that a restore leaves in this state. -/
def Runtime.onwards (r : Runtime) : NodeState → Runtime
  | .replay => { r.move .replay with misses := 0, step := r.step.offer .replay }
  | .release => { r.move .release with misses := 0, step := r.step.offer .release }
  | _ =>
    { r.move .online with
      noReply := 0, step := r.step.cancel, attempts := if r.state.endsRestore then 0 else r.attempts
      restores := if r.state.endsRestore then r.restores + 1 else r.restores }

/-- The onward choice writes one record, and gives a notice for ONLINE. -/
theorem onward_reports (hr : s.runtime a = some r) :
    Reports (s.setRuntime a (some (r.onwards (s.onwardState a)))) (onward a s) := by
  unfold onward State.onwardState
  by_cases hpending : s.hasPending a = true
  · rw [if_pos hpending, if_pos hpending, enterReplay, mapRuntime_of_runtime hr]
    exact .refl _
  · rw [if_neg hpending, if_neg hpending]
    cases hqueue : s.queue a with
    | nil =>
      show Reports (s.setRuntime a (some (r.onwards .online))) (enterOnline a s)
      unfold enterOnline
      dsimp only
      rw [mapRuntime_of_runtime hr]
      exact reports_offerNodeState a .online _
    | cons e l =>
      show Reports (s.setRuntime a (some (r.onwards .release))) (enterRelease a s)
      rw [enterRelease, mapRuntime_of_runtime hr]
      exact .refl _

theorem keepsFrames_offerNodeState (a : Nat) (st : NodeState) (s : State) : KeepsFrames s (offerNodeState a st s) := by
  unfold offerNodeState
  split
  · exact keepsFrames_offerFrame _ s
  · exact .of_egress rfl

theorem keepsFrames_mapRuntime (s : State) (a : Nat) (g : Runtime → Runtime) : KeepsFrames s (s.mapRuntime a g) := by
  obtain ⟨x, y, h⟩ := onlyTransfers_mapRuntime s a g
  rw [h]
  exact .of_egress rfl

theorem keepsFrames_onward (a : Nat) (s : State) : KeepsFrames s (onward a s) := by
  unfold onward
  split
  · exact keepsFrames_mapRuntime s a _
  · split
    · exact keepsFrames_mapRuntime s a _
    · exact (keepsFrames_mapRuntime s a _).trans (keepsFrames_offerNodeState a .online _)

/-- A miss below the limit counts, and asks again. -/
theorem stepMiss_again (hr : s.runtime a = some r) (hretry : r.misses + 1 ≤ s.params.stepRetries) (again : State → State) :
    stepMiss a again s = again (s.setRuntime a (some { r with misses := r.misses + 1 })) := by
  unfold stepMiss
  rw [hr]
  dsimp only
  rw [if_pos hretry, mapRuntime_of_runtime hr]

/-- A miss above the limit leaves for PROBE. -/
theorem stepMiss_spent (hr : s.runtime a = some r) (hstate : r.state ≠ .online) (hspent : s.params.stepRetries < r.misses + 1)
    (again : State → State) : stepMiss a again s = s.setRuntime a (some r.probing) := by
  unfold stepMiss
  rw [hr]
  dsimp only
  rw [if_neg (Nat.not_le.2 hspent), mapRuntime_of_runtime hr,
    enterProbe_of_absent (runtime_setRuntime_same hr (some { r with misses := r.misses + 1 })) hstate, setRuntime_setRuntime]
  rfl

/-- The state in which the result of a reply to a step is used. -/
def State.stepDone (s : State) (a : Nat) (r : Runtime) : State := s.lineFree.setRuntime a (some r.idle)

/-- What a reply to a restore step in flight leaves at the end of its command. -/
theorem State.CollectsStep.exec_step (h : s.CollectsStep a w) {k : StepKind} (hr : s.runtime a = some r)
    (hstep : r.step = .inFlight k) (hlength : v.payload.length ≤ 64) (hkind : replyKindFits w v.kind = true)
    (hpayload : payloadFits v.kind v.payload = true) :
    exec (.replyReceived (replyChars a v)) s =
      .next (endCommand (applyStep a k (.valid v) (s.stepDone a r))) := by
  rw [h.exec_replyReceived hlength hkind hpayload, stepEnded_of_inFlight (s := s.lineFree) hr hstep]
  rfl

/-- What a miss of a restore step in flight leaves at the end of its command. -/
theorem State.Misses.exec_step (h : s.Misses t c m) (ht : t.carries = .step a) {k : StepKind} (hr : s.runtime a = some r)
    (hstep : r.step = .inFlight k) :
    ∃ res, (res = .timeout ∨ res = .badCheck)
      ∧ exec c s = .next (endCommand (applyStep a k res (m.setRuntime a (some r.idle))))
      ∧ (m.setRuntime a (some r.idle)).runtime a = some r.idle := by
  obtain ⟨res, hres, hexec⟩ := h.exec_eq
  have hrm : m.runtime a = some r := (h.missed.runtime a).trans hr
  rw [endedWith_step ht hrm hstep] at hexec
  exact ⟨res, hres, hexec, runtime_setRuntime_same hrm _⟩

/-! ### Config steps (R49, R50) -/

theorem configResult_changed (hr : s.runtime a = some r) (hstate : r.state ≠ .online) {b : Byte}
    (hcount : r.bootCount = some b) (hb : b ≠ v.marker) :
    configResult a (.valid v) s = s.setRuntime a (some r.probing) := by
  unfold configResult
  dsimp only
  rw [markerChanged_of_ne hr hcount hb, if_pos rfl, enterProbe_of_absent hr hstate]

theorem configResult_accept (hr : s.runtime a = some r) (hcount : r.bootCount = none ∨ r.bootCount = some v.marker)
    (hkind : v.kind = .accept) : configResult a (.valid v) s = onward a s := by
  unfold configResult
  dsimp only
  rw [markerChanged_of_runtime hr hcount, if_neg nofun, hkind]

theorem configResult_refuse (hr : s.runtime a = some r) (hcount : r.bootCount = none ∨ r.bootCount = some v.marker)
    (hkind : v.kind = .refuse) : configResult a (.valid v) s = enterFailed a s := by
  unfold configResult
  dsimp only
  rw [markerChanged_of_runtime hr hcount, if_neg nofun, hkind]

theorem configResult_missed {res : Result} (hres : res = .timeout ∨ res = .badCheck) (s : State) :
    configResult a res s = stepMiss a (offerKind a .config) s := by
  obtain rfl | rfl := hres <;> rfl

/-! ### Replay steps (R120, R121) -/

theorem replayResult_missed {res : Result} (hres : res = .timeout ∨ res = .badCheck) (s : State) :
    replayResult a res s = stepMiss a (replayOn a) (s.setReplayInFlight a none) := by
  obtain rfl | rfl := hres <;> rfl

theorem replayOn_pending (hr : s.runtime a = some r) (hstep : r.step = .none) (hpending : s.hasPending a = true) :
    replayOn a s = s.setRuntime a (some { r with step := .ready .replay }) := by
  unfold replayOn
  rw [if_pos hpending, offerKind, mapRuntime_of_runtime hr, hstep]
  rfl

theorem replayOn_done (hpending : s.hasPending a = false) : replayOn a s = onward a s := by
  unfold replayOn
  rw [hpending, if_neg nofun]

/-- The slot that a reply to its replay leaves. -/
def ReplayInFlight.replayed (f : ReplayInFlight) (q : ShadowRecord) : ShadowRecord :=
  if f.replaced then q else { q with marked := false }

theorem slot_clearReplayed {f : ReplayInFlight} {q : ShadowRecord} (hf : s.replayInFlight a = some f)
    (hq : s.slot f.slot = some q) (i : Nat) :
    (clearReplayed a s).slot i = if i = f.slot then some (f.replayed q) else s.slot i := by
  unfold clearReplayed ReplayInFlight.replayed
  rw [hf]
  dsimp only
  rw [hq]
  dsimp only
  split
  · split
    · next h => rw [h, hq]
    · rfl
  · rw [slot_setSlot hq]
    by_cases h : f.slot = i
    · rw [if_pos h, if_pos h.symm]
    · rw [if_neg h, if_neg fun hi => h hi.symm]

/-- The record once a reply to a replay step has been counted. -/
def Runtime.replayed (r : Runtime) (k : ReplyKind) : Runtime :=
  { r with misses := 0, refusals := if k = .refuse then r.refusals + 1 else r.refusals }

theorem replayResult_valid (hr : s.runtime a = some r) :
    replayResult a (.valid v) s =
      let u := ((clearReplayed a s).setReplayInFlight a none).setRuntime a (some (r.replayed v.kind))
      if u.markerChanged a v.marker then enterProbe a u else replayOn a u := by
  have hrun : ((clearReplayed a s).setReplayInFlight a none).runtime a = some r := by
    obtain ⟨x, hx⟩ := clearReplayed_only a s
    rw [hx]
    exact hr
  unfold replayResult
  dsimp only
  rw [mapRuntime_of_runtime hrun]
  rfl

end

/-! ### Release steps (R136, R137) -/

section
variable {s : State} {a : Nat} {r : Runtime} {h : HoldEntry} {l : List HoldEntry} {v : Reply}

/-- The report of an entry: none without a tag, else into its reservation. -/
theorem makeReport_reserved (h : HoldEntry) (code : AnswerCode) (rest : List Byte) (s : State) :
    (h.tag = none → makeReport h code rest s = s)
      ∧ ∀ tag i, h.tag = some tag → h.reservation = some i →
          makeReport h code rest s = s.fills i { kind := 0x43, tag := tag, outcome := code.code, body := u8 h.node :: rest } := by
  unfold makeReport
  refine ⟨fun htag => by rw [htag], fun tag i htag hi => ?_⟩
  rw [htag]
  dsimp only
  rw [hi]
  rfl

/-- The record once a reply to a release step has been counted. -/
def Runtime.released (r : Runtime) : Runtime := { r with step := .none, misses := 0 }

/-- Where a node goes on once the head of its queue has been delivered. -/
def releaseOn (a : Nat) (marker : Byte) (l : List HoldEntry) (s : State) : State :=
  if s.markerChanged a marker then enterProbe a s else if !l.isEmpty then offerKind a .release s else onward a s

theorem releaseResult_valid (hr : s.runtime a = some r) (hstep : r.step = .none) (hq : s.queue a = h :: l) :
    releaseResult a (.valid v) s = releaseOn a v.marker l
      (((captureReleased a h v.kind (makeReport h .delivered (replyBytes v) s)).setQueue a l).setRuntime a (some r.released)) := by
  have hstores : Stores s (captureReleased a h v.kind (makeReport h .delivered (replyBytes v) s)) := by
    refine (reports_makeReport h .delivered (replyBytes v) s).stores.trans ?_
    unfold captureReleased
    split
    · split
      · exact stores_captureDelivered ..
      · exact .refl _
    · exact .refl _
  have hrun : ((captureReleased a h v.kind (makeReport h .delivered (replyBytes v) s)).setQueue a l).runtime a = some r :=
    (hstores.runtime a).trans hr
  unfold releaseResult releaseOn
  rw [hq]
  dsimp only
  rw [mapRuntime_of_runtime hrun]
  unfold Runtime.released
  rw [← hstep]

theorem releaseOn_changed (hr : s.runtime a = some r) (hstate : r.state ≠ .online) {b marker : Byte}
    (hcount : r.bootCount = some b) (hb : b ≠ marker) (l : List HoldEntry) :
    releaseOn a marker l s = s.setRuntime a (some r.probing) := by
  unfold releaseOn
  rw [markerChanged_of_ne hr hcount hb, if_pos rfl, enterProbe_of_absent hr hstate]

theorem releaseOn_more (hr : s.runtime a = some r) (hstep : r.step = .none) {marker : Byte}
    (hcount : r.bootCount = none ∨ r.bootCount = some marker) (hl : l ≠ []) :
    releaseOn a marker l s = s.setRuntime a (some { r with step := .ready .release }) := by
  unfold releaseOn
  rw [markerChanged_of_runtime hr hcount, if_neg nofun, if_pos (by simpa using hl), offerKind, mapRuntime_of_runtime hr, hstep]
  rfl

theorem releaseOn_done (hr : s.runtime a = some r) {marker : Byte}
    (hcount : r.bootCount = none ∨ r.bootCount = some marker) : releaseOn a marker [] s = onward a s := by
  unfold releaseOn
  rw [markerChanged_of_runtime hr hcount, if_neg nofun]
  rfl

/-- Where the node goes on, its stored frames and held frames stay. -/
theorem sameBlocks_releaseOn (hr : s.runtime a = some r) (hstate : r.state ≠ .online) (marker : Byte) (l : List HoldEntry) :
    SameBlocks s (releaseOn a marker l s) := by
  unfold releaseOn
  split
  · rw [enterProbe_of_absent hr hstate]; exact ⟨rfl, rfl, rfl, rfl⟩
  · split
    · exact sameBlocks_mapRuntime s a _
    · exact SameBlocks.trans (t := s.setRuntime a (some (r.onwards (s.onwardState a)))) ⟨rfl, rfl, rfl, rfl⟩
        (onward_reports hr).sameBlocks

theorem captureReleased_nothing (hslot : h.slot = none) (k : ReplyKind) (s : State) : captureReleased a h k s = s := by
  unfold captureReleased; rw [hslot]

/-- The slot that a delivered frame names: the frame without the mark, unless the node refused it or the slot is pending. -/
theorem slot_captureReleased {n : NodeEntry} (hn : s.entry a = some n) {k : Nat} (hslot : h.slot = some k)
    (hk : k < n.shadowCount) (hpool : n.shadowBase + k < 96) {kind : ReplyKind}
    (hkind : kind = .accept ∨ kind = .refuse ∨ kind = .answer) (j : Nat) :
    (captureReleased a h kind s).slot j =
      if j ≠ n.shadowBase + k ∨ kind = .refuse ∨ s.slotPending (n.shadowBase + k) = true then s.slot j
      else some { node := a, relative := k, rule := h.rule, policy := h.policy, kind := h.kind, function := h.function
                  payload := h.payload, marked := false } := by
  unfold captureReleased
  rw [hslot]
  dsimp only
  by_cases hrefuse : kind = .refuse
  · rw [hrefuse, if_neg (c := ReplyKind.refuse.taken = true) (by decide)]
    exact (if_pos (Or.inr (Or.inl rfl))).symm
  · have htaken : kind.taken = true := by
      rcases hkind with h | h | h
      · rw [h]; rfl
      · exact absurd h hrefuse
      · rw [h]; rfl
    rw [htaken, if_pos rfl]
    obtain ⟨hpending, hstored, -⟩ := captureDelivered_spec (k := k) hn (isAddress_of_entry hn)
      { rule := h.rule, policy := h.policy, kind := h.kind, function := h.function, payload := h.payload }
    cases hmark : s.slotPending (n.shadowBase + k) with
    | true => rw [hpending hk hmark, if_pos (.inr (.inr rfl))]
    | false =>
      obtain ⟨hmade, -, hothers, -⟩ := hstored hk hpool hmark
      by_cases hj : j = n.shadowBase + k
      · rw [if_neg (by simp [hj, hrefuse]), hj]
        exact hmade
      · rw [if_pos (.inl hj)]
        exact hothers j hj

theorem hold_captureReleased (a : Nat) (h : HoldEntry) (k : ReplyKind) (s : State) : (captureReleased a h k s).hold = s.hold := by
  unfold captureReleased
  split
  · split
    · exact hold_captureDelivered ..
    · rfl
  · rfl

theorem releaseResult_again (hr : s.runtime a = some r) (hstep : r.step = .none) (hq : s.queue a = h :: l) {res : Result}
    (hres : res = .timeout ∨ res = .badCheck) (hretry : r.misses + 1 ≤ s.params.passRetries) :
    releaseResult a res s = (s.setQueue a ({ h with inFlight := false } :: l)).setRuntime a
      (some { r with misses := r.misses + 1, step := .ready .release }) := by
  have hnext : releaseResult a res s = offerKind a .release
      ((s.mapRuntime a (fun r => { r with misses := r.misses + 1 })).setQueue a ({ h with inFlight := false } :: l)) := by
    unfold releaseResult
    rw [hq]
    obtain rfl | rfl := hres
    · dsimp only; rw [hr]; exact if_pos hretry
    · dsimp only; rw [hr]; exact if_pos hretry
  have hone : ((s.setRuntime a (some { r with misses := r.misses + 1 })).setQueue a ({ h with inFlight := false } :: l)).runtime a =
      some { r with misses := r.misses + 1 } := runtime_setRuntime_same hr _
  rw [hnext, mapRuntime_of_runtime hr, offerKind, mapRuntime_of_runtime hone, hstep]
  exact setRuntime_setRuntime (s.setQueue a _) a _ _

theorem releaseResult_spent (hr : s.runtime a = some r) (hstate : r.state ≠ .online) (hq : s.queue a = h :: l) {res : Result}
    (hres : res = .timeout ∨ res = .badCheck) (hspent : s.params.passRetries < r.misses + 1) :
    releaseResult a res s = ((makeReport h .noReply [] (s.setRuntime a (some { r with misses := r.misses + 1 }))).setQueue a l).setRuntime a
      (some r.probing) := by
  have hnext : releaseResult a res s = enterProbe a
      ((makeReport h .noReply [] (s.mapRuntime a (fun r => { r with misses := r.misses + 1 }))).setQueue a l) := by
    unfold releaseResult
    rw [hq]
    obtain rfl | rfl := hres
    · dsimp only; rw [hr]; exact if_neg (Nat.not_le.2 hspent)
    · dsimp only; rw [hr]; exact if_neg (Nat.not_le.2 hspent)
  rw [hnext, mapRuntime_of_runtime hr]
  have hreports := reports_makeReport h .noReply [] (s.setRuntime a (some { r with misses := r.misses + 1 }))
  have hone : ((makeReport h .noReply [] (s.setRuntime a (some { r with misses := r.misses + 1 }))).setQueue a l).runtime a =
      some { r with misses := r.misses + 1 } := (hreports.runtime a).trans (runtime_setRuntime_same hr _)
  rw [enterProbe_of_absent hone hstate]
  rfl

end

/-! ### Replies that fit a step (R6) -/

section
variable {s m u : State} {a : Nat} {r : Runtime} {c : Instr} {v : Reply} {t : Transaction} {h : HoldEntry} {l : List HoldEntry}

theorem commandReply_fits {w : SegmentKind} (hw : w = .command ∨ w = .query)
    (h : (v.kind = .accept ∧ v.payload = [] ∧ w = .command) ∨ (v.kind = .refuse ∧ v.payload.length = 1)
      ∨ (v.kind = .answer ∧ v.payload.length ≤ 64)) :
    v.payload.length ≤ 64 ∧ replyKindFits w v.kind = true ∧ payloadFits v.kind v.payload = true := by
  rcases h with ⟨hk, hp, rfl⟩ | ⟨hk, hp⟩ | ⟨hk, hp⟩
  · rw [hk, hp]; exact ⟨Nat.zero_le _, rfl, rfl⟩
  · rw [hk]; refine ⟨by omega, ?_, by simpa [payloadFits] using hp⟩
    obtain rfl | rfl := hw <;> rfl
  · rw [hk]; refine ⟨hp, ?_, by simpa [payloadFits] using hp⟩
    obtain rfl | rfl := hw <;> rfl

theorem configReply_fits (h : (v.kind = .accept ∧ v.payload = []) ∨ (v.kind = .refuse ∧ v.payload.length = 1)) :
    v.payload.length ≤ 64 ∧ replyKindFits .config v.kind = true ∧ payloadFits v.kind v.payload = true := by
  rcases h with ⟨hk, hp⟩ | ⟨hk, hp⟩
  · rw [hk, hp]; exact ⟨Nat.zero_le _, rfl, rfl⟩
  · rw [hk]; exact ⟨by omega, rfl, by simpa [payloadFits] using hp⟩

theorem hasPending_congr (hslots : u.shadow.slots = s.shadow.slots) (hlists : u.shadow.lists = s.shadow.lists) (a : Nat) :
    u.hasPending a = s.hasPending a := by
  unfold State.hasPending State.pendingSlots State.slotPending State.replayList State.slot
  rw [hslots, hlists]

theorem Missed.shadow (h : Missed s c m) : m.shadow = s.shadow := by
  obtain ⟨_, _, _, rfl⟩ := h.frame
  rfl

theorem Missed.hold (h : Missed s c m) : m.hold = s.hold := by
  obtain ⟨_, _, _, rfl⟩ := h.frame
  rfl

/-! ### What the misses of a step leave (R121, R137) -/

/-- The record of a step that is asked again. -/
def Runtime.counted (r : Runtime) (k : StepKind) : Runtime := { r with misses := r.misses + 1, step := .ready k }

theorem missedReplay (hm : s.Misses t c m) (ht : t.carries = .step a) (hr : s.runtime a = some r)
    (hstep : r.step = .inFlight .replay) (hstate : r.state = .replay) :
    (s.hasPending a = true → r.misses + 1 ≤ s.params.stepRetries →
        exec c s = .next (endCommand ((m.setReplayInFlight a none).setRuntime a (some (r.counted .replay)))))
      ∧ (s.hasPending a = false → r.misses + 1 ≤ s.params.stepRetries →
          ∃ u, exec c s = .next u ∧ u.shadow.slots = s.shadow.slots
            ∧ u.nodeState a = (if s.queue a = [] then .online else .release))
      ∧ (s.params.stepRetries < r.misses + 1 →
          exec c s = .next (endCommand ((m.setReplayInFlight a none).setRuntime a (some r.idle.probing)))) := by
  obtain ⟨res, hres, hexec, hidle⟩ := hm.exec_step ht hr hstep
  have happly : applyStep a .replay res (m.setRuntime a (some r.idle)) =
      stepMiss a (replayOn a) ((m.setReplayInFlight a none).setRuntime a (some r.idle)) := replayResult_missed hres _
  have hrun : ((m.setReplayInFlight a none).setRuntime a (some r.idle)).runtime a = some r.idle := hidle
  have hparams : m.params = s.params := hm.missed.params
  have hpending : ∀ x, ((m.setReplayInFlight a none).setRuntime a x).hasPending a = s.hasPending a := fun x =>
    hasPending_congr (congrArg ShadowStore.slots hm.missed.shadow) (congrArg ShadowStore.lists hm.missed.shadow) a
  have hcounted : ((m.setReplayInFlight a none).setRuntime a (some { r.idle with misses := r.misses + 1 })).runtime a =
      some { r.idle with misses := r.misses + 1 } :=
    runtime_setRuntime_same (s := m.setReplayInFlight a none) ((hm.missed.runtime a).trans hr) _
  rw [happly] at hexec
  have hagain : r.misses + 1 ≤ s.params.stepRetries → exec c s = .next (endCommand (replayOn a
      ((m.setReplayInFlight a none).setRuntime a (some { r.idle with misses := r.misses + 1 })))) := fun hretry => by
    rw [hexec, stepMiss_again hrun (by rw [← hparams] at hretry; exact hretry), setRuntime_setRuntime]
    rfl
  refine ⟨fun hp hretry => ?_, fun hp hretry => ?_, fun hspent => ?_⟩
  · rw [hagain hretry, replayOn_pending hcounted rfl ((hpending _).trans hp), setRuntime_setRuntime]
    rfl
  · refine ⟨_, hagain hretry, ?_, ?_⟩
    all_goals
      rw [replayOn_done ((hpending _).trans hp)]
      have hblocks := (onward_reports hcounted).sameBlocks
    · obtain ⟨-, -, -, -, hshadow, -, -, -⟩ := endCommand_blocks (onward a
        ((m.setReplayInFlight a none).setRuntime a (some { r.idle with misses := r.misses + 1 })))
      rw [hshadow, hblocks.shadow]
      exact (show m.shadow.slots = s.shadow.slots by rw [hm.missed.shadow])
    · have hqueue : ∀ x, ((m.setReplayInFlight a none).setRuntime a x).queue a = s.queue a := fun x =>
        queue_congr hm.missed.hold a
      rw [nodeState_endCommand, nodeState_of_runtime
        ((onward_reports hcounted).runtime a |>.trans (runtime_setRuntime_same hcounted _))]
      unfold State.onwardState
      rw [hpending, hp, if_neg nofun, hqueue]
      split <;> rfl
  · rw [hexec, stepMiss_spent hrun (by rw [Runtime.idle, hstate]; exact nofun) (by rw [← hparams] at hspent; exact hspent),
      setRuntime_setRuntime]

theorem missedRelease (hm : s.Misses t c m) (ht : t.carries = .step a) (hr : s.runtime a = some r)
    (hstep : r.step = .inFlight .release) (hstate : r.state = .release) (hq : s.queue a = h :: l) :
    (r.misses + 1 ≤ s.params.passRetries →
        exec c s =
          .next (endCommand ((m.setQueue a ({ h with inFlight := false } :: l)).setRuntime a (some (r.counted .release)))))
      ∧ (s.params.passRetries < r.misses + 1 → h.tag = none →
          exec c s = .next (endCommand ((m.setQueue a l).setRuntime a (some r.idle.probing))))
      ∧ (∀ tag i, s.params.passRetries < r.misses + 1 → h.tag = some tag → h.reservation = some i →
          exec c s = .next (endCommand (((m.setQueue a l).setRuntime a (some r.idle.probing)).fills i
            { kind := 0x43, tag := tag, outcome := 0x07, body := [u8 h.node] }))) := by
  obtain ⟨res, hres, hexec, hidle⟩ := hm.exec_step ht hr hstep
  have hqueue : (m.setRuntime a (some r.idle)).queue a = h :: l := (queue_congr hm.missed.hold a).trans hq
  have hparams : (m.setRuntime a (some r.idle)).params = s.params := hm.missed.params
  have hspent : s.params.passRetries < r.misses + 1 → exec c s = .next (endCommand
      ((makeReport h .noReply [] (m.setRuntime a (some { r.idle with misses := r.misses + 1 }))).setQueue a l |>.setRuntime a
        (some r.idle.probing))) := fun hgone => by
    rw [hexec, show applyStep a .release res _ = releaseResult a res _ from rfl,
      releaseResult_spent hidle (by rw [Runtime.idle, hstate]; exact nofun) hqueue hres (by rw [hparams]; exact hgone),
      setRuntime_setRuntime]
    rfl
  obtain ⟨hsilent, hreported⟩ :=
    makeReport_reserved h .noReply [] (m.setRuntime a (some { r.idle with misses := r.misses + 1 }))
  refine ⟨fun hretry => ?_, fun hgone htag => ?_, fun tag i hgone htag hi => ?_⟩
  · rw [hexec, show applyStep a .release res _ = releaseResult a res _ from rfl,
      releaseResult_again hidle rfl hqueue hres (by rw [hparams]; exact hretry)]
    exact congrArg (fun u => Host.Outcome.next (endCommand u)) (setRuntime_setRuntime (m.setQueue a _) a _ _)
  · rw [hspent hgone, hsilent htag]
    exact congrArg (fun u => Host.Outcome.next (endCommand u)) (setRuntime_setRuntime (m.setQueue a l) a _ _)
  · rw [hspent hgone, hreported tag i htag hi]
    exact congrArg (fun u => Host.Outcome.next (endCommand (State.fills u i _))) (setRuntime_setRuntime (m.setQueue a l) a _ _)

/-! ### What the replies to a step leave -/

theorem runtime_stepDone (hr : s.runtime a = some r) : (s.stepDone a r).runtime a = some r.idle :=
  runtime_setRuntime_same (s := s.lineFree) hr _

theorem probing_idle_of_release {st : NodeState} (hst : st = .replay ∨ st = .release) (hstate : r.state = st) :
    r.idle.probing = { r with state := .probe, window := none, nextProbe := none, phase := none, misses := 0
                              step := .ready .probe } := by
  have hcount : r.idle.countOnDoubt = r.bootCount := by
    unfold Runtime.countOnDoubt Runtime.idle
    dsimp only
    rw [hstate]
    obtain rfl | rfl := hst <;> rfl
  unfold Runtime.probing
  rw [hcount]
  rfl

theorem probing_idle_of_config (hstate : r.state = .config) :
    r.idle.probing = { r with state := .probe, window := none, nextProbe := none, phase := none, misses := 0
                              bootCount := none, step := .ready .probe } := by
  have hcount : r.idle.countOnDoubt = none := by
    unfold Runtime.countOnDoubt Runtime.idle
    dsimp only
    rw [hstate]
  unfold Runtime.probing
  rw [hcount]
  rfl

end

section
variable {s : State} {a : Nat} {r : Runtime} {v : Reply} {h : HoldEntry} {l : List HoldEntry}

/-- A reply to a replay step, whatever its marker: the slot is cleared of its mark, and the record counts it. -/
theorem exec_replayReply (hc : s.CollectsStep a .command) (hr : s.runtime a = some r) (hstep : r.step = .inFlight .replay)
    (hv : (v.kind = .accept ∧ v.payload = []) ∨ (v.kind = .refuse ∧ v.payload.length = 1)
      ∨ (v.kind = .answer ∧ v.payload.length ≤ 64)) {f : ReplayInFlight} {q : ShadowRecord}
    (hf : s.replayInFlight a = some f) (hq : s.slot f.slot = some q) :
    ∃ u, exec (.replyReceived (replyChars a v)) s = .next (endCommand
        (if u.markerChanged a v.marker then enterProbe a u else replayOn a u))
      ∧ u.runtime a = some (r.idle.replayed v.kind) ∧ u.segment.line = .free ∧ u.hold = s.hold
      ∧ u.replayInFlight a = none ∧ u.shadow.lists = s.shadow.lists
      ∧ ∀ i, u.slot i = if i = f.slot then some (f.replayed q) else s.slot i := by
  obtain ⟨hlength, hkind, hpayload⟩ := commandReply_fits (v := v) (.inl rfl) (by
    rcases hv with ⟨hk, hp⟩ | hv
    · exact .inl ⟨hk, hp, rfl⟩
    · exact .inr hv)
  have hidle := runtime_stepDone hr
  have hexec := hc.exec_step hr hstep hlength hkind hpayload
  rw [show applyStep a .replay (.valid v) _ = replayResult a (.valid v) (s.stepDone a r) from rfl,
    replayResult_valid hidle] at hexec
  have hslots : ∀ i, (clearReplayed a (s.stepDone a r)).slot i = if i = f.slot then some (f.replayed q) else s.slot i :=
    slot_clearReplayed (s := s.stepDone a r) hf hq
  obtain ⟨x, hx⟩ : ∃ x, clearReplayed a (s.stepDone a r) = (s.stepDone a r).withShadow x ∧ x.lists = s.shadow.lists := by
    unfold clearReplayed
    rw [show (s.stepDone a r).replayInFlight a = some f from hf]
    dsimp only
    rw [show (s.stepDone a r).slot f.slot = some q from hq]
    dsimp only
    split
    · exact ⟨_, rfl, rfl⟩
    · exact ⟨_, rfl, rfl⟩
  obtain ⟨hx, hlists⟩ := hx
  have ha := isAddress_of_runtime hr
  refine ⟨_, hexec, ?_, ?_, ?_, ?_, ?_, fun i => ?_⟩
  · rw [hx]
    exact runtime_setRuntime_same (s := ((s.stepDone a r).withShadow x).setReplayInFlight a none) hidle _
  · rw [hx]; rfl
  · rw [hx]; rfl
  · exact (replayInFlight_setReplayInFlight (clearReplayed a (s.stepDone a r)) a a none).trans (if_pos ⟨rfl, ha⟩)
  · rw [hx]; exact hlists
  · exact hslots i

/-- A valid reply to a release step. -/
theorem exec_releaseReply (hc : s.CollectsStep a (if h.kind = .query then .query else .command)) (hr : s.runtime a = some r)
    (hstep : r.step = .inFlight .release) (hq : s.queue a = h :: l)
    (hv : (v.kind = .accept ∧ v.payload = [] ∧ h.kind ≠ .query) ∨ (v.kind = .refuse ∧ v.payload.length = 1)
      ∨ (v.kind = .answer ∧ v.payload.length ≤ 64)) :
    exec (.replyReceived (replyChars a v)) s = .next (endCommand (releaseOn a v.marker l
      (((captureReleased a h v.kind (makeReport h .delivered (replyBytes v) (s.stepDone a r))).setQueue a l).setRuntime a
        (some r.idle.released)))) := by
  obtain ⟨hlength, hkind, hpayload⟩ := commandReply_fits (v := v) (w := if h.kind = .query then .query else .command)
    (by split; · exact .inr rfl
        · exact .inl rfl) (by
    rcases hv with ⟨hk, hp, hquery⟩ | hv
    · exact .inl ⟨hk, hp, if_neg hquery⟩
    · exact .inr hv)
  have hidle := runtime_stepDone hr
  rw [hc.exec_step hr hstep hlength hkind hpayload, show applyStep a .release (.valid v) _ =
    releaseResult a (.valid v) (s.stepDone a r) from rfl, releaseResult_valid hidle rfl hq]

/-- The state in which a release goes on, its entry gone: the record has no step, and the report is made. -/
theorem released_facts (hr : s.runtime a = some r) :
    let u := ((captureReleased a h v.kind (makeReport h .delivered (replyBytes v) (s.stepDone a r))).setQueue a l).setRuntime a
      (some r.idle.released)
    u.runtime a = some r.idle.released ∧ u.queue a = l ∧ u.segment.line = .free
      ∧ u.shadow = (captureReleased a h v.kind (makeReport h .delivered (replyBytes v) (s.stepDone a r))).shadow := by
  intro u
  have hstores : Stores (s.stepDone a r) (captureReleased a h v.kind (makeReport h .delivered (replyBytes v) (s.stepDone a r))) :=
    (reports_makeReport ..).stores.trans (stores_captureReleased ..)
  have hrun : ((captureReleased a h v.kind (makeReport h .delivered (replyBytes v) (s.stepDone a r))).setQueue a l).runtime a =
      some r.idle := (hstores.runtime a).trans (runtime_stepDone hr)
  refine ⟨runtime_setRuntime_same hrun _, queue_setQueue_self (isAddress_of_runtime hr) _ l, ?_, rfl⟩
  obtain ⟨_, _, _, _, hx⟩ := hstores
  show (captureReleased a h v.kind (makeReport h .delivered (replyBytes v) (s.stepDone a r))).segment.line = _
  rw [hx]
  rfl

end

/-- Settles O60: a miss asks again or leaves for PROBE; a reply is applied, and then its marker is looked at. -/
theorem stepMissesMarkersAndReleaseReplies : Obligations.StepMissesMarkersAndReleaseReplies := by
  intro s a r hr p f missed counted probed receives changed fits
  have ha := isAddress_of_runtime hr
  refine ⟨?_, ?_, ?_, ?_, ?_⟩
  · rintro c m ⟨t, hm, ht, hstep⟩ hstate
    have hprobed : probed r.bootCount = r.idle.probing := (probing_idle_of_release (.inl rfl) hstate).symm
    rw [hprobed]
    exact missedReplay hm ht hr hstep hstate
  · rintro c m h l ⟨t, hm, ht, hstep⟩ hstate hq left
    have hprobed : r.idle.probing = probed r.bootCount := probing_idle_of_release (.inr rfl) hstate
    have hmissed := missedRelease hm ht hr hstep hstate hq
    rw [hprobed] at hmissed
    exact hmissed
  · rintro v hc hstep hstate ⟨b, hcount, hb⟩ hv
    obtain ⟨hlength, hkind, hpayload⟩ := configReply_fits hv
    rw [hc.exec_step hr hstep hlength hkind hpayload, show applyStep a .config (.valid v) _ =
      configResult a (.valid v) (s.stepDone a r) from rfl,
      configResult_changed (runtime_stepDone hr) (by rw [Runtime.idle, hstate]; exact nofun) hcount hb,
      probing_idle_of_config hstate]
    exact congrArg (fun u => Host.Outcome.next (endCommand u)) (setRuntime_setRuntime f a _ _)
  · rintro v g q hc hstep hstate ⟨b, hcount, hb⟩ hv hg hq
    obtain ⟨u, hexec, hrun, -, hhold, hflight, -, hslots⟩ := exec_replayReply hc hr hstep (by
      rcases hv with ⟨hk, hp, -⟩ | hv
      · exact .inl ⟨hk, hp⟩
      · exact .inr hv) hg hq
    rw [if_pos (markerChanged_of_ne hrun hcount hb),
      enterProbe_of_absent hrun (by rw [Runtime.replayed, Runtime.idle, hstate]; exact nofun)] at hexec
    obtain ⟨-, -, -, hhold', hshadow', -, -, -⟩ := endCommand_blocks (u.setRuntime a (some (r.idle.replayed v.kind).probing))
    refine ⟨_, hexec, (replayInFlight_congr hshadow' a).trans hflight, (queue_congr hhold' a).trans (queue_congr hhold a),
      (slot_congr hshadow' g.slot).trans ((hslots g.slot).trans (if_pos rfl)), ?_⟩
    rw [runtime_endCommand, runtime_setRuntime_same hrun]
    have hprobing : (r.idle.replayed v.kind).probing =
        { r.idle.probing with refusals := if v.kind = .refuse then r.refusals + 1 else r.refusals } := rfl
    rw [hprobing, probing_idle_of_release (.inl rfl) hstate]
  · intro v h l hc hstep hstate hq hv next left report
    have hexec := exec_releaseReply hc hr hstep hq hv
    obtain ⟨hrun, hqueue, hline, hshadow⟩ := released_facts (h := h) (l := l) (v := v) hr
    have hstateIdle : r.idle.released.state ≠ .online := by
      rw [Runtime.released, Runtime.idle, hstate]; exact nofun
    obtain ⟨hsilent, hreported⟩ := makeReport_reserved h .delivered (replyBytes v) (s.stepDone a r)
    have hblocks := sameBlocks_releaseOn hrun hstateIdle v.marker l
    refine ⟨fun hslot hon => ?_, fun hempty hsame hslot => ?_, fun n k hn hslot hk hpool => ?_⟩
    · have hrelease : ∀ u : State, u.runtime a = some r.idle.released →
          releaseOn a v.marker l u = u.setRuntime a (some next) := fun u hu => by
        by_cases hsame : r.bootCount = none ∨ r.bootCount = some v.marker
        · have hchanged : ¬ changed v := by
            rintro ⟨b, hb, hne⟩
            rw [hb] at hsame
            rcases hsame with hc | hc
            · cases hc
            · exact hne (Option.some.inj hc)
          rw [releaseOn_more hu rfl hsame (hon.resolve_right hchanged)]
          exact congrArg (fun x => u.setRuntime a (some x)) (if_pos hsame).symm
        · obtain ⟨b, hb⟩ : ∃ b, r.bootCount = some b := Option.ne_none_iff_exists'.1 fun hn => hsame (.inl hn)
          have hne : b ≠ v.marker := fun hbv => hsame (.inr (hbv ▸ hb))
          rw [releaseOn_changed hu hstateIdle hb hne]
          refine congrArg (fun x => u.setRuntime a (some x)) (Eq.trans ?_ (if_neg hsame).symm)
          exact probing_idle_of_release (.inr rfl) hstate
      rw [hrelease _ hrun, setRuntime_setRuntime, captureReleased_nothing hslot] at hexec
      refine ⟨fun htag => ?_, fun tag i htag hi => ?_⟩
      · rw [hexec, hsilent htag]
        exact congrArg (fun u => Host.Outcome.next (endCommand u)) (setRuntime_setRuntime (f.setQueue a l) a _ _)
      · rw [hexec, hreported tag i htag hi]
        exact congrArg (fun u => Host.Outcome.next (endCommand (State.fills u i (report tag))))
          (setRuntime_setRuntime (f.setQueue a l) a _ _)
    · subst hempty
      have hcount : r.idle.released.bootCount = none ∨ r.idle.released.bootCount = some v.marker := by
        cases hb : r.bootCount with
        | none => exact .inl hb
        | some b => exact .inr (hb.trans (congrArg some (by_contra fun hne => hsame ⟨b, hb, hne⟩)))
      rw [releaseOn_done hrun hcount] at hexec hblocks
      rw [captureReleased_nothing hslot] at hexec hblocks hrun hqueue
      obtain ⟨-, -, -, hhold', hshadow', -, -, -⟩ := endCommand_blocks (onward a
        (((makeReport h .delivered (replyBytes v) (s.stepDone a r)).setQueue a []).setRuntime a (some r.idle.released)))
      have hshown : (makeReport h .delivered (replyBytes v) (s.stepDone a r)).shadow = s.shadow :=
        (reports_makeReport ..).sameBlocks.shadow
      refine ⟨_, hexec, (queue_congr (hhold'.trans hblocks.hold) a).trans hqueue,
        hshadow'.trans (hblocks.shadow.trans hshown), ?_, fun tag i htag hi hlt => State.Shows.endCommand (.inl ?_)⟩
      · rw [nodeState_endCommand, nodeState_of_runtime
          ((onward_reports hrun).runtime a |>.trans (runtime_setRuntime_same hrun _)), onwardState_of_empty hqueue]
        rw [hasPending_congr (s := s) (u := ((makeReport h .delivered (replyBytes v) (s.stepDone a r)).setQueue a []).setRuntime a
          (some r.idle.released)) (congrArg ShadowStore.slots hshown) (congrArg ShadowStore.lists hshown)]
        split <;> rfl
      · refine keepsFrames_onward a _ i (report tag) ?_
        rw [hreported tag i htag hi]
        exact egress_enqueue_self (s := s.stepDone a r) hlt _
    · intro i
      have hn' : (makeReport h .delivered (replyBytes v) (s.stepDone a r)).entry a = some n :=
        ((reports_makeReport ..).stores.entry a).trans hn
      have hshown : (makeReport h .delivered (replyBytes v) (s.stepDone a r)).shadow = s.shadow :=
        (reports_makeReport ..).sameBlocks.shadow
      have hslots := slot_captureReleased (h := h) hn' hslot hk hpool (kind := v.kind) (by
        rcases hv with ⟨hk, -⟩ | ⟨hk, -⟩ | ⟨hk, -⟩
        · exact .inl hk
        · exact .inr (.inl hk)
        · exact .inr (.inr hk))
      have hpending : (makeReport h .delivered (replyBytes v) (s.stepDone a r)).slotPending i = s.slotPending i := by
        unfold State.slotPending
        rw [slot_congr hshown]
      obtain ⟨-, -, -, hhold', hshadow', -, -, -⟩ := endCommand_blocks (releaseOn a v.marker l
        (((captureReleased a h v.kind (makeReport h .delivered (replyBytes v) (s.stepDone a r))).setQueue a l).setRuntime a
          (some r.idle.released)))
      have hu := fun j => (slot_congr (hshadow'.trans (hblocks.shadow.trans hshadow)) j).trans (hslots j)
      refine ⟨_, hexec, (queue_congr (hhold'.trans hblocks.hold) a).trans hqueue, fun j hj => ?_, ?_⟩
      · rw [hu, if_pos (.inl hj), slot_congr hshown]
      · rw [hu, slot_congr hshown]
        by_cases hkept : v.kind = .refuse ∨ s.slotPending i = true
        · rw [if_pos hkept, if_pos (hkept.elim (fun h => .inr (.inl h)) fun h => .inr (.inr (hpending.trans h)))]
        · rw [if_neg hkept, if_neg]
          rintro (hne | hrefuse | hmark)
          · exact hne rfl
          · exact hkept (.inl hrefuse)
          · exact hkept (.inr (hpending.symm.trans hmark))

end Sys2Proof.Machine
end

section
/-! SUPPORT. How config, replay and release steps are answered with the count unchanged (R47, R50, R120, R136). -/

namespace Sys2Proof.Machine

section
variable {s u : State} {a : Nat} {r : Runtime} {v : Reply} {h : HoldEntry} {l : List HoldEntry}

/-- The line is FREE at the end of a command in which a reply ended a step. -/
theorem line_applyStep (hr : s.runtime a = some r) {k : StepKind} (hstep : r.step = .inFlight k) (res : Result) :
    (endCommand (applyStep a k res (s.stepDone a r))).segment.line = .free := by
  have hended : applyStep a k res (s.stepDone a r) = stepEnded a res s.lineFree :=
    (stepEnded_of_inFlight (s := s.lineFree) hr hstep res).symm
  rw [hended, (endCommand_blocks _).1]
  exact congrArg Quiet.line (stepEnded_quiet s.lineFree a res)

/-- A config step that is accepted goes on; the slots stay. -/
theorem exec_configAccepted (hc : s.CollectsStep a .config) (hr : s.runtime a = some r) (hstep : r.step = .inFlight .config)
    (hcount : r.bootCount = some v.marker) (hkind : v.kind = .accept) (hpayload : v.payload = []) :
    ∃ u, exec (.replyReceived (replyChars a v)) s = .next u
      ∧ u.runtime a = some (r.idle.onwards (s.onwardState a)) ∧ u.segment.line = .free ∧ u.shadow = s.shadow := by
  obtain ⟨hlength, hfits, hpayload⟩ := configReply_fits (v := v) (.inl ⟨hkind, hpayload⟩)
  have hexec := hc.exec_step hr hstep hlength hfits hpayload
  have hidle := runtime_stepDone hr
  have hon : applyStep a .config (.valid v) (s.stepDone a r) = onward a (s.stepDone a r) :=
    configResult_accept hidle (.inr hcount) hkind
  have hline := line_applyStep hr hstep (.valid v)
  rw [hon] at hexec hline
  have hreports := onward_reports hidle
  refine ⟨_, hexec, ?_, hline, ?_⟩
  · rw [runtime_endCommand]
    exact (hreports.runtime a).trans (runtime_setRuntime_same hidle _)
  · exact (endCommand_blocks _).2.2.2.2.1.trans hreports.sameBlocks.shadow

/-- A config step that is refused leaves the node FAILED. -/
theorem exec_configRefused (hc : s.CollectsStep a .config) (hr : s.runtime a = some r) (hstep : r.step = .inFlight .config)
    (hcount : r.bootCount = some v.marker) (hkind : v.kind = .refuse) (hpayload : v.payload.length = 1) :
    ∃ u x, exec (.replyReceived (replyChars a v)) s = .next u ∧ u.runtime a = some x ∧ u.segment.line = .free
      ∧ x.state = .failed ∧ x.bootCount = none ∧ u.queue a = [] := by
  obtain ⟨hlength, hfits, hpayload⟩ := configReply_fits (v := v) (.inr ⟨hkind, hpayload⟩)
  have hexec := hc.exec_step hr hstep hlength hfits hpayload
  have hidle := runtime_stepDone hr
  have hfail : applyStep a .config (.valid v) (s.stepDone a r) = enterFailed a (s.stepDone a r) :=
    configResult_refuse hidle (.inr hcount) hkind
  have hline := line_applyStep hr hstep (.valid v)
  rw [hfail] at hexec hline
  obtain ⟨hrun, hqueue, -⟩ := enterFailed_cases hidle
  exact ⟨_, _, hexec, (runtime_endCommand ..).trans hrun, hline, rfl, rfl,
    (queue_congr (endCommand_blocks _).2.2.2.1 a).trans hqueue⟩

/-- What is pending once one slot of the list has been rewritten. -/
theorem hasPending_rewritten (hlists : u.shadow.lists = s.shadow.lists) {i : Nat} {q : ShadowRecord}
    (hi : i ∈ s.replayList a) (hslots : ∀ j, u.slot j = if j = i then some q else s.slot j) :
    u.hasPending a = (q.marked || (s.pendingSlots a).any (fun j => decide (j ≠ i))) := by
  have hlist : u.replayList a = s.replayList a := by
    unfold State.replayList
    rw [hlists]
  have hpending : ∀ j, u.slotPending j = if j = i then q.marked else s.slotPending j := fun j => by
    unfold State.slotPending
    rw [hslots]
    by_cases hj : j = i
    · rw [if_pos hj, if_pos hj]
    · rw [if_neg hj, if_neg hj]
  rw [Bool.eq_iff_iff]
  unfold State.hasPending State.pendingSlots
  rw [hlist, Bool.or_eq_true, List.any_eq_true, Bool.not_eq_true', List.isEmpty_eq_false_iff_exists_mem]
  constructor
  · rintro ⟨j, hj⟩
    obtain ⟨hmem, hj⟩ := List.mem_filter.1 hj
    rw [hpending] at hj
    by_cases hij : j = i
    · rw [if_pos hij] at hj
      exact .inl hj
    · rw [if_neg hij] at hj
      exact .inr ⟨j, List.mem_filter.2 ⟨hmem, hj⟩, decide_eq_true hij⟩
  · rintro (hmarked | ⟨j, hj, hij⟩)
    · exact ⟨i, List.mem_filter.2 ⟨hi, by rw [hpending, if_pos rfl]; exact hmarked⟩⟩
    · obtain ⟨hmem, hj⟩ := List.mem_filter.1 hj
      exact ⟨j, List.mem_filter.2 ⟨hmem, by rw [hpending, if_neg (of_decide_eq_true hij)]; exact hj⟩⟩

/-- The record of a replay that goes on with what is pending. -/
theorem replayOn_record (hr : u.runtime a = some r) (hstep : r.step = .none) (hstate : r.state = .replay) (hmisses : r.misses = 0) :
    ∃ x, (replayOn a u).runtime a = some x ∧ x.state = u.onwardState a ∧ x.misses = 0 ∧ x.refusals = r.refusals
      ∧ (replayOn a u).shadow = u.shadow := by
  cases hpending : u.hasPending a with
  | true =>
    rw [replayOn_pending hr hstep hpending]
    refine ⟨_, runtime_setRuntime_same hr _, ?_, hmisses, rfl, rfl⟩
    unfold State.onwardState
    rw [hpending, if_pos rfl]
    exact hstate
  | false =>
    rw [replayOn_done hpending]
    have hreports := onward_reports hr
    refine ⟨_, (hreports.runtime a).trans (runtime_setRuntime_same hr _), ?_, ?_, ?_, hreports.sameBlocks.shadow⟩
    all_goals
      unfold State.onwardState
      rw [hpending, if_neg nofun]
      split
    · rfl
    · rfl
    · exact hmisses
    · rfl
    · rfl
    · rfl

end

/-- Settles O57: each step's reply goes to its own rule, and a capture writes the record whole. -/
theorem configReplayReleaseAndCapture : Obligations.ConfigReplayReleaseAndCapture := by
  intro s a r marker function hr reply ends same onward
  have hrule : ∀ pending, onward pending = if pending then NodeState.replay else if s.queue a = [] then .online else .release :=
    fun _ => rfl
  refine ⟨fun hc hstep hstate hcount => ⟨?_, fun reason => ?_⟩, fun t c m hm ht hstep hstate => ⟨fun hretry => ?_, fun hspent => ?_⟩,
    fun f q hc hstep hstate hcount hf hq hmem => ?_, fun h l tag i hc hstep hstate hcount hq htag hi hnode hlt hslot bytes hbytes => ?_,
    fun n e c mark he => ⟨fun hn hpool => ?_, fun hn => ?_⟩⟩
  · obtain ⟨u, hexec, hrun, hline, hshadow⟩ := exec_configAccepted
      (v := { kind := .accept, function := function, marker := marker, payload := [] }) hc hr hstep hcount rfl rfl
    refine ⟨u, _, hexec, hrun, hline, ?_, hshadow⟩
    rw [hrule]
    unfold State.onwardState
    split
    · rfl
    · split <;> rfl
  · exact exec_configRefused
      (v := { kind := .refuse, function := function, marker := marker, payload := [reason] }) hc hr hstep hcount rfl rfl
  · obtain ⟨res, hres, hexec, hidle⟩ := hm.exec_step ht hr hstep
    have hparams : (m.setRuntime a (some r.idle)).params = s.params := hm.missed.params
    rw [hexec, show applyStep a .config res _ = configResult a res _ from rfl, configResult_missed hres,
      stepMiss_again hidle (by rw [hparams]; exact hretry), offerKind,
      mapRuntime_of_runtime (runtime_setRuntime_same hidle _), setRuntime_setRuntime, setRuntime_setRuntime]
    rfl
  · obtain ⟨res, hres, hexec, hidle⟩ := hm.exec_step ht hr hstep
    have hparams : (m.setRuntime a (some r.idle)).params = s.params := hm.missed.params
    rw [show applyStep a .config res _ = configResult a res _ from rfl, configResult_missed hres,
      stepMiss_spent hidle (by rw [Runtime.idle, hstate]; exact nofun) (by rw [hparams]; exact hspent),
      probing_idle_of_config hstate] at hexec
    exact ⟨_, _, hexec, (runtime_endCommand ..).trans (runtime_setRuntime_same hidle _), rfl, rfl, rfl, rfl⟩
  · intro after more done
    have hreply : ∀ v : Reply, v.marker = marker →
        ((v.kind = .accept ∧ v.payload = []) ∨ (v.kind = .refuse ∧ v.payload.length = 1)
          ∨ (v.kind = .answer ∧ v.payload.length ≤ 64)) →
        ends (replyChars a v) (done (if v.kind = .refuse then r.refusals + 1 else r.refusals)) := fun v hv hfits => by
      obtain ⟨u, hexec, hrun, hline, hhold, hflight, hlists, hslots⟩ := exec_replayReply hc hr hstep hfits hf hq
      rw [markerChanged_of_runtime hrun (.inr (hv ▸ hcount)), if_neg nofun] at hexec
      obtain ⟨x, hx, hxstate, hmisses, hrefusals, hshadow⟩ := replayOn_record hrun rfl hstate rfl
      have hkept := (endCommand_blocks (replayOn a u)).2.2.2.2.1.trans hshadow
      have hpending : u.hasPending a = more := hasPending_rewritten hlists hmem hslots
      have hquiet : (replayOn a u).segment = u.segment := by
        cases hp : u.hasPending a with
        | true => rw [replayOn_pending hrun rfl hp]; rfl
        | false => rw [replayOn_done hp, (onward_reports hrun).segment]; rfl
      refine ⟨_, x, hexec, (runtime_endCommand ..).trans hx, ?_, ?_, ?_, ?_, hmisses, hrefusals, fun i hi => ?_⟩
      · rw [(endCommand_blocks _).1, hquiet]; exact hline
      · exact (slot_congr hkept _).trans ((hslots _).trans (if_pos rfl))
      · exact (replayInFlight_congr hkept a).trans hflight
      · rw [hxstate, hrule]
        unfold State.onwardState
        rw [hpending, queue_congr hhold]
      · exact (slot_congr hkept i).trans ((hslots i).trans (if_neg hi))
    exact ⟨hreply { kind := .accept, function := function, marker := marker, payload := [] } rfl (.inl ⟨rfl, rfl⟩),
      fun reason => hreply { kind := .refuse, function := function, marker := marker, payload := [reason] } rfl
        (.inr (.inl ⟨rfl, rfl⟩))⟩
  · let v : Reply := { kind := .answer, function := function, marker := marker, payload := bytes }
    have hexec := exec_releaseReply (v := v) hc hr hstep hq (.inr (.inr ⟨rfl, hbytes⟩))
    obtain ⟨hrun, hqueue, hline, -⟩ := released_facts (h := h) (l := l) (v := v) hr
    rw [captureReleased_nothing hslot, (makeReport_reserved h .delivered (replyBytes v) (s.stepDone a r)).2 tag i htag hi]
      at hexec hrun hqueue hline
    have hshown := egress_enqueue_self (s := s.stepDone a r) hlt
      { kind := 0x43, tag := tag, outcome := AnswerCode.delivered.code, body := u8 h.node :: replyBytes v }
    generalize hu : (((s.stepDone a r).fills i
      { kind := 0x43, tag := tag, outcome := AnswerCode.delivered.code, body := u8 h.node :: replyBytes v }).setQueue a l).setRuntime
        a (some r.idle.released) = u at hexec hrun hqueue hline
    have hutrunk : u.trunk.egress[i]? = some (.waiting
        { kind := 0x43, tag := tag, outcome := 0x20, body := u8 a :: 0x82 :: function :: bytes }) := by
      rw [← hu, ← hnode]; exact hshown
    have hupending : u.hasPending a = s.hasPending a := by
      rw [← hu]; exact hasPending_congr rfl rfl a
    have hblocks := sameBlocks_releaseOn hrun (by rw [Runtime.released, Runtime.idle, hstate]; exact nofun) marker l
    have hcount' : r.idle.released.bootCount = none ∨ r.idle.released.bootCount = some marker := .inr hcount
    obtain ⟨hseg, -, -, hhold, -, -, -, -⟩ := endCommand_blocks (releaseOn a marker l u)
    have huq : (endCommand (releaseOn a marker l u)).queue a = l := (queue_congr (hhold.trans hblocks.hold) a).trans hqueue
    by_cases hl : l = []
    · subst hl
      rw [releaseOn_done hrun hcount'] at hexec huq hseg
      have hreports := onward_reports hrun
      refine ⟨_, _, hexec, (runtime_endCommand ..).trans ((hreports.runtime a).trans (runtime_setRuntime_same hrun _)), ?_, huq, ?_, ?_,
        ?_, State.Shows.endCommand (.inl (keepsFrames_onward a u i _ hutrunk))⟩
      · rw [hseg, hreports.segment]; exact hline
      all_goals
        rw [onwardState_of_empty hqueue, hupending]
        cases s.hasPending a
      all_goals rfl
    · rw [releaseOn_more hrun rfl hcount' hl] at hexec huq hseg
      refine ⟨_, _, hexec, (runtime_endCommand ..).trans (runtime_setRuntime_same hrun _), ?_, huq, rfl, ?_, ?_,
        State.Shows.endCommand (.inl hutrunk)⟩
      · rw [hseg]; exact hline
      · have hrelease : r.state ≠ .online := by rw [hstate]; exact nofun
        exact (if_neg hrelease).symm
      · rw [if_pos hl]; exact hstate
  · intro i
    obtain ⟨hmade, hcaptured⟩ := capture_spec (poolSlot_of_entry he hn) c mark
    exact ⟨hmade, (hcaptured.slots i).trans (if_pos ⟨rfl, hpool⟩), (hcaptured.lists a).trans (if_pos ⟨rfl, isAddress_of_entry he⟩),
      (hcaptured.flights a).trans (if_pos rfl), fun b hb => (hcaptured.flights b).trans (if_neg fun h => hb h.symm),
      fun j hj => (hcaptured.slots j).trans (if_neg fun h => hj h.1)⟩
  · rw [capture_miss (poolSlot_beyond he hn)]
    exact ⟨rfl, (shadowMiss_spec s).1, (shadowMiss_spec s).2.1⟩

end Sys2Proof.Machine
end

section
/-! SUPPORT. Image transfer, one operation at a time: buffers asked for and given up, the end of a session, the attempt failure,
stored blocks, retries and polls (R148 to R159). -/

namespace Sys2Proof.Machine

section
variable {s : State} {a : Nat} {r : Runtime} {x : Session} {c : CatalogueEntry}

theorem mapSession_of_session (hr : s.runtime a = some r) (hx : r.session = some x) (f : Session → Session) :
    s.mapSession a f = s.setRuntime a (some { r with session := some (f x) }) := by
  unfold State.mapSession
  rw [mapRuntime_of_runtime hr, hx]
  rfl

/-- A session that asks for a buffer waits, for its read or for its turn (R148). -/
theorem askBuffer_asks (hr : s.runtime a = some r) (hx : r.session = some x) :
    Grants s (askBuffer a s) ∧ ∃ b q, q ∈ [BufferRequest.waitingList, .reading] ∧ (askBuffer a s).runtime a =
      some { r with step := r.step.wait, session := some { x with buffer := b, request := q } } := by
  unfold askBuffer
  split
  · next b _ _ =>
    obtain ⟨hgrants, -, hgranted⟩ := startRead_cases a b s
    exact ⟨hgrants, some b, .reading, by simp, hgranted r x hr hx⟩
  · refine ⟨(grants_mapRuntime s a _).trans (grants_withRestore _ _), none, .waitingList, by simp, ?_⟩
    refine (runtime_mapRuntime_same hr _).trans ?_
    rw [hx]
    rfl

/-- A step that may have been put off, since the buffer given up may be granted to the same session. -/
def StepCondition.maybeWait (c d : StepCondition) : Prop := d = c ∨ d = c.wait

/-- The session of node `a` is as `x` but for its buffer, and the step waits at most. -/
def SessionKept (r : Runtime) (x : Session) (a : Nat) (t : State) : Prop :=
  ∃ d b q, r.step.maybeWait d ∧ t.runtime a = some { r with step := d, session := some { x with buffer := b, request := q } }

theorem SessionKept.of_runtime (hr : s.runtime a = some r) (hx : r.session = some x) : SessionKept r x a s := by
  refine ⟨r.step, x.buffer, x.request, .inl rfl, hr.trans ?_⟩
  rw [show ({ x with buffer := x.buffer, request := x.request } : Session) = x from rfl, ← hx]

/-- A buffer that falls FREE: a grant to the node itself only puts its step off. -/
theorem freeBuffer_session (hr : s.runtime a = some r) (hx : r.session = some x) (b : Nat) :
    Grants s (freeBuffer b s) ∧ SessionKept r x a (freeBuffer b s) := by
  refine ⟨(freeBuffer_cases b s).1, ?_⟩
  unfold freeBuffer
  split
  · exact SessionKept.of_runtime (s := s.setBuffer b .free) hr hx
  · next m rest _ =>
    obtain ⟨-, hothers, hgranted⟩ :=
      startRead_cases m b ((s.setBuffer b .free).withRestore { (s.setBuffer b .free).restore with waiting := rest })
    by_cases hm : a = m
    · subst hm
      exact ⟨_, some b, .reading, .inr rfl, hgranted r x hr hx⟩
    · obtain ⟨d, b', q, hd, hkept⟩ := SessionKept.of_runtime hr hx
      exact ⟨d, b', q, hd, (hothers a hm).trans hkept⟩

theorem releaseBuffer_without (hr : s.runtime a = some r) (hx : r.session = some x) (hbuffer : x.buffer = none) :
    releaseBuffer a s = s := by
  unfold releaseBuffer
  rw [session_of_runtime hr, hx]
  cases x
  cases hbuffer
  rfl

/-- The state without the session's hold on its buffer. -/
theorem releaseBuffer_gives (hr : s.runtime a = some r) (hx : r.session = some x) {b : Nat} (hbuffer : x.buffer = some b) :
    releaseBuffer a s =
      let u := s.setRuntime a (some { r with session := some { x with buffer := none, request := .none } })
      if u.readPending b then u.setBuffer b .draining else freeBuffer b u := by
  rw [← mapSession_of_session hr hx fun x => { x with buffer := none, request := .none }]
  unfold releaseBuffer
  rw [session_of_runtime hr, hx]
  cases x
  cases hbuffer
  rfl

theorem grants_setRuntime (s : State) (a : Nat) (x : Option Runtime) : Grants s (s.setRuntime a x) := ⟨⟨rfl, rfl, rfl, rfl⟩, rfl⟩

/-- A buffer given up leaves the session but for its buffer (R148, R159). -/
theorem releaseBuffer_session (hr : s.runtime a = some r) (hx : r.session = some x) :
    Grants s (releaseBuffer a s) ∧ SessionKept r x a (releaseBuffer a s) := by
  cases hbuffer : x.buffer with
  | none =>
    rw [releaseBuffer_without hr hx hbuffer]
    exact ⟨.refl s, .of_runtime hr hx⟩
  | some b =>
    rw [releaseBuffer_gives hr hx hbuffer]
    dsimp only
    have hgiven := runtime_setRuntime_same hr (some { r with session := some { x with buffer := none, request := .none } })
    split
    · exact ⟨(grants_setRuntime s a _).trans (grants_withRestore _ _), _, none, .none, .inl rfl, hgiven⟩
    · obtain ⟨hgrants, d, b', q, hd, hkept⟩ := freeBuffer_session hgiven rfl b
      exact ⟨(grants_setRuntime s a _).trans hgrants, d, b', q, hd, hkept⟩

theorem grants_releaseBuffer (hr : s.runtime a = some r) (hx : r.session = some x) : Grants s (releaseBuffer a s) :=
  (releaseBuffer_session hr hx).1

/-- A reader less. -/
def CatalogueEntry.dropped (c : CatalogueEntry) : CatalogueEntry := { c with readers := c.readers - 1 }

theorem place_lt {n : Nat} (hc : s.place n = some c) : n < 12 := by
  by_contra hge
  unfold State.place at hc
  rw [Vector.getElem?_eq_none (Nat.le_of_not_lt hge)] at hc
  cases hc

theorem place_dropReader {n : Nat} (hc : s.place n = some c) : (dropReader n s).place n = some c.dropped := by
  unfold dropReader
  rw [hc]
  exact (place_setPlace ..).trans (if_pos ⟨rfl, place_lt hc⟩)

/-- The end of a session gives up one reader of its entry (R145, R159). -/
theorem place_endSession (hr : s.runtime a = some r) (hx : r.session = some x) (hc : s.place x.entry = some c) :
    (endSession a s).place x.entry = some c.dropped := by
  unfold endSession
  rw [session_of_runtime hr, hx]
  dsimp only
  have hcancel : (leaveWaiting a (cancelStep a s)).runtime a = some { r with step := r.step.cancel } :=
    runtime_mapRuntime_same hr fun r => { r with step := r.step.cancel }
  have hgrants : Grants s (releaseBuffer a (leaveWaiting a (cancelStep a s))) :=
    ((grants_mapRuntime s a _).trans (grants_withRestore _ _)).trans (grants_releaseBuffer hcancel hx)
  rw [place_congr (congrArg ImageStore.catalogue (store_mapRuntime _ a _))]
  exact place_dropReader ((place_congr hgrants.catalogue _).trans hc)

theorem place_enterFailed (hr : s.runtime a = some r) (hx : r.session = some x) (hc : s.place x.entry = some c) :
    (enterFailed a s).place x.entry = some c.dropped := by
  have hcancel : (cancelStep a s).runtime a = some { r with step := r.step.cancel } :=
    runtime_mapRuntime_same hr fun r => { r with step := r.step.cancel }
  have hplace : (cancelStep a s).place x.entry = some c :=
    (place_congr (congrArg ImageStore.catalogue (store_mapRuntime s a _)) _).trans hc
  unfold enterFailed
  dsimp only
  rw [place_congr (congrArg ImageStore.catalogue (leaveQueues_other a .nodeFailed .failed _).1),
    place_congr (congrArg ImageStore.catalogue (store_mapRuntime _ a _))]
  exact place_endSession hcancel hx hplace

/-! ### The attempt failure inside IMAGE (R156) -/

/-- What an attempt failure of the session `x` makes of the node: the end of its loading at the limit, else block 0 again. -/
def AttemptFailed (r : Runtime) (x : Session) (c : CatalogueEntry) (limit a : Nat) (u : State) (y : Runtime) : Prop :=
  y.attempts = r.attempts + 1
    ∧ (limit ≤ r.attempts + 1 →
        y.state = .failed ∧ y.session = none ∧ y.bootCount = none ∧ u.queue a = [] ∧ u.place x.entry = some c.dropped)
    ∧ (r.attempts + 1 < limit →
        y.state = r.state ∧ y.step = .waiting ∧ y.bootCount = r.bootCount ∧ u.place x.entry = some c
          ∧ ∃ z, y.session = some z ∧ z.entry = x.entry ∧ z.reported = x.reported ∧ z.next = 0
              ∧ z.remaining = c.image.length ∧ z.lastSent = .none ∧ z.retries = 0 ∧ z.busyCount = 0
              ∧ z.pollTime = none ∧ z.request ∈ [BufferRequest.waitingList, .reading])

theorem StepCondition.wait_of_maybeWait {d : StepCondition} (h : StepCondition.none.maybeWait d) : d.wait = .waiting := by
  obtain rfl | rfl := h <;> rfl

theorem StepCondition.offer_of_maybeWait {d : StepCondition} (h : StepCondition.none.maybeWait d) (k : StepKind) :
    d.offer k = .ready k := by
  obtain rfl | rfl := h <;> rfl

theorem attemptFailure_fails (hr : s.runtime a = some r) (hstep : r.step = .none) (hx : r.session = some x)
    (hc : s.place x.entry = some c) :
    ∃ y, (attemptFailure a s).runtime a = some y ∧ AttemptFailed r x c s.params.imageAttempts a (attemptFailure a s) y := by
  have hone : countAttempt a s = s.setRuntime a (some { r with attempts := r.attempts + 1 }) := by
    unfold countAttempt
    rw [mapRuntime_of_runtime hr]
  have hrun := runtime_setRuntime_same hr (some { r with attempts := r.attempts + 1 })
  have hspent : (s.setRuntime a (some { r with attempts := r.attempts + 1 })).attemptsSpent a =
      decide (s.params.imageAttempts ≤ r.attempts + 1) := by
    unfold State.attemptsSpent
    rw [hrun]
    rfl
  have hplace : (s.setRuntime a (some { r with attempts := r.attempts + 1 })).place x.entry = some c := hc
  have hsession : (s.setRuntime a (some { r with attempts := r.attempts + 1 })).session a = some x :=
    (session_of_runtime hrun).trans hx
  unfold attemptFailure
  dsimp only
  rw [hone, hspent]
  generalize s.setRuntime a (some { r with attempts := r.attempts + 1 }) = v at hrun hplace hsession ⊢
  by_cases hlimit : s.params.imageAttempts ≤ r.attempts + 1
  · rw [decide_eq_true hlimit, if_pos rfl]
    obtain ⟨hfailed, hqueue, -⟩ := enterFailed_cases hrun
    exact ⟨_, hfailed, rfl, fun _ => ⟨rfl, rfl, rfl, hqueue, place_enterFailed hrun hx hplace⟩,
      fun h => absurd hlimit (Nat.not_le.2 h)⟩
  · rw [decide_eq_false hlimit, if_neg nofun, hsession]
    dsimp only
    obtain ⟨hgrants, d, b, q, hd, hkept⟩ := releaseBuffer_session hrun hx
    have himage : v.sessionImage x = some c.image := by
      unfold State.sessionImage
      rw [hplace]
      rfl
    rw [himage]
    dsimp only
    rw [mapSession_of_session hkept rfl]
    have hfresh := runtime_setRuntime_same hkept (some
      { r with attempts := r.attempts + 1, step := d, session := some (newSession x.entry c.image.length 0 x.reported) })
    obtain ⟨hasked, b', q', hq', hwaits⟩ := askBuffer_asks hfresh rfl
    rw [hstep] at hd
    refine ⟨_, hwaits, rfl, fun h => absurd h hlimit, fun _ => ⟨rfl, StepCondition.wait_of_maybeWait hd, rfl, ?_, _, rfl, rfl, rfl, rfl, rfl,
      rfl, rfl, rfl, rfl, hq'⟩⟩
    rw [place_congr ((hgrants.trans (grants_setRuntime _ a _)).trans hasked).catalogue]
    exact hplace

/-! ### Blocks stored, retries and polls (R150 to R153) -/

/-- A block is stored: the next one, or IMAGE END after the last. -/
def BlockStored (r : Runtime) (x : Session) (y : Runtime) : Prop :=
  y.state = r.state ∧ y.step = (if x.remaining = 1 then .ready .imageEnd else .waiting)
    ∧ ∃ z, y.session = some z ∧ z.next = x.next + 1 ∧ z.remaining = x.remaining - 1 ∧ z.retries = 0
        ∧ z.busyCount = 0 ∧ z.lastSent = .none

theorem blockStored_last (hr : s.runtime a = some r) (hx : r.session = some x) (hlast : x.remaining = 1) :
    blockStored a s = offerKind a .imageEnd (releaseBuffer a (s.setRuntime a (some { r with session := some x.stored }))) := by
  unfold blockStored
  rw [session_of_runtime hr, hx]
  dsimp only
  rw [mapSession_of_session hr hx, hlast, if_pos rfl]
  unfold Session.stored
  rw [hlast]

theorem blockStored_stores (hr : s.runtime a = some r) (hstep : r.step = .none) (hx : r.session = some x)
    (hremaining : 0 < x.remaining) : ∃ y, (blockStored a s).runtime a = some y ∧ BlockStored r x y := by
  have hrun := runtime_setRuntime_same hr (some { r with session := some x.stored })
  by_cases hlast : x.remaining = 1
  · rw [blockStored_last hr hx hlast]
    obtain ⟨-, d, b, q, hd, hkept⟩ := releaseBuffer_session hrun rfl
    rw [hstep] at hd
    refine ⟨_, runtime_mapRuntime_same hkept _, rfl, ?_, _, rfl, rfl, rfl, rfl, rfl, rfl⟩
    rw [if_pos hlast]
    exact StepCondition.offer_of_maybeWait hd .imageEnd
  · have hmore : x.remaining - 1 ≠ 0 := by omega
    have hasks : ∀ t, SessionKept { r with session := some x.stored } x.stored a t →
        ∃ y, (askBuffer a t).runtime a = some y ∧ BlockStored r x y := fun t ht => by
      obtain ⟨d, b, q, hd, hkept⟩ := ht
      obtain ⟨-, b', q', -, hwaits⟩ := askBuffer_asks hkept rfl
      rw [hstep] at hd
      refine ⟨_, hwaits, rfl, ?_, _, rfl, rfl, rfl, rfl, rfl, rfl⟩
      rw [if_neg hlast]
      exact StepCondition.wait_of_maybeWait hd
    unfold blockStored
    rw [session_of_runtime hr, hx]
    dsimp only
    rw [mapSession_of_session hr hx, if_neg hmore]
    split
    · next b _ _ =>
      obtain ⟨-, -, hgranted⟩ := startRead_cases a b (s.setRuntime a (some { r with session := some x.stored }))
      refine ⟨_, hgranted _ _ hrun rfl, rfl, ?_, _, rfl, rfl, rfl, rfl, rfl, rfl⟩
      rw [if_neg hlast, hstep]
      rfl
    · exact hasks _ (releaseBuffer_session hrun rfl).2

/-- The last block stored frees its buffer, when no read is pending for it and no session waits. -/
theorem blockStored_frees (hr : s.runtime a = some r) (hx : r.session = some x) (hlast : x.remaining = 1) {b : Nat}
    (hbuffer : x.buffer = some b) (hidle : s.readPending b = false) (hwaiting : s.restore.waiting = []) :
    (blockStored a s).restore.buffers = s.restore.buffers.setIfInBounds b .free
      ∧ ∃ y z, (blockStored a s).runtime a = some y ∧ y.session = some z ∧ z.buffer = none := by
  have hrun := runtime_setRuntime_same hr (some { r with session := some x.stored })
  have hreleased := releaseBuffer_gives hrun rfl (x := x.stored) hbuffer
  rw [setRuntime_setRuntime] at hreleased
  dsimp only at hreleased
  rw [show (s.setRuntime a (some { r with session := some { x.stored with buffer := none, request := .none } })).readPending b =
    false from hidle, if_neg nofun] at hreleased
  have hfree : freeBuffer b (s.setRuntime a (some { r with session := some { x.stored with buffer := none, request := .none } })) =
      (s.setRuntime a (some { r with session := some { x.stored with buffer := none, request := .none } })).setBuffer b .free := by
    unfold freeBuffer
    rw [show (s.setRuntime a (some { r with session := some { x.stored with buffer := none, request := .none } })).restore.waiting =
      [] from hwaiting]
  have hgiven : ((s.setRuntime a (some { r with session := some { x.stored with buffer := none, request := .none } })).setBuffer b
      .free).runtime a = some { r with session := some { x.stored with buffer := none, request := .none } } :=
    runtime_setRuntime_same hr _
  rw [blockStored_last hr hx hlast, hreleased, hfree, offerKind, mapRuntime_of_runtime hgiven]
  exact ⟨rfl, _, _, runtime_setRuntime_same hgiven _, rfl, rfl⟩

theorem countRetry_again (hr : s.runtime a = some r) (hx : r.session = some x) (hretry : x.retries + 1 ≤ s.params.blockRetries)
    (again : State → State) :
    countRetry a again s = again (s.setRuntime a (some { r with session := some { x with retries := x.retries + 1 } })) := by
  unfold countRetry
  rw [session_of_runtime hr, hx]
  dsimp only
  rw [if_pos hretry, mapSession_of_session hr hx]

theorem countRetry_spent (hr : s.runtime a = some r) (hx : r.session = some x) (hspent : s.params.blockRetries < x.retries + 1)
    (again : State → State) :
    countRetry a again s =
      attemptFailure a (s.setRuntime a (some { r with session := some { x with retries := x.retries + 1 } })) := by
  unfold countRetry
  rw [session_of_runtime hr, hx]
  dsimp only
  rw [if_neg (Nat.not_le.2 hspent), mapSession_of_session hr hx]

/-- A resend writes one record. -/
theorem countRetry_offers (hr : s.runtime a = some r) (hstep : r.step = .none) (hx : r.session = some x)
    (hretry : x.retries + 1 ≤ s.params.blockRetries) (k : StepKind) :
    countRetry a (offerKind a k) s =
      s.setRuntime a (some { r with step := .ready k, session := some { x with retries := x.retries + 1 } }) := by
  rw [countRetry_again hr hx hretry, offerKind, mapRuntime_of_runtime (runtime_setRuntime_same hr _), setRuntime_setRuntime, hstep]
  rfl

theorem schedulePoll_eq (hr : s.runtime a = some r) (hstep : r.step = .none) (hx : r.session = some x) :
    schedulePoll a s = s.setRuntime a (some
      { r with step := .waiting, session := some { x with pollTime := some (after s.now s.params.busyPollInterval) } }) := by
  unfold schedulePoll
  dsimp only
  rw [mapRuntime_of_runtime hr, hx, hstep]
  rfl

/-- A failure counted against block retries is an attempt failure of the session. -/
theorem countRetry_fails (hr : s.runtime a = some r) (hstep : r.step = .none) (hx : r.session = some x)
    (hc : s.place x.entry = some c) (hspent : s.params.blockRetries < x.retries + 1) (again : State → State) :
    ∃ y, (countRetry a again s).runtime a = some y
      ∧ AttemptFailed r x c s.params.imageAttempts a (countRetry a again s) y := by
  rw [countRetry_spent hr hx hspent]
  have hcounted := runtime_setRuntime_same hr (some { r with session := some { x with retries := x.retries + 1 } })
  obtain ⟨y, hy, hfailed⟩ := attemptFailure_fails hcounted hstep rfl hc
  exact ⟨y, hy, hfailed⟩

/-! ### IMAGE END verified, and a changed marker (R155, R158) -/

/-- The record of a node whose session has ended with its step done. -/
theorem endSession_done (hr : s.runtime a = some r) (hstep : r.step = .none) :
    SameBlocks s (endSession a s) ∧ (endSession a s).runtime a = some { r with session := none } :=
  endSession_of_cancelled hr (by rw [hstep]; rfl)

theorem imageVerified_eq (hr : s.runtime a = some r) (hx : r.session = some x) (hc : s.place x.entry = some c) :
    imageVerified a s = enterAwaitBoot a s.now (endSession a (s.setRuntime a (some { r with expected := some c.image.version }))) := by
  have himage : (s.session a).bind s.sessionImage = some c.image := by
    rw [session_of_runtime hr, hx]
    show s.sessionImage x = _
    unfold State.sessionImage
    rw [hc]
    rfl
  unfold imageVerified
  rw [himage]
  dsimp only
  rw [mapRuntime_of_runtime hr]

theorem restartedInTransfer_eq (hr : s.runtime a = some r) (hstep : r.step = .none) (hstate : r.state ≠ .online) :
    restartedInTransfer a s = (endSession a s).setRuntime a (some ({ r with session := none } : Runtime).probing) :=
  enterProbe_of_absent (endSession_done hr hstep).2 hstate

end

/-! ### A token or a miss ends an image step (R150, R153, R154) -/

section
variable {s m : State} {a : Nat} {r : Runtime} {x : Session} {c : CatalogueEntry} {k : StepKind} {w : SegmentKind} {b : Byte}
  {tok : Token} {function marker : Byte}

/-- The reply that carries a token. -/
def tokenReply (function marker b : Byte) : Reply :=
  { kind := .blockToken, function := function, marker := marker, payload := [b] }

/-- The image steps, and the kind of frame each sends. -/
def ImageStep (k : StepKind) (w : SegmentKind) : Prop :=
  (k, w) ∈ [(StepKind.imageBlock, SegmentKind.imageBlock), (.imageEnd, .imageEnd), (.busyPoll, .busyPoll)]

/-- What a token does once its marker has been looked at. -/
def useToken (a : Nat) (k : StepKind) (t : Token) (s : State) : State :=
  match k with
  | .imageBlock => blockToken a t s
  | .imageEnd => endToken a t s
  | _ => pollToken a t s

/-- What a command leaves of a node and its line. -/
def Leaves (o : Host.Outcome State Fault Refusal) (a : Nat) (l : Line) (P : State → Runtime → Prop) : Prop :=
  ∃ u y, o = .next u ∧ u.runtime a = some y ∧ u.segment.line = l ∧ P u y

/-- A token ends its step: the reply's result goes to the rule of the kind of step. -/
theorem leaves_token (hc : s.CollectsStep a w) (hr : s.runtime a = some r) (hstep : r.step = .inFlight k) (hk : ImageStep k w)
    (htok : Token.ofCode b = some tok) {P : State → Runtime → Prop} (hP : EndKeeps P)
    (h : ∃ y, (if (s.stepDone a r).markerChanged a marker then restartedInTransfer a (s.stepDone a r)
        else useToken a k tok (s.stepDone a r)).runtime a = some y
      ∧ P (if (s.stepDone a r).markerChanged a marker then restartedInTransfer a (s.stepDone a r)
        else useToken a k tok (s.stepDone a r)) y) :
    Leaves (exec (.replyReceived (replyChars a (tokenReply function marker b))) s) a .free P := by
  have hparse : parseToken [b] = some tok := htok
  have hkind : replyKindFits w .blockToken = true := by
    simp only [ImageStep, List.mem_cons, Prod.mk.injEq, List.not_mem_nil, or_false] at hk
    rcases hk with ⟨-, rfl⟩ | ⟨-, rfl⟩ | ⟨-, rfl⟩ <;> rfl
  have hexec := hc.exec_step (v := tokenReply function marker b) hr hstep (Nat.le_of_ble_eq_true rfl) hkind
    (by show (parseToken [b]).isSome = true; rw [hparse]; rfl)
  have happly : applyStep a k (.valid (tokenReply function marker b)) (s.stepDone a r) =
      if (s.stepDone a r).markerChanged a marker then restartedInTransfer a (s.stepDone a r)
      else useToken a k tok (s.stepDone a r) := by
    have himage : applyStep a k (.valid (tokenReply function marker b)) (s.stepDone a r) =
        imageResult a k (.valid (tokenReply function marker b)) (s.stepDone a r) := by
      simp only [ImageStep, List.mem_cons, Prod.mk.injEq, List.not_mem_nil, or_false] at hk
      rcases hk with ⟨rfl, -⟩ | ⟨rfl, -⟩ | ⟨rfl, -⟩ <;> rfl
    rw [himage]
    unfold imageResult tokenReply
    dsimp only
    rw [hparse]
    dsimp only
    split
    · rfl
    · simp only [ImageStep, List.mem_cons, Prod.mk.injEq, List.not_mem_nil, or_false] at hk
      rcases hk with ⟨rfl, -⟩ | ⟨rfl, -⟩ | ⟨rfl, -⟩ <;> rfl
  have hline := line_applyStep hr hstep (.valid (tokenReply function marker b))
  rw [← happly] at h
  obtain ⟨y, hy, hPy⟩ := h
  obtain ⟨z, n, hend⟩ := endCommand_eq (applyStep a k (.valid (tokenReply function marker b)) (s.stepDone a r))
  refine ⟨_, y, hexec, (runtime_endCommand ..).trans hy, hline, ?_⟩
  rw [hend]
  exact hP _ z n y hPy

/-- A token of a node whose count is unchanged. -/
theorem leaves_used (hc : s.CollectsStep a w) (hr : s.runtime a = some r) (hcount : r.bootCount = some marker)
    (hstep : r.step = .inFlight k) (hk : ImageStep k w) (htok : Token.ofCode b = some tok) {P : State → Runtime → Prop}
    (hP : EndKeeps P)
    (h : ∃ y, (useToken a k tok (s.stepDone a r)).runtime a = some y ∧ P (useToken a k tok (s.stepDone a r)) y) :
    Leaves (exec (.replyReceived (replyChars a (tokenReply function marker b))) s) a .free P := by
  refine leaves_token hc hr hstep hk htok hP ?_
  rw [markerChanged_of_runtime (runtime_stepDone hr) (.inr hcount), if_neg nofun]
  exact h

/-- What a miss of an image step is counted as. -/
def missToken (a : Nat) (k : StepKind) (s : State) : State :=
  match k with
  | .busyPoll => countRetry a (schedulePoll a) s
  | _ => countRetry a (offerKind a k) s

theorem leaves_missed {t : Transaction} {i : Instr} (hm : s.Misses t i m) (ht : t.carries = .step a) (hr : s.runtime a = some r)
    (hstep : r.step = .inFlight k) (hk : k = .imageBlock ∨ k = .imageEnd ∨ k = .busyPoll) {P : State → Runtime → Prop}
    (hP : EndKeeps P)
    (h : ∃ y, (missToken a k (m.setRuntime a (some r.idle))).runtime a = some y
      ∧ P (missToken a k (m.setRuntime a (some r.idle))) y) : Leaves (exec i s) a m.segment.line P := by
  obtain ⟨res, hres, hexec, -⟩ := hm.exec_step ht hr hstep
  have hrm : m.runtime a = some r := (hm.missed.runtime a).trans hr
  have happly : applyStep a k res (m.setRuntime a (some r.idle)) = missToken a k (m.setRuntime a (some r.idle)) := by
    rcases hk with rfl | rfl | rfl <;> obtain rfl | rfl := hres <;> rfl
  have hline : (applyStep a k res (m.setRuntime a (some r.idle))).segment.line = m.segment.line := by
    rw [show applyStep a k res (m.setRuntime a (some r.idle)) = stepEnded a res m from (stepEnded_of_inFlight hrm hstep res).symm]
    exact congrArg Quiet.line (stepEnded_quiet m a res)
  rw [happly] at hexec hline
  obtain ⟨y, hy, hPy⟩ := h
  obtain ⟨z, n, hend⟩ := endCommand_eq (missToken a k (m.setRuntime a (some r.idle)))
  refine ⟨_, y, hexec, (runtime_endCommand ..).trans hy, ?_, ?_⟩
  · rw [(endCommand_blocks _).1]; exact hline
  · rw [hend]
    exact hP _ z n y hPy

/-- The last frame sent decides what answers a BUSY POLL. -/
theorem pollToken_block (hr : s.runtime a = some r) (hx : r.session = some x) (hlast : x.lastSent ≠ .imageEnd) (htok : tok ≠ .busy) :
    pollToken a tok s = blockToken a tok s := by
  unfold pollToken
  rw [session_of_runtime hr, hx]
  cases x with
  | mk _ _ _ _ last =>
    cases last
    case imageEnd => exact absurd rfl hlast
    all_goals cases tok <;> first | rfl | exact absurd rfl htok

theorem pollToken_end (hr : s.runtime a = some r) (hx : r.session = some x) (hlast : x.lastSent = .imageEnd) (htok : tok ≠ .busy) :
    pollToken a tok s = endToken a tok s := by
  unfold pollToken
  rw [session_of_runtime hr, hx]
  cases x
  cases hlast
  cases tok <;> first | rfl | exact absurd rfl htok

theorem busyAgain_below (hr : s.runtime a = some r) (hstep : r.step = .none) (hx : r.session = some x)
    (hbelow : x.busyCount + 1 < s.params.busyLimit) :
    busyAgain a s = s.setRuntime a (some
      { r with
        step := .waiting
        session := some { x with busyCount := x.busyCount + 1, pollTime := some (after s.now s.params.busyPollInterval) } }) := by
  have hcounted := runtime_setRuntime_same hr (some { r with session := some { x with busyCount := x.busyCount + 1 } })
  unfold busyAgain
  rw [session_of_runtime hr, hx]
  dsimp only
  rw [if_pos hbelow, mapSession_of_session hr hx, schedulePoll_eq hcounted hstep rfl, setRuntime_setRuntime]
  rfl

theorem busyAgain_fails (hr : s.runtime a = some r) (hstep : r.step = .none) (hx : r.session = some x)
    (hc : s.place x.entry = some c) (hreached : s.params.busyLimit ≤ x.busyCount + 1) :
    ∃ y, (busyAgain a s).runtime a = some y ∧ AttemptFailed r x c s.params.imageAttempts a (busyAgain a s) y := by
  have hcounted := runtime_setRuntime_same hr (some { r with session := some { x with busyCount := x.busyCount + 1 } })
  have heq : busyAgain a s =
      attemptFailure a (s.setRuntime a (some { r with session := some { x with busyCount := x.busyCount + 1 } })) := by
    unfold busyAgain
    rw [session_of_runtime hr, hx]
    dsimp only
    rw [if_neg (Nat.not_lt.2 hreached), mapSession_of_session hr hx]
  obtain ⟨y, hy, hfailed⟩ := attemptFailure_fails hcounted hstep rfl hc
  rw [heq]
  exact ⟨y, hy, hfailed⟩

theorem endKeeps_record (P : Runtime → Prop) : EndKeeps fun _ y => P y := fun _ _ _ _ h => h

theorem endKeeps_attemptFailed (r : Runtime) (x : Session) (c : CatalogueEntry) (limit a : Nat) :
    EndKeeps (AttemptFailed r x c limit a) := fun _ _ _ _ h => h

end

/-- IMAGE END answered VERIFIED: the version is expected, the session ends, and the node waits for its boot (R155). -/
theorem imageVerified_leaves {s : State} {a : Nat} {r : Runtime} {x : Session} {c : CatalogueEntry} {e : NodeEntry}
    (he : s.entry a = some e) (hr : s.runtime a = some r) (hstep : r.step = .none) (hx : r.session = some x)
    (hc : s.place x.entry = some c) :
    let opens := after s.now (e.bootMin * 10)
    let closes := after s.now (e.bootMax * 10)
    ∃ y, (imageVerified a s).runtime a = some y ∧ y.session = none ∧ y.expected = some c.image.version
      ∧ y.attempts = r.attempts ∧ y.bootCount = r.bootCount ∧ (imageVerified a s).place x.entry = some c.dropped
      ∧ (reached s.now closes = false → y.state = .awaitBoot ∧ y.window = some (opens, closes))
      ∧ (reached s.now closes = true → y.state = .missing) := by
  intro opens closes
  have hexpects := runtime_setRuntime_same hr (some { r with expected := some c.image.version })
  obtain ⟨hblocks, hended⟩ := endSession_done hexpects hstep
  have hplace := place_endSession hexpects hx (show _ = some c from hc)
  rw [imageVerified_eq hr hx hc]
  generalize endSession a (s.setRuntime a (some { r with expected := some c.image.version })) = v at hblocks hended hplace
  have hentry : v.entry a = some e := by
    unfold State.entry
    rw [hblocks.tables]
    exact he
  have hnow : v.now = s.now := hblocks.now
  cases hclosed : reached s.now closes with
  | false =>
    rw [enterAwaitBoot_open hentry hended (by rw [hnow]; exact hclosed), hnow]
    have hfields := awaitingBoot_fields s.now opens closes { r with expected := some c.image.version, session := none }
    obtain ⟨hstate, hwindow, hattempts, hcounts⟩ := hfields
    refine ⟨_, runtime_setRuntime_same hended _, ?_, hcounts.expected, hattempts, hcounts.bootCount, hplace,
      fun _ => ⟨hstate, hwindow⟩, nofun⟩
    unfold awaitingBoot
    dsimp only
    split <;> rfl
  | true =>
    have hreports := enterAwaitBoot_closed (base := s.now) hentry hended hstep (by rw [hnow]; exact hclosed)
    refine ⟨_, (hreports.runtime a).trans (runtime_setRuntime_same hended _), rfl, rfl, rfl, rfl, ?_, nofun, fun _ => rfl⟩
    rw [place_congr (congrArg ImageStore.catalogue hreports.store)]
    exact hplace

/-- Settles O58: each token is used by the rule of the frame it answers. -/
theorem imageTokensDriveTransfer : Obligations.ImageTokensDriveTransfer := by
  intro s a e r x b marker function he hr hstate hx hcount ends now again
  have hn := runtime_stepDone hr
  have hxn : r.idle.session = some x := hx
  have hends : ∀ {k w token tok} {P : State → Runtime → Prop}, s.CollectsStep a w → r.step = .inFlight k → ImageStep k w →
      Token.ofCode token = some tok → EndKeeps P →
      (∃ y, (useToken a k tok (s.stepDone a r)).runtime a = some y ∧ P (useToken a k tok (s.stepDone a r)) y) →
      ends token P := fun hc hstep hk htok hP h => leaves_used hc hr hcount hstep hk htok hP h
  refine ⟨fun hc hstep hbuffer => ⟨fun token htoken hmore => ?_, fun token htoken hlast hidle hwaiting => ?_, fun hretry => ?_, ?_,
    fun hlimit => ?_⟩, fun t i m hm ht hstep hretry => ?_, fun c hc hstep hplace hbuffer hopen => ?_⟩
  · obtain ⟨tok, htok, huse⟩ : ∃ tok, Token.ofCode token = some tok
        ∧ useToken a .imageBlock tok (s.stepDone a r) = blockStored a (s.stepDone a r) := by
      rcases htoken with rfl | rfl
      · exact ⟨.good, rfl, rfl⟩
      · exact ⟨.verified, rfl, rfl⟩
    obtain ⟨y, hy, hstored, hwaits, z, hz, hnext, hremaining, hretries, hbusy, -⟩ :=
      blockStored_stores hn rfl hxn (by omega)
    refine hends hc hstep (by simp [ImageStep]) htok (fun _ _ _ _ h => h) ⟨y, by rw [huse]; exact hy, hstored.trans hstate, ?_,
      z, hz, hnext, hremaining, hretries, hbusy⟩
    rw [hwaits, if_neg (by omega)]
  · obtain ⟨tok, htok, huse⟩ : ∃ tok, Token.ofCode token = some tok
        ∧ useToken a .imageBlock tok (s.stepDone a r) = blockStored a (s.stepDone a r) := by
      rcases htoken with rfl | rfl
      · exact ⟨.good, rfl, rfl⟩
      · exact ⟨.verified, rfl, rfl⟩
    obtain ⟨y, hy, hstored, hready, z, hz, hnext, hremaining, -⟩ := blockStored_stores hn rfl hxn (by omega)
    obtain ⟨hbuffers, y', z', hy', hz', hfree⟩ := blockStored_frees (s := s.stepDone a r) hn hxn hlast hbuffer hidle hwaiting
    have hsame : z' = z := by
      rw [hy] at hy'
      cases hy'
      exact Option.some.inj (hz'.symm.trans hz)
    refine hends hc hstep (by simp [ImageStep]) htok (fun _ _ _ _ h => h) ⟨y, by rw [huse]; exact hy, hstored.trans hstate, ?_,
      by rw [huse]; exact hbuffers, z, hz, hnext, ?_, hsame ▸ hfree⟩
    · rw [hready, if_pos hlast]
    · rw [hremaining, hlast]
  · refine hends (tok := .checkFail) hc hstep (by simp [ImageStep]) rfl (fun _ _ _ _ h => h) ?_
    have heq : useToken a .imageBlock .checkFail (s.stepDone a r) = _ := countRetry_offers hn rfl hxn hretry .imageBlock
    rw [heq]
    exact ⟨_, runtime_setRuntime_same hn _, rfl⟩
  · refine hends (tok := .busy) hc hstep (by simp [ImageStep]) rfl (fun _ _ _ _ h => h) ?_
    have heq : useToken a .imageBlock .busy (s.stepDone a r) = _ := schedulePoll_eq hn rfl hxn
    rw [heq]
    exact ⟨_, runtime_setRuntime_same hn _, rfl⟩
  · refine hends (tok := .writeFail) hc hstep (by simp [ImageStep]) rfl (fun _ _ _ _ h => h) ?_
    have hcounted := runtime_setRuntime_same hn (some { r.idle with attempts := r.attempts + 1 })
    obtain ⟨hfailed, hqueue, -⟩ := enterFailed_cases hcounted
    have heq : useToken a .imageBlock .writeFail (s.stepDone a r) =
        enterFailed a ((s.stepDone a r).setRuntime a (some { r.idle with attempts := r.attempts + 1 })) := by
      have hone : countAttempt a (s.stepDone a r) =
          (s.stepDone a r).setRuntime a (some { r.idle with attempts := r.attempts + 1 }) := by
        unfold countAttempt
        rw [mapRuntime_of_runtime hn]
        rfl
      have hspent : ((s.stepDone a r).setRuntime a (some { r.idle with attempts := r.attempts + 1 })).attemptsSpent a = true := by
        unfold State.attemptsSpent
        rw [hcounted]
        exact decide_eq_true hlimit
      show attemptFailure a (s.stepDone a r) = _
      unfold attemptFailure
      dsimp only
      rw [hone, hspent, if_pos rfl]
    rw [heq]
    exact ⟨_, hfailed, rfl, rfl, rfl, rfl, hqueue⟩
  · obtain ⟨res, hres, hexec, hidle⟩ := hm.exec_step ht hr hstep
    have hparams : (m.setRuntime a (some r.idle)).params = s.params := hm.missed.params
    have happly : applyStep a .imageBlock res (m.setRuntime a (some r.idle)) = _ :=
      (show _ = countRetry a (offerKind a .imageBlock) _ by obtain rfl | rfl := hres <;> rfl).trans
        (countRetry_offers hidle rfl hxn (by rw [hparams]; exact hretry) .imageBlock)
    rw [happly] at hexec
    exact ⟨_, _, hexec, (endCommand_blocks _).1, (runtime_endCommand ..).trans (runtime_setRuntime_same hidle _), rfl⟩
  · obtain ⟨y, hy, hsession, hexpected, hattempts, hboot, hdropped, hwaits, -⟩ :=
      imageVerified_leaves (s := s.stepDone a r) he hn rfl hxn hplace
    obtain ⟨hawait, hwindow⟩ := hwaits hopen
    exact hends (tok := .verified) hc hstep (by simp [ImageStep]) rfl (fun _ _ _ _ h => h)
      ⟨y, hy, hawait, hexpected, hsession, hboot.trans hcount, hattempts, hwindow, hdropped⟩

/-- Settles O59: a token answers the frame last sent, a count above its limit fails the attempt, and a changed marker ends the
session. -/
theorem pollsFailuresAndChangedMarkersInImage : Obligations.PollsFailuresAndChangedMarkersInImage := by
  intro s a n r x c count function he hr hstate hx hcount hplace p due after ends misses released failure stored polled again spent runs
  have hn := runtime_stepDone hr
  have hxn : r.idle.session = some x := hx
  have hends : ∀ {k w token tok} {P : State → Runtime → Prop}, s.CollectsStep a w → r.step = .inFlight k → ImageStep k w →
      Token.ofCode token = some tok → EndKeeps P →
      (∃ y, (useToken a k tok (s.stepDone a r)).runtime a = some y ∧ P (useToken a k tok (s.stepDone a r)) y) →
      ends count token P := fun hc hstep hk htok hP h => leaves_used hc hr hcount hstep hk htok hP h
  have hfailure : ∀ u y, AttemptFailed r.idle x c p.imageAttempts a u y → failure u y := fun u y ⟨hattempts, hlast, hagain⟩ => by
    refine ⟨hattempts, hlast, fun h => ?_⟩
    obtain ⟨himage, hwaits, hboot, hkept, hfresh⟩ := hagain h
    exact ⟨himage.trans hstate, hwaits, hboot.trans hcount, hkept, hfresh⟩
  have hkeepsFailure : EndKeeps failure := fun _ _ _ _ h => h
  have hkeepsStored : EndKeeps stored := fun _ _ _ _ h => h
  have hkeepsPolled : ∀ i j, EndKeeps (polled i j) := fun _ _ _ _ _ _ h => h
  have hkeepsAgain : ∀ k, EndKeeps (again k) := fun _ _ _ _ _ h => h
  have hfails : ∀ {u v : State}, u = v → (∃ y, v.runtime a = some y ∧ AttemptFailed r.idle x c p.imageAttempts a v y) →
      ∃ y, u.runtime a = some y ∧ failure u y := fun huv h => by
    obtain ⟨y, hy, hf⟩ := h
    exact ⟨y, huv ▸ hy, hfailure _ _ (huv ▸ hf)⟩
  have hattempt := attemptFailure_fails (s := s.stepDone a r) (c := c) hn rfl hxn hplace
  have hspentFails := fun (h : spent) => countRetry_fails (s := s.stepDone a r) (c := c) hn rfl hxn hplace h
  have hmissState : ∀ {t i m}, s.Misses t i m → (m.setRuntime a (some r.idle)).runtime a = some r.idle
      ∧ (m.setRuntime a (some r.idle)).params = p
      ∧ m.place x.entry = some c ∧ m.now = s.gap.clock := fun {t i m} hm => by
    obtain ⟨_, _, _, hframe⟩ := hm.missed.frame
    have hrm : m.runtime a = some r := (hm.missed.runtime a).trans hr
    refine ⟨runtime_setRuntime_same hrm _, hm.missed.params, ?_, ?_⟩
    · rw [hframe]; exact hplace
    · rw [hframe]; rfl
  have hmissFails : ∀ {k}, r.step = .inFlight k → (k = .imageBlock ∨ k = .imageEnd ∨ k = .busyPoll) → spent →
      (∀ m : State, ∃ again, missToken a k m = countRetry a again m) → misses failure := fun hstep hk hspent hagain t i m hm ht => by
    obtain ⟨hidle, hparams, hkept, -⟩ := hmissState hm
    obtain ⟨again, heq⟩ := hagain (m.setRuntime a (some r.idle))
    obtain ⟨y, hy, hf⟩ := countRetry_fails (c := c) hidle rfl hxn hkept (by rw [hparams]; exact hspent) again
    rw [hparams] at hf
    exact leaves_missed hm ht hr hstep hk hkeepsFailure ⟨y, by rw [heq]; exact hy, by rw [heq]; exact hfailure _ _ hf⟩
  refine ⟨fun ⟨hc, hstep⟩ => ?_, fun ⟨hc, hstep⟩ => ?_, fun ⟨hc, hstep⟩ => ?_, fun hstep => ?_, fun hstep hspent => ?_, fun hstep => ?_,
    fun k w marker token hk ⟨hc, hstep⟩ hmarker htoken => ?_⟩
  · have hpoll : ImageStep .busyPoll .busyPoll := by simp [ImageStep]
    have hblock : x.lastSent = .block → ∀ tok, tok ≠ .busy →
        useToken a .busyPoll tok (s.stepDone a r) = blockToken a tok (s.stepDone a r) := fun hlast tok htok =>
      pollToken_block hn hxn (by rw [hlast]; exact nofun) htok
    have hend : x.lastSent = .imageEnd → ∀ tok, tok ≠ .busy →
        useToken a .busyPoll tok (s.stepDone a r) = endToken a tok (s.stepDone a r) := fun hlast tok htok =>
      pollToken_end hn hxn hlast htok
    have hstoredEnds : x.lastSent = .block → 0 < x.remaining → ∀ token tok, Token.ofCode token = some tok → tok ≠ .busy →
        blockToken a tok (s.stepDone a r) = blockStored a (s.stepDone a r) → ends count token stored :=
      fun hlast hremaining token tok htok hbusy heq => by
        obtain ⟨y, hy, hst, hrest⟩ := blockStored_stores hn rfl hxn hremaining
        exact hends hc hstep hpoll htok hkeepsStored
          ⟨y, by rw [hblock hlast tok hbusy, heq]; exact hy, hst.trans hstate, hrest⟩
    refine ⟨fun hlast hremaining => ⟨hstoredEnds hlast hremaining 0 .good rfl nofun rfl,
        hstoredEnds hlast hremaining 4 .verified rfl nofun rfl⟩,
      fun hlast => ⟨fun hspent => hends (tok := .checkFail) hc hstep hpoll rfl hkeepsFailure
          (hfails (hblock hlast .checkFail nofun) (hspentFails hspent _)),
        fun hretry => hends (tok := .checkFail) hc hstep hpoll rfl (hkeepsAgain _) ?_⟩,
      fun hlast => ⟨hends (tok := .good) hc hstep hpoll rfl hkeepsFailure (hfails (hend hlast .good nofun) hattempt),
        hends (tok := .checkFail) hc hstep hpoll rfl hkeepsFailure (hfails (hend hlast .checkFail nofun) hattempt)⟩,
      fun hlast => ?_, ?_, fun hbelow => hends (tok := .busy) hc hstep hpoll rfl (hkeepsPolled _ _) ?_,
      fun hreached => hends (tok := .busy) hc hstep hpoll rfl hkeepsFailure
        (hfails (show _ = busyAgain a (s.stepDone a r) from rfl) (busyAgain_fails hn rfl hxn hplace hreached))⟩
    · have heq : useToken a .busyPoll .checkFail (s.stepDone a r) = _ :=
        (hblock hlast .checkFail nofun).trans (countRetry_offers hn rfl hxn (Nat.le_of_not_lt hretry) .imageBlock)
      rw [heq]
      exact ⟨_, runtime_setRuntime_same hn _, rfl⟩
    · obtain ⟨y, hy, hsession, hexpected, hattempts, -, hdropped, hopen, hclosed⟩ :=
        imageVerified_leaves (s := s.stepDone a r) he hn rfl hxn hplace
      have heq : useToken a .busyPoll .verified (s.stepDone a r) = imageVerified a (s.stepDone a r) := hend hlast .verified nofun
      have hmoved : y.state ∈ [NodeState.awaitBoot, .missing] := by
        cases hreached : reached (s.stepDone a r).now (Machine.after (s.stepDone a r).now (n.bootMax * 10)) with
        | false => rw [(hopen hreached).1]; simp
        | true => rw [hclosed hreached]; simp
      exact hends (tok := .verified) hc hstep hpoll rfl (fun _ _ _ _ h => h)
        ⟨y, by rw [heq]; exact hy, hmoved, hsession, hexpected, hattempts, by rw [heq]; exact hdropped⟩
    · refine hends (tok := .writeFail) hc hstep hpoll rfl hkeepsFailure (hfails ?_ hattempt)
      by_cases hlast : x.lastSent = .imageEnd
      · exact hend hlast .writeFail nofun
      · exact pollToken_block (tok := .writeFail) hn hxn hlast nofun
    · have heq : useToken a .busyPoll .busy (s.stepDone a r) = _ := busyAgain_below hn rfl hxn hbelow
      rw [heq]
      exact ⟨_, runtime_setRuntime_same hn _, rfl⟩
  · have hblock : ImageStep .imageBlock .imageBlock := by simp [ImageStep]
    exact ⟨fun hspent => hends (tok := .checkFail) hc hstep hblock rfl hkeepsFailure (hfails rfl (hspentFails hspent _)),
      hends (tok := .writeFail) hc hstep hblock rfl hkeepsFailure (hfails rfl hattempt)⟩
  · have hend : ImageStep .imageEnd .imageEnd := by simp [ImageStep]
    refine ⟨hends (tok := .good) hc hstep hend rfl hkeepsFailure (hfails rfl hattempt),
      hends (tok := .checkFail) hc hstep hend rfl hkeepsFailure (hfails rfl hattempt),
      hends (tok := .writeFail) hc hstep hend rfl hkeepsFailure (hfails rfl hattempt),
      hends (tok := .busy) hc hstep hend rfl (hkeepsPolled _ _) ?_⟩
    have heq : useToken a .imageEnd .busy (s.stepDone a r) = _ := schedulePoll_eq hn rfl hxn
    rw [heq]
    exact ⟨_, runtime_setRuntime_same hn _, rfl⟩
  · refine ⟨fun hspent => hmissFails hstep (.inr (.inr rfl)) hspent fun m => ⟨_, rfl⟩, fun hretry t i m hm ht => ?_⟩
    obtain ⟨hidle, hparams, -, hnow⟩ := hmissState hm
    refine leaves_missed hm ht hr hstep (.inr (.inr rfl)) (hkeepsPolled _ _) ?_
    have heq : missToken a .busyPoll (m.setRuntime a (some r.idle)) = _ :=
      (countRetry_again hidle hxn (by rw [hparams]; exact Nat.le_of_not_lt hretry) (schedulePoll a)).trans
        (schedulePoll_eq (runtime_setRuntime_same hidle
          (some { r.idle with session := some { x with retries := x.retries + 1 } })) rfl rfl)
    rw [heq]
    refine ⟨_, runtime_setRuntime_same (runtime_setRuntime_same hidle _) _, ?_⟩
    show _ = ({ r with step := .waiting, session := some _ } : Runtime)
    rw [show ((m.setRuntime a (some r.idle)).setRuntime a
      (some { r.idle with session := some { x with retries := x.retries + 1 } })).now = s.gap.clock from hnow,
      show ((m.setRuntime a (some r.idle)).setRuntime a
        (some { r.idle with session := some { x with retries := x.retries + 1 } })).params = p from hparams]
    rfl
  · exact hmissFails hstep (.inl rfl) hspent fun m => ⟨_, rfl⟩
  · refine ⟨fun hspent => hmissFails hstep (.inr (.inl rfl)) hspent fun m => ⟨_, rfl⟩, fun hretry t i m hm ht => ?_⟩
    obtain ⟨hidle, hparams, -, -⟩ := hmissState hm
    refine leaves_missed hm ht hr hstep (.inr (.inl rfl)) (hkeepsAgain _) ?_
    have heq : missToken a .imageEnd (m.setRuntime a (some r.idle)) = _ :=
      countRetry_offers hidle rfl hxn (by rw [hparams]; exact Nat.le_of_not_lt hretry) .imageEnd
    rw [heq]
    exact ⟨_, runtime_setRuntime_same hidle _, rfl⟩
  · obtain ⟨tok, htok⟩ : ∃ tok, Token.ofCode token = some tok := by
      have hcases : token = 0 ∨ token = 1 ∨ token = 2 ∨ token = 3 ∨ token = 4 := by bv_omega
      rcases hcases with rfl | rfl | rfl | rfl | rfl
      · exact ⟨.good, rfl⟩
      · exact ⟨.checkFail, rfl⟩
      · exact ⟨.writeFail, rfl⟩
      · exact ⟨.busy, rfl⟩
      · exact ⟨.verified, rfl⟩
    refine leaves_token hc hr hstep hk htok (fun _ _ _ _ h => h) ?_
    have himage : r.idle.state ≠ .online := by rw [show r.idle.state = .image from hstate]; exact nofun
    rw [markerChanged_of_ne hn hcount (Ne.symm hmarker), if_pos rfl, restartedInTransfer_eq hn rfl himage]
    refine ⟨_, runtime_setRuntime_same (endSession_done hn rfl).2 _, rfl, rfl, rfl, ?_, rfl, rfl, rfl,
      place_endSession hn hxn hplace⟩
    show (Runtime.countOnDoubt _) = none
    unfold Runtime.countOnDoubt
    rw [show ({ r.idle with session := none } : Runtime).state = .image from hstate]

end Sys2Proof.Machine
end

section
/-! SUPPORT. Sound hold queues and shadow slots, and what the operations of the Hold Pool and the Shadow Store keep of them. A table
switch makes them sound one address after another, so both are stated but for a set of addresses that it has still to treat. -/

namespace Sys2Proof.Machine

/-! ### Soundness but for some addresses -/

/-- A node's hold cap, 0 for an unconfigured address (R126). -/
def State.holdCap (s : State) (a : Nat) : Nat := match s.entry a with | some e => e.holdCap | none => 0

/-- The hold queues are sound, but for the caps of the addresses in `d` (R126, R127). -/
structure HoldsBut (d : Set Nat) (s : State) : Prop where
  caps : ∀ a, a ∉ d → (s.queue a).length ≤ s.holdCap a
  pool : s.heldCount ≤ 128
  present : ∀ a, s.entry a ≠ none → (s.nodeState a).isAbsent = false → s.queue a = []

/-- A slot's record stands in its node's range at its relative number (R109, R110). -/
def Tables.Places (t : Tables) (i : Nat) (r : ShadowRecord) : Prop :=
  ∃ e, t.node r.node = some e ∧ r.relative < e.shadowCount ∧ i = e.shadowBase + r.relative

/-- A replay order list holds each valid slot of its node once and no other (R111). -/
def State.Lists (s : State) (a : Nat) : Prop :=
  (s.replayList a).Nodup ∧ ∀ i, i ∈ s.replayList a ↔ ∃ r, s.slot i = some r ∧ r.node = a

/-- The shadow slots are sound, but for the addresses in `d`, whose slots stand in their ranges of the tables `old`. -/
structure ShadowsBut (d : Set Nat) (old : Tables) (s : State) : Prop where
  fits : s.tables.firstFault = none
  lists : ∀ a, a ∉ d → s.Lists a
  places : ∀ i r, s.slot i = some r → r.node ∉ d → s.tables.Places i r
  olds : ∀ i r, s.slot i = some r → r.node ∈ d → old.Places i r
  pending : ∀ i r, s.slot i = some r → r.marked = true → s.nodeState r.node ≠ .online

theorem isAbsent_eq_false (st : NodeState) :
    st.isAbsent = false ↔ st ∈ [NodeState.online, .failed, .isolated, .unconfigured] := by
  cases st <;> decide

theorem holdSound_iff (s : State) : s.HoldSound ↔ HoldsBut ∅ s := by
  constructor
  · rintro ⟨hcaps, hpool, hpresent⟩
    exact ⟨fun a _ => hcaps a, hpool, fun a _ ha => hpresent a ((isAbsent_eq_false _).1 ha)⟩
  · rintro ⟨hcaps, hpool, hpresent⟩
    refine ⟨fun a => hcaps a (Set.notMem_empty a), hpool, fun a ha => ?_⟩
    by_cases he : s.entry a = none
    · have hcap := hcaps a (Set.notMem_empty a)
      rw [State.holdCap, he] at hcap
      exact List.eq_nil_of_length_eq_zero (Nat.le_zero.1 hcap)
    · exact hpresent a he ((isAbsent_eq_false _).2 ha)

theorem shadowSound_iff (old : Tables) (s : State) : s.ShadowSound ↔ ShadowsBut ∅ old s := by
  constructor
  · rintro ⟨hfits, hlists, hplaces, hpending⟩
    exact ⟨hfits, fun a _ => hlists a, fun i r hr _ => hplaces i r hr, fun _ _ _ h => absurd h (Set.notMem_empty _), hpending⟩
  · rintro ⟨hfits, hlists, hplaces, -, hpending⟩
    exact ⟨hfits, fun a => hlists a (Set.notMem_empty a), fun i r hr => hplaces i r hr (Set.notMem_empty _), hpending⟩

/-- What is asked of the two stores: whether each is claimed sound, the addresses still to treat, the tables before the switch. -/
structure Terms where
  hold : Prop
  shadow : Prop
  queues : Set Nat
  slots : Set Nat
  old : Tables

/-- The hold queues and the shadow slots are sound, each where it is claimed to be. -/
def Kept (x : Terms) (s : State) : Prop :=
  (x.hold → HoldsBut x.queues s) ∧ (x.shadow → ShadowsBut x.slots x.old s)

/-! ### Operations that leave both stores -/

/-- The records of both stores, and the tables, are as before. -/
structure SameRecords (s t : State) : Prop where
  tables : t.tables = s.tables
  hold : t.hold = s.hold
  slots : t.shadow.slots = s.shadow.slots
  lists : t.shadow.lists = s.shadow.lists

theorem SameRecords.trans {s t u : State} (h : SameRecords s t) (g : SameRecords t u) : SameRecords s u :=
  ⟨g.tables.trans h.tables, g.hold.trans h.hold, g.slots.trans h.slots, g.lists.trans h.lists⟩

/-- The records are as before, and a node whose state changed is in an absent state now. -/
structure Steady (s t : State) : Prop where
  records : SameRecords s t
  states : ∀ a, t.nodeState a = s.nodeState a ∨ (t.nodeState a).isAbsent = true

section
variable {s t : State} {x : Terms} {a : Nat}

theorem entry_of_tables (h : t.tables = s.tables) (a : Nat) : t.entry a = s.entry a := by
  unfold State.entry; rw [h]

theorem holdCap_of_tables (h : t.tables = s.tables) (a : Nat) : t.holdCap a = s.holdCap a := by
  unfold State.holdCap; rw [entry_of_tables h]

theorem slot_of_slots (h : t.shadow.slots = s.shadow.slots) (i : Nat) : t.slot i = s.slot i := by
  unfold State.slot; rw [h]

theorem replayList_of_lists (h : t.shadow.lists = s.shadow.lists) (a : Nat) : t.replayList a = s.replayList a := by
  unfold State.replayList; rw [h]

theorem HoldsBut.congr {d : Set Nat} (h : HoldsBut d s) (htables : t.tables = s.tables) (hhold : t.hold = s.hold)
    (hstates : ∀ a, (t.nodeState a).isAbsent = false → (s.nodeState a).isAbsent = false ∨ s.queue a = []) :
    HoldsBut d t := by
  refine ⟨fun a ha => ?_, ?_, fun a he ha => ?_⟩
  · rw [queue_congr hhold, holdCap_of_tables htables]; exact h.caps a ha
  · rw [heldCount_congr hhold]; exact h.pool
  · rw [queue_congr hhold]
    rw [entry_of_tables htables] at he
    exact (hstates a ha).elim (h.present a he) id

theorem ShadowsBut.congr {d : Set Nat} {old : Tables} (h : ShadowsBut d old s) (htables : t.tables = s.tables)
    (hslots : t.shadow.slots = s.shadow.slots) (hlists : t.shadow.lists = s.shadow.lists)
    (hstates : ∀ i r, s.slot i = some r → r.marked = true → t.nodeState r.node = .online → s.nodeState r.node = .online) :
    ShadowsBut d old t := by
  refine ⟨by rw [htables]; exact h.fits, fun a ha => ?_, fun i r hr hd => ?_, fun i r hr => ?_, fun i r hr hm honline => ?_⟩
  · unfold State.Lists
    simp only [replayList_of_lists hlists, slot_of_slots hslots]
    exact h.lists a ha
  · rw [slot_of_slots hslots] at hr
    rw [htables]; exact h.places i r hr hd
  · rw [slot_of_slots hslots] at hr
    exact h.olds i r hr
  · rw [slot_of_slots hslots] at hr
    exact h.pending i r hr hm (hstates i r hr hm honline)

theorem Steady.refl (s : State) : Steady s s := ⟨⟨rfl, rfl, rfl, rfl⟩, fun _ => .inl rfl⟩

theorem Steady.trans {u : State} (h : Steady s t) (g : Steady t u) : Steady s u :=
  ⟨h.records.trans g.records, fun a => (g.states a).elim
    (fun heq => (h.states a).imp heq.trans fun habsent => by rw [heq]; exact habsent) .inr⟩

theorem Steady.after {u : State} (g : Steady t u) (h : Steady s t) : Steady s u := h.trans g

/-- Only other blocks change. -/
theorem steady_of_eq (htables : t.tables = s.tables) (hhold : t.hold = s.hold) (hshadow : t.shadow = s.shadow)
    (hrestore : t.restore = s.restore) : Steady s t :=
  ⟨⟨htables, hhold, by rw [hshadow], by rw [hshadow]⟩, fun a => .inl (nodeState_congr hrestore a)⟩

theorem Reports.steady (h : Reports s t) : Steady s t := by
  obtain ⟨_, _, rfl⟩ := h
  exact steady_of_eq rfl rfl rfl rfl

theorem SameBlocks.sameRecords (h : SameBlocks s t) : SameRecords s t :=
  ⟨h.tables, h.hold, by rw [h.shadow], by rw [h.shadow]⟩

theorem OnlyTransfers.sameRecords (h : OnlyTransfers s t) : SameRecords s t := h.sameBlocks.sameRecords

theorem steady_mapRuntime {f : Runtime → Runtime} (hf : ∀ r, (f r).state = r.state ∨ (f r).state.isAbsent = true) (a : Nat)
    (s : State) : Steady s (s.mapRuntime a f) := by
  refine ⟨(onlyTransfers_mapRuntime s a f).sameRecords, fun b => ?_⟩
  by_cases hb : b = a
  · subst hb
    cases hr : s.runtime b with
    | none => rw [mapRuntime_of_none hr]; exact .inl rfl
    | some r =>
      rw [nodeState_of_runtime (runtime_mapRuntime_same hr f), nodeState_of_runtime hr]
      exact hf r
  · unfold State.nodeState
    rw [runtime_mapRuntime_other s hb]
    exact .inl rfl

/-- A record rewritten without its state. -/
theorem steady_rewrite (s : State) (a : Nat) (f : Runtime → Runtime) (hf : ∀ r, (f r).state = r.state := by exact fun _ => rfl) :
    Steady s (s.mapRuntime a f) := steady_mapRuntime (fun r => .inl (hf r)) a s

theorem Kept.steady (h : Kept x s) (g : Steady s t) : Kept x t := by
  refine ⟨fun hp => (h.1 hp).congr g.records.tables g.records.hold fun a ha => ?_,
    fun hp => (h.2 hp).congr g.records.tables g.records.slots g.records.lists fun i r _ _ ht => ?_⟩
  · rcases g.states a with heq | habsent
    · rw [heq] at ha; exact .inl ha
    · rw [ha] at habsent; exact nomatch habsent
  · rcases g.states r.node with heq | habsent
    · exact heq.symm.trans ht
    · rw [ht] at habsent; exact nomatch habsent

theorem Kept.reports (h : Kept x s) (g : Reports s t) : Kept x t := h.steady g.steady

/-! ### A hold queue that gets no longer -/

theorem heldCount_setQueue_outside (ha : ¬ isAddress a = true) (q : List HoldEntry) : (s.setQueue a q).heldCount = s.heldCount := by
  unfold State.heldCount
  congr 2
  funext b
  rw [queue_setQueue, if_neg fun h => ha h.2]

theorem HoldsBut.setQueue {d : Set Nat} (h : HoldsBut d s) (a : Nat) {q : List HoldEntry}
    (hq : q.length ≤ (s.queue a).length) : HoldsBut d (s.setQueue a q) := by
  have hlength : ∀ b, ((s.setQueue a q).queue b).length ≤ (s.queue b).length := fun b => by
    rw [queue_setQueue]
    split
    · next hab => rw [← hab.1]; exact hq
    · exact Nat.le_refl _
  refine ⟨fun b hb => (hlength b).trans (h.caps b hb), ?_, fun b he hb => ?_⟩
  · by_cases ha : isAddress a = true
    · have hcount := heldCount_setQueue s ha q
      have hpool := h.pool
      omega
    · rw [heldCount_setQueue_outside ha]; exact h.pool
  · have hnone := h.present b he hb
    have hle := hlength b
    rw [hnone] at hle
    exact List.eq_nil_of_length_eq_zero (Nat.le_zero.1 hle)

theorem Kept.setQueue (h : Kept x s) (a : Nat) {q : List HoldEntry} (hq : q.length ≤ (s.queue a).length) :
    Kept x (s.setQueue a q) :=
  ⟨fun hp => (h.1 hp).setQueue a hq, fun hp => (h.2 hp).congr rfl rfl rfl fun _ _ _ _ ht => ht⟩

/-! ### An append to the queue of an absent node (R127, R128) -/

theorem HoldsBut.appendHold {d : Set Nat} (h : HoldsBut d s) (ha : (s.nodeState a).isAbsent = true) (y : HeldFrame) :
    HoldsBut d (Machine.appendHold a y s).1 := by
  cases hn : s.entry a with
  | none => rw [appendHold_unconfigured hn]; exact h
  | some n =>
    by_cases hholds : s.Holds a n
    · have hcount := heldCount_appendHold_le a y s
      rw [appendHold_made hn hholds] at hcount ⊢
      obtain ⟨hroom, hfree⟩ := id hholds
      rw [holdFree_eq] at hfree
      refine ⟨fun b hb => ?_, by omega, fun b he hb => ?_⟩
      · rw [queue_setQueue]
        split
        · next hab =>
          rw [← hab.1, show (s.setQueue a _).holdCap a = n.holdCap from by rw [State.holdCap, show (s.setQueue a _).entry a = _ from hn]]
          rw [List.length_append]
          exact hroom
        · exact h.caps b hb
      · rw [queue_setQueue, if_neg ?_]
        · exact h.present b he hb
        · rintro ⟨rfl, -⟩
          rw [show (s.setQueue a _).nodeState a = s.nodeState a from rfl, ha] at hb
          exact nomatch hb
    · rw [appendHold_full hn (by unfold State.Holds at hholds; omega)]
      exact h

theorem Kept.appendHold (h : Kept x s) (ha : (s.nodeState a).isAbsent = true) (y : HeldFrame) :
    Kept x (Machine.appendHold a y s).1 := by
  have hstores := stores_appendHold a y s
  refine ⟨fun hp => (h.1 hp).appendHold ha y, fun hp => (h.2 hp).congr ?_ ?_ ?_ fun i r _ _ ht => ?_⟩
  · obtain ⟨_, _, _, _, heq⟩ := hstores
    rw [heq]
  · rw [shadow_appendHold]
  · rw [shadow_appendHold]
  · rwa [hstores.nodeState] at ht

/-! ### A capture (R109, R111, R112, R117) -/

theorem range_of_fits {t : Tables} (h : t.firstFault = none) :
    (∀ a, ¬ t.Long a) ∧ ∀ x y, x < y → ¬ t.Shares x y := by
  unfold Tables.firstFault at h
  split at h
  · exact nomatch h
  · next hrange =>
    split at h
    · exact nomatch h
    · next hoverlap => exact ⟨rangeFault_eq_none.1 hrange, overlapFault_eq_none.1 hoverlap⟩

theorem lt_of_places {t : Tables} (h : t.firstFault = none) {i : Nat} {r : ShadowRecord} (hi : t.Places i r) : i < 96 := by
  obtain ⟨e, he, hr, rfl⟩ := hi
  by_contra hlt
  exact (range_of_fits h).1 r.node ⟨e, he, by omega⟩

/-- No two nodes have a slot in common (R188, test 2). -/
theorem node_of_places {t : Tables} (h : t.firstFault = none) {i : Nat} {r v : ShadowRecord} (hr : t.Places i r)
    (hv : t.Places i v) : r.node = v.node := by
  obtain ⟨e, he, hre, hi⟩ := hr
  obtain ⟨n, hn, hvn, hi'⟩ := hv
  have hapart := (range_of_fits h).2
  rcases Nat.lt_trichotomy r.node v.node with hlt | heq | hgt
  · exact absurd ⟨e, n, i, he, hn, by omega⟩ (hapart _ _ hlt)
  · exact heq
  · exact absurd ⟨n, e, i, hn, he, by omega⟩ (hapart _ _ hgt)

theorem places_of_poolSlot {k i : Nat} (hi : s.poolSlot a k = some i) (c : CapturedFrame) (m : Bool) :
    s.tables.Places i (capturedRecord a k c m) := by
  unfold State.poolSlot at hi
  split at hi
  · next e he =>
    split at hi
    · next hk => exact ⟨e, he, hk, (Option.some.inj hi).symm⟩
    · exact nomatch hi
  · exact nomatch hi

/-- What a slot held before a capture into it was its node's, or a record still to be cleared. -/
theorem ShadowsBut.occupant {d : Set Nat} {old : Tables} (h : ShadowsBut d old s) {k i : Nat} (hi : s.poolSlot a k = some i)
    {r : ShadowRecord} (hr : s.slot i = some r) (hd : r.node ∉ d) : r.node = a :=
  node_of_places h.fits (h.places i r hr hd) (places_of_poolSlot hi ⟨.defaultRule, .forget, .command, 0, []⟩ false)

theorem Captured.lists_kept {d : Set Nat} {old : Tables} {k i : Nat} {c : CapturedFrame} {m mark : Bool} (h : ShadowsBut d old s)
    (hi : s.poolSlot a k = some i) (hc : Captured s t a i (capturedRecord a k c m) mark) {b : Nat} (hb : b ∉ d) :
    t.Lists b := by
  obtain ⟨e, he, -⟩ := places_of_poolSlot hi c m
  have haddress : isAddress a = true := isAddress_of_node he
  have hlt : i < 96 := lt_of_places h.fits (places_of_poolSlot hi c m)
  obtain ⟨hnodup, hmem⟩ := h.lists b hb
  unfold State.Lists
  simp only [hc.lists, hc.slots, hlt, and_true, haddress]
  by_cases hab : a = b
  · subst hab
    simp only [if_true]
    refine ⟨List.Nodup.append (hnodup.filter _) (List.nodup_singleton i) ?_, fun j => ?_⟩
    · intro j hj hji
      rw [List.mem_singleton.1 hji] at hj
      exact of_decide_eq_true (List.mem_filter.1 hj).2 rfl
    · by_cases hj : j = i
      · subst hj
        simp [capturedRecord]
      · simp [hj, hmem]
  · simp only [hab, if_false]
    refine ⟨hnodup, fun j => ?_⟩
    by_cases hj : j = i
    · subst hj
      simp only [if_true, Option.some.injEq, exists_eq_left']
      refine iff_of_false (fun hlisted => ?_) hab
      obtain ⟨r, hr, hnode⟩ := (hmem j).1 hlisted
      exact hab ((h.occupant hi hr (by rw [hnode]; exact hb)).symm.trans hnode)
    · rw [if_neg hj]
      exact hmem j

/-- A capture keeps the slots sound: one with the mark for a node that is not ONLINE, one without it for any node. -/
theorem ShadowsBut.capture {d : Set Nat} {old : Tables} (h : ShadowsBut d old s) (ha : a ∉ d) {mark : Bool}
    (honline : s.nodeState a = .online → mark = false ∧ d = ∅) (k : Nat) (c : CapturedFrame) :
    ShadowsBut d old (Machine.capture a k c mark s).1 := by
  cases hi : s.poolSlot a k with
  | none =>
    rw [capture_miss hi]
    obtain ⟨-, hshadow, -, hstores⟩ := shadowMiss_spec s
    refine h.congr ?_ (by rw [hshadow]) (by rw [hshadow]) fun i r _ _ ht => by rwa [hstores.nodeState] at ht
    obtain ⟨_, _, _, _, heq⟩ := hstores
    rw [heq]
  | some i =>
    obtain ⟨-, hc⟩ := capture_spec hi c mark
    generalize (Machine.capture a k c mark s).1 = u at hc
    have hlt : i < 96 := lt_of_places h.fits (places_of_poolSlot hi c mark)
    obtain ⟨y, hy⟩ := id hc.frame
    have htables : u.tables = s.tables := by rw [hy]; rfl
    have hstate : ∀ b, u.nodeState b = s.nodeState b := hc.frame.stores.nodeState
    have hslot : ∀ j r, u.slot j = some r →
        (j = i ∧ r = capturedRecord a k c (mark || s.slotPending i)) ∨ s.slot j = some r := fun j r hr => by
      rw [hc.slots] at hr
      split at hr
      · next hj => exact .inl ⟨hj.1, (Option.some.inj hr).symm⟩
      · exact .inr hr
    refine ⟨by rw [htables]; exact h.fits, fun b hb => hc.lists_kept h hi hb, fun j r hr hd => ?_, fun j r hr hd => ?_,
      fun j r hr hm => ?_⟩
    · rw [htables]
      rcases hslot j r hr with ⟨rfl, rfl⟩ | hr
      · exact places_of_poolSlot hi c _
      · exact h.places j r hr hd
    · rcases hslot j r hr with ⟨rfl, rfl⟩ | hr
      · exact absurd hd ha
      · exact h.olds j r hr hd
    · rw [hstate]
      rcases hslot j r hr with ⟨rfl, rfl⟩ | hr
      · intro hat
        obtain ⟨rfl, rfl⟩ := honline hat
        simp only [capturedRecord, Bool.false_or] at hm
        unfold State.slotPending at hm
        split at hm
        · next v hv =>
          refine h.pending j v hv hm ?_
          rw [h.occupant hi hv (Set.notMem_empty _)]
          exact hat
        · exact nomatch hm
      · exact h.pending j r hr hm

theorem Kept.capture (h : Kept x s) (ha : a ∉ x.slots) {mark : Bool}
    (honline : s.nodeState a = .online → mark = false ∧ x.slots = ∅) (k : Nat) (c : CapturedFrame) :
    Kept x (Machine.capture a k c mark s).1 := by
  have hstores := stores_capture a k c mark s
  refine ⟨fun hp => (h.1 hp).congr ?_ (hold_capture ..) fun b hb => ?_, fun hp => (h.2 hp).capture ha honline k c⟩
  · obtain ⟨_, _, _, _, heq⟩ := hstores
    rw [heq]
  · rw [hstores.nodeState] at hb
    exact .inl hb

theorem Kept.captureLatest (h : Kept x s) (ha : a ∉ x.slots) (habsent : (s.nodeState a).isAbsent = true) (slot : Option Nat)
    (c : CapturedFrame) : Kept x (Machine.captureLatest a slot c s).1 := by
  unfold Machine.captureLatest
  split
  · exact h.capture ha (fun honline => by rw [honline] at habsent; exact nomatch habsent) _ c
  · exact h

/-! ### Returned pass frames (R72, R104, R105) -/

theorem Kept.absentTreatment (h : Kept x s) (ha : a ∉ x.slots) (habsent : (s.nodeState a).isAbsent = true) (e : PassEntry) :
    Kept x (Machine.absentTreatment e a s) := by
  unfold Machine.absentTreatment
  split
  · exact h.appendHold habsent _
  · exact h.captureLatest ha habsent _ _
  · exact h

theorem Kept.answerPass (h : Kept x s) (e : PassEntry) (c : AnswerCode) (body : List Byte) :
    Kept x (Machine.answerPass e c body s) := h.steady (steady_of_eq rfl rfl rfl rfl)

theorem Kept.disposeReturned {e : PassEntry} (h : Kept x s) (ha : e.destination ∉ x.slots)
    (habsent : (s.nodeState e.destination).isAbsent = true) : Kept x (Machine.disposeReturned e s) := by
  unfold Machine.disposeReturned
  split
  · exact (h.appendHold habsent _).answerPass _ _ _
  · exact (h.captureLatest ha habsent _ _).answerPass _ _ _
  · exact h.answerPass _ _ _

theorem Kept.walkReturned {l : List Nat} (hl : ∀ a ∈ l, a ∉ x.slots) (q : List PassEntry) {s : State} (h : Kept x s)
    (habsent : ∀ a ∈ l, (s.nodeState a).isAbsent = true) : Kept x (Machine.walkReturned l q s).2 := by
  induction q generalizing s with
  | nil => exact h
  | cons e q ih =>
    unfold Machine.walkReturned
    split
    · have hstep : ∀ a ∈ e.live.filter (l.contains ·), ∀ u, Kept x u ∧ Stores s u →
          Kept x (Machine.absentTreatment e a u) ∧ Stores s (Machine.absentTreatment e a u) := fun a ha u hu => by
        have hmem : a ∈ l := by simpa using (List.mem_filter.1 ha).2
        exact ⟨hu.1.absentTreatment (hl a hmem) (by rw [hu.2.nodeState]; exact habsent a hmem) e,
          hu.2.trans (stores_absentTreatment e a u)⟩
      obtain ⟨hkept, hstores⟩ := forNodes_keeps_of_mem _ hstep ⟨h, Stores.refl s⟩
      exact ih hkept fun a ha => by rw [hstores.nodeState]; exact habsent a ha
    · split
      · next hmem =>
        have hmem : e.destination ∈ l := by simpa using hmem
        refine ih (h.disposeReturned (hl _ hmem) (habsent _ hmem)) fun a ha => ?_
        rw [(stores_disposeReturned e s).nodeState]
        exact habsent a ha
      · exact ih h habsent

theorem Kept.returnPasses {l : List Nat} (h : Kept x s) (hl : ∀ a ∈ l, a ∉ x.slots)
    (habsent : ∀ a ∈ l, (s.nodeState a).isAbsent = true) : Kept x (Machine.returnPasses l s) := by
  have hurgent := h.walkReturned hl s.segment.urgent habsent
  have hnormal := hurgent.walkReturned hl s.segment.normal fun a ha => by
    rw [(stores_walkReturned l _ s).nodeState]; exact habsent a ha
  exact hnormal.steady (steady_of_eq rfl rfl rfl rfl)

end

end Sys2Proof.Machine
end

section
/-! SUPPORT. The moves between node states keep the hold queues and the shadow slots sound (R47, R72, R117, R127). -/

namespace Sys2Proof.Machine

section
variable {s t : State} {x : Terms} {a : Nat}

/-! ### Steps, sessions and buffers keep every node's state (R39, R148, R159) -/

theorem steady_forNodes {f : Nat → State → State} (hf : ∀ a s, Steady s (f a s)) (l : List Nat) (s : State) :
    Steady s (forNodes l f s) :=
  forNodes_keeps (P := Steady s) (fun a t h => h.trans (hf a t)) l (.refl s)

theorem steady_cancelStep (a : Nat) (s : State) : Steady s (cancelStep a s) := steady_rewrite s a _

theorem steady_offerKind (a : Nat) (k : StepKind) (s : State) : Steady s (offerKind a k s) := steady_rewrite s a _

theorem steady_mapSession (s : State) (a : Nat) (f : Session → Session) : Steady s (s.mapSession a f) :=
  steady_rewrite s a _

theorem steady_withStore (s : State) (m : ImageStore) : Steady s (s.withStore m) := steady_of_eq rfl rfl rfl rfl

/-- The Restore Engine changes apart from its nodes. -/
theorem steady_withRestore (s : State) {e : RestoreEngine} (h : e.nodes = s.restore.nodes) : Steady s (s.withRestore e) :=
  ⟨⟨rfl, rfl, rfl, rfl⟩, fun b => .inl (by
    unfold State.nodeState State.runtime
    rw [State.withRestore_restore, h])⟩

theorem steady_setBuffer (s : State) (b : Nat) (v : Buffer) : Steady s (s.setBuffer b v) := steady_withRestore s rfl

theorem steady_chooseAccess (s : State) : Steady s (chooseAccess s) := by
  unfold chooseAccess
  split
  · exact .refl s
  · split
    · exact steady_withStore s _
    · split
      · exact steady_withStore s _
      · exact .refl s

theorem steady_requestRead (q : ReadRequest) (s : State) : Steady s (requestRead q s) :=
  (steady_withStore s _).trans (steady_chooseAccess _)

theorem steady_startRead (a b : Nat) (s : State) : Steady s (startRead a b s) := by
  unfold startRead
  split
  · exact .refl s
  · exact (steady_requestRead _ _).after ((steady_setBuffer _ b _).after (steady_rewrite s a _))

theorem steady_freeBuffer (b : Nat) (s : State) : Steady s (freeBuffer b s) := by
  unfold freeBuffer
  split
  · exact steady_setBuffer s b _
  · refine ((steady_setBuffer s b .free).trans (steady_withRestore _ ?_)).trans (steady_startRead _ b _)
    rfl

theorem steady_askBuffer (a : Nat) (s : State) : Steady s (askBuffer a s) := by
  unfold askBuffer
  split
  · exact steady_startRead a _ s
  · exact Steady.after (steady_withRestore _ rfl) (steady_rewrite s a _)

theorem steady_releaseBuffer (a : Nat) (s : State) : Steady s (releaseBuffer a s) := by
  unfold releaseBuffer
  split
  · have hgiven := steady_mapSession s a fun x => { x with buffer := none, request := .none }
    dsimp only
    split
    · exact (steady_setBuffer _ _ _).after hgiven
    · exact (steady_freeBuffer _ _).after hgiven
  · exact .refl s

theorem steady_addReader (i : Nat) (s : State) : Steady s (addReader i s) := by
  unfold addReader
  split
  · exact steady_withStore s _
  · exact .refl s

theorem steady_dropReader (i : Nat) (s : State) : Steady s (dropReader i s) := by
  unfold dropReader
  split
  · exact steady_withStore s _
  · exact .refl s

theorem steady_leaveWaiting (a : Nat) (s : State) : Steady s (leaveWaiting a s) := steady_withRestore s rfl

theorem steady_endSession (a : Nat) (s : State) : Steady s (endSession a s) := by
  unfold endSession
  split
  · exact .refl s
  · exact (steady_rewrite _ a _).after ((steady_dropReader _ _).after ((steady_releaseBuffer a _).after
      ((steady_leaveWaiting a _).after (steady_cancelStep a s))))

/-! ### Moves to an absent state (section 3.3) -/

/-- The record moves to an absent state. -/
theorem steady_enter (s : State) (a : Nat) (f : Runtime → Runtime)
    (hf : ∀ r, (f r).state.isAbsent = true := by exact fun _ => rfl) : Steady s (s.mapRuntime a f) := steady_mapRuntime (fun r => .inr (hf r)) a s

theorem steady_enterSuspect (a : Nat) (phase : NodeState) (s : State) : Steady s (enterSuspect a phase s) :=
  steady_enter s a _

theorem steady_enterReplay (a : Nat) (s : State) : Steady s (enterReplay a s) := steady_enter s a _

theorem steady_enterRelease (a : Nat) (s : State) : Steady s (enterRelease a s) := steady_enter s a _

theorem steady_enterConfig (a : Nat) (s : State) : Steady s (enterConfig a s) := steady_enter s a _

theorem steady_enterMissing (a : Nat) (s : State) : Steady s (enterMissing a s) :=
  (reports_offerNodeState a .missing _).steady.after (steady_enter s a _ fun r => by dsimp only; split <;> rfl)

theorem steady_enterAwaitBoot (a : Nat) (base : Time) (s : State) : Steady s (enterAwaitBoot a base s) := by
  unfold enterAwaitBoot
  split
  · exact .refl s
  · next e _ =>
    have hmoved := steady_enter s a (fun r =>
      if reached s.now (after base (e.bootMin * 10)) then
        { r.move .awaitBoot with
          misses := 0, window := some (after base (e.bootMin * 10), after base (e.bootMax * 10)), step := r.step.offer .probe }
      else
        { r.move .awaitBoot with
          misses := 0, window := some (after base (e.bootMin * 10), after base (e.bootMax * 10))
          nextProbe := some (after base (e.bootMin * 10)), step := r.step.wait }) fun r => by split <;> rfl
    dsimp only
    split
    · exact (steady_enterMissing a _).after ((steady_cancelStep a _).after hmoved)
    · exact hmoved

theorem steady_joinGapSet (a : Nat) (s : State) : Steady s (joinGapSet a s) := steady_of_eq rfl rfl rfl rfl

theorem steady_suspendMember (a : Nat) (s : State) : Steady s (suspendMember a s) :=
  ((steady_cancelStep a s).trans (steady_endSession a _)).trans (steady_enterSuspect a _ _)

theorem steady_enterImage (a k i : Nat) (e : ImageEntry) (reported : Option ImageState) (s : State) :
    Steady s (enterImage a k i e reported s) :=
  (steady_askBuffer a _).after ((steady_rewrite _ a _).after ((steady_addReader i _).after (steady_enter s a _)))

/-! ### Entry to PROBE and SUSPECT: the pass frames of a node that leaves ONLINE come back (R42, R58, R72) -/

theorem runtime_of_nodeState {st : NodeState} (h : s.nodeState a = st) (hst : st ≠ .unconfigured) :
    ∃ r, s.runtime a = some r := by
  cases hr : s.runtime a with
  | none => exact absurd ((nodeState_of_none hr).symm.trans h).symm hst
  | some r => exact ⟨r, rfl⟩

theorem nodeState_mapRuntime {r : Runtime} (hr : s.runtime a = some r) (f : Runtime → Runtime) :
    (s.mapRuntime a f).nodeState a = (f r).state := nodeState_of_runtime (runtime_mapRuntime_same hr f)

theorem Kept.returnLeaving (h : Kept x s) (ha : a ∉ x.slots) (habsent : (s.nodeState a).isAbsent = true) :
    Kept x (Machine.returnPasses [a] s) := by
  refine h.returnPasses (fun b hb => ?_) fun b hb => ?_
  · rw [List.mem_singleton.1 hb]; exact ha
  · rw [List.mem_singleton.1 hb]; exact habsent

theorem Kept.enterProbe (h : Kept x s) (ha : a ∉ x.slots) : Kept x (Machine.enterProbe a s) := by
  have hmoved := h.steady (steady_enter s a fun r =>
    { r.move .probe with misses := 0, bootCount := r.countOnDoubt, step := r.step.offer .probe })
  unfold Machine.enterProbe
  dsimp only
  split
  · next honline =>
    obtain ⟨r, hr⟩ := runtime_of_nodeState honline nofun
    exact hmoved.returnLeaving ha (by rw [nodeState_mapRuntime hr]; rfl)
  · exact hmoved

theorem Kept.enterProbeOrSuspect (h : Kept x s) (ha : a ∉ x.slots) : Kept x (Machine.enterProbeOrSuspect a s) := by
  unfold Machine.enterProbeOrSuspect
  split
  · have hmoved := h.steady ((steady_enterSuspect a .probe s).trans (steady_joinGapSet a _))
    dsimp only
    split
    · next honline =>
      obtain ⟨r, hr⟩ := runtime_of_nodeState honline nofun
      refine hmoved.returnLeaving ha ?_
      rw [show (joinGapSet a (enterSuspect a .probe s)).nodeState a = (enterSuspect a .probe s).nodeState a from rfl,
        show (enterSuspect a .probe s).nodeState a = _ from nodeState_mapRuntime hr _]
      rfl
    · exact hmoved
  · exact h.enterProbe ha

/-! ### Moves to a present state (R47, R53, R54) -/

/-- A node enters a present state with its queue empty, and ONLINE only with no slot of its own pending. -/
theorem Kept.move (h : Kept x s) (hsame : SameRecords s t)
    (hstates : ∀ b, t.nodeState b = s.nodeState b ∨ (t.nodeState b).isAbsent = true ∨
      s.queue b = [] ∧ (t.nodeState b = .online → x.shadow → ∀ i r, s.slot i = some r → r.marked = true → r.node ≠ b)) :
    Kept x t := by
  refine ⟨fun hp => (h.1 hp).congr hsame.tables hsame.hold fun b hb => ?_,
    fun hp => (h.2 hp).congr hsame.tables hsame.slots hsame.lists fun i r hr hm ht => ?_⟩
  · rcases hstates b with heq | habsent | hempty
    · rw [heq] at hb; exact .inl hb
    · rw [hb] at habsent; exact nomatch habsent
    · exact .inr hempty.1
  · rcases hstates r.node with heq | habsent | hempty
    · exact heq.symm.trans ht
    · rw [ht] at habsent; exact nomatch habsent
    · exact absurd rfl (hempty.2 ht hp i r hr hm)

theorem nodeState_mapRuntime_other {b : Nat} (hb : b ≠ a) (f : Runtime → Runtime) (s : State) :
    (s.mapRuntime a f).nodeState b = s.nodeState b := by
  unfold State.nodeState; rw [runtime_mapRuntime_other s hb]

theorem not_pending {d : Set Nat} {old : Tables} (h : ShadowsBut d old s) (ha : a ∉ d) (hnone : s.hasPending a = false)
    {i : Nat} {r : ShadowRecord} (hr : s.slot i = some r) (hm : r.marked = true) : r.node ≠ a := fun hnode => by
  have hlisted : i ∈ s.replayList a := ((h.lists a ha).2 i).2 ⟨r, hr, hnode⟩
  have hpending : i ∈ s.pendingSlots a :=
    List.mem_filter.2 ⟨hlisted, by unfold State.slotPending; rw [hr]; exact hm⟩
  unfold State.hasPending at hnone
  rw [Bool.not_eq_false', List.isEmpty_iff] at hnone
  rw [hnone] at hpending
  exact nomatch hpending

theorem Kept.enterOnline (h : Kept x s) (ha : a ∉ x.slots) (hpending : s.hasPending a = false) (hqueue : s.queue a = []) :
    Kept x (Machine.enterOnline a s) := by
  refine Kept.reports (h.move (onlyTransfers_mapRuntime s a _).sameRecords fun b => ?_) (reports_offerNodeState a .online _)
  by_cases hb : b = a
  · subst hb
    exact .inr (.inr ⟨hqueue, fun _ hx i r hr hm => not_pending (h.2 hx) ha hpending hr hm⟩)
  · exact .inl (nodeState_mapRuntime_other hb _ s)

/-- The onward choice leads to ONLINE only with no pending slot and no held frame (R47). -/
theorem Kept.onward (h : Kept x s) (ha : a ∉ x.slots) : Kept x (Machine.onward a s) := by
  unfold Machine.onward
  split
  · exact h.steady (steady_enterReplay a s)
  · next hpending =>
    split
    · exact h.steady (steady_enterRelease a s)
    · next hqueue =>
      refine h.enterOnline ha (by simpa using hpending) (List.isEmpty_iff.1 ?_)
      simpa using hqueue

theorem Kept.discardQueue (h : Kept x s) (a : Nat) : Kept x (Machine.discardQueue a s) := by
  have hreports := reports_reportDiscarded (s.queue a) s
  exact (h.reports hreports).setQueue a (Nat.zero_le _)

theorem queue_setQueue_nil (s : State) (a : Nat) : (s.setQueue a []).queue a = [] := by
  rw [queue_setQueue]
  split
  · rfl
  · next hout => exact queue_outside s fun ha => hout ⟨rfl, ha⟩

/-- Entry to FAILED or ISOLATED, once the session has ended: the queue goes with the move. -/
theorem Kept.leave (h : Kept x s) {f : Runtime → Runtime} (hf : ∀ r, (f r).state ≠ .online) (c : AnswerCode) (st : NodeState) :
    Kept x (offerNodeState a st (Machine.discardQueue a (refusePasses a c (s.mapRuntime a f)))) := by
  have hempty : Kept x (s.setQueue a []) := h.setQueue a (Nat.zero_le _)
  refine Kept.reports ?_ (reports_offerNodeState a st _)
  obtain ⟨g, u, hu, hrefused⟩ := refusePasses_only a c (s.mapRuntime a f)
  rw [hrefused]
  have hmoved := (onlyTransfers_mapRuntime s a f).sameRecords
  have hrest := (hu.steady.trans (steady_of_eq (t := u.withSegment g) rfl rfl rfl rfl)).trans
    (reports_reportDiscarded ((u.withSegment g).queue a) (u.withSegment g)).steady
  have hstate : ∀ b, (Machine.discardQueue a (u.withSegment g)).nodeState b = (s.mapRuntime a f).nodeState b := fun b => by
    refine (nodeState_congr (discardQueue_restore a (u.withSegment g)).1 b).trans ?_
    exact hu.stores.nodeState b
  have hrecords := hmoved.trans hrest.records
  refine hempty.move ⟨hrecords.tables, ?_, hrecords.slots, hrecords.lists⟩ fun b => ?_
  · show (State.setQueue _ a []).hold = (s.setQueue a []).hold
    unfold State.setQueue
    rw [State.withHold_hold, State.withHold_hold, hrecords.hold]
  · by_cases hb : b = a
    · subst hb
      refine .inr (.inr ⟨queue_setQueue_nil s b, fun honline => ?_⟩)
      rw [hstate] at honline
      obtain ⟨r, hr⟩ := runtime_of_nodeState honline nofun
      rw [runtime_mapRuntime, if_pos rfl] at hr
      obtain ⟨v, hv, -⟩ := Option.map_eq_some_iff.1 hr
      exact absurd ((nodeState_mapRuntime hv f).symm.trans honline) (hf v)
    · exact .inl ((hstate b).trans (nodeState_mapRuntime_other hb f s))

theorem Kept.enterFailed (h : Kept x s) (a : Nat) : Kept x (Machine.enterFailed a s) :=
  ((h.steady (steady_cancelStep a s)).steady (steady_endSession a _)).leave (by exact fun _ => nofun) .nodeFailed .failed

theorem Kept.enterIsolated (h : Kept x s) (a : Nat) : Kept x (Machine.enterIsolated a s) :=
  ((h.steady (steady_cancelStep a s)).steady (steady_endSession a _)).leave (by exact fun _ => nofun) .nodeIsolated .isolated

/-! ### Expiries and orphans (R121, R130, R131, R138) -/

theorem Kept.makeReport (h : Kept x s) (e : HoldEntry) (c : AnswerCode) (rest : List Byte) :
    Kept x (Machine.makeReport e c rest s) := h.reports (reports_makeReport e c rest s)

theorem Kept.releaseAfterExpiry (h : Kept x s) (ha : a ∉ x.slots) (headGone : Bool) :
    Kept x (Machine.releaseAfterExpiry a headGone s) := by
  unfold Machine.releaseAfterExpiry
  split
  · split
    · split
      · exact h
      · exact h.onward ha
    · split
      · exact h.steady (steady_rewrite s a _)
      · exact h
  · exact h

theorem Kept.expireEntry (h : Kept x s) (ha : a ∉ x.slots) (place : Nat) (e : HoldEntry) :
    Kept x (Machine.expireEntry a place e s) :=
  ((h.setQueue a (List.length_eraseIdx_le _ _)).makeReport e .expired []).releaseAfterExpiry ha _

theorem steady_setReplayInFlight (s : State) (a : Nat) (v : Option ReplayInFlight) : Steady s (s.setReplayInFlight a v) :=
  ⟨⟨rfl, rfl, rfl, rfl⟩, fun _ => .inl rfl⟩

theorem Kept.clearInFlight (h : Kept x s) (ha : a ∉ x.slots) : Kept x (Machine.clearInFlight a s) := by
  have hcleared := h.steady (steady_setReplayInFlight s a none)
  unfold Machine.clearInFlight
  dsimp only
  generalize s.setReplayInFlight a none = u at hcleared
  split
  · exact hcleared
  · have hmarked : Kept x (u.setQueue a ((u.queue a).map fun e => { e with inFlight := false })) :=
      hcleared.setQueue a (by rw [List.length_map])
    split
    · split
      · exact hmarked.expireEntry ha _ _
      · exact hmarked
    · exact hmarked

theorem Kept.offerFirstStep (h : Kept x s) (a : Nat) : Kept x (Machine.offerFirstStep a s) := by
  refine h.steady (steady_rewrite s a _ fun r => ?_)
  split
  · rfl
  · dsimp only
    split
    · rfl
    · split
      · split <;> rfl
      · rfl
    · rfl
    · rfl
    · split <;> rfl
    · split <;> rfl
    · rfl

end

end Sys2Proof.Machine
end

section
/-! SUPPORT. The ends of transactions keep the hold queues and the shadow slots sound (chapters 3, 4, 6, 7 and 8). -/

namespace Sys2Proof.Machine

/-- Both stores are claimed sound, with no address still to treat. -/
abbrev Terms.all (p q : Prop) : Terms := { hold := p, shadow := q, queues := ∅, slots := ∅, old := .empty }

section
variable {p q : Prop} {s t : State} {a : Nat}

theorem free (a : Nat) : a ∉ (Terms.all p q).slots := Set.notMem_empty a

/-! ### Slots renewed, cleared and unmarked (R118, R120, R123) -/

/-- Slots lose their records or their marks, or are marked for a node that is not ONLINE; the lists lose the slots that become
invalid. -/
theorem ShadowsBut.rewrite {d : Set Nat} {old : Tables} (h : ShadowsBut d old s) (htables : t.tables = s.tables)
    (hstates : ∀ b, t.nodeState b = s.nodeState b)
    (hslots : ∀ i v, t.slot i = some v → ∃ r, s.slot i = some r ∧ v.node = r.node ∧ v.relative = r.relative
      ∧ (v.marked = true → r.marked = true ∨ s.nodeState r.node ≠ .online))
    (hlists : ∀ b, b ∉ d → (t.replayList b).Nodup ∧ ∀ i, i ∈ t.replayList b ↔ i ∈ s.replayList b ∧ (t.slot i).isSome = true) :
    ShadowsBut d old t := by
  have hplaces : ∀ {u : Tables} {i : Nat} {v r : ShadowRecord}, v.node = r.node → v.relative = r.relative → u.Places i r →
      u.Places i v := fun hnode hrelative ⟨e, he, hr⟩ => ⟨e, by rw [hnode]; exact he, by rw [hrelative]; exact hr⟩
  refine ⟨by rw [htables]; exact h.fits, fun b hb => ⟨(hlists b hb).1, fun i => ?_⟩, fun i v hv hd => ?_, fun i v hv hd => ?_,
    fun i v hv hm => ?_⟩
  · rw [(hlists b hb).2 i, (h.lists b hb).2 i]
    constructor
    · rintro ⟨⟨r, hr, hnode⟩, hsome⟩
      obtain ⟨v, hv⟩ := Option.isSome_iff_exists.1 hsome
      obtain ⟨r', hr', hnode', -⟩ := hslots i v hv
      rw [hr] at hr'
      cases hr'
      exact ⟨v, hv, hnode'.trans hnode⟩
    · rintro ⟨v, hv, hnode⟩
      obtain ⟨r, hr, hnode', -⟩ := hslots i v hv
      exact ⟨⟨r, hr, hnode'.symm.trans hnode⟩, by rw [hv]; rfl⟩
  · obtain ⟨r, hr, hnode, hrelative, -⟩ := hslots i v hv
    rw [htables]
    exact hplaces hnode hrelative (h.places i r hr (by rw [← hnode]; exact hd))
  · obtain ⟨r, hr, hnode, hrelative, -⟩ := hslots i v hv
    exact hplaces hnode hrelative (h.olds i r hr (by rw [← hnode]; exact hd))
  · obtain ⟨r, hr, hnode, -, hmark⟩ := hslots i v hv
    rw [hstates, hnode]
    exact (hmark hm).elim (h.pending i r hr) id

/-- Each slot keeps its record but for the mark, and no list changes. -/
theorem ShadowsBut.remark {d : Set Nat} {old : Tables} (h : ShadowsBut d old s) {i : Nat} {r : ShadowRecord}
    (hr : s.slot i = some r) (m : Bool) (hm : m = true → s.nodeState r.node ≠ .online) :
    ShadowsBut d old (s.setSlot i (some { r with marked := m })) := by
  have hslot := slot_setSlot hr (some { r with marked := m })
  refine h.rewrite rfl (fun _ => rfl) (fun j v hv => ?_) fun b hb => ⟨(h.lists b hb).1, fun j => ?_⟩
  · rw [hslot] at hv
    split at hv
    · next hij =>
      cases hv
      exact ⟨r, hij ▸ hr, rfl, rfl, fun hmark => .inr (hm hmark)⟩
    · exact ⟨v, hv, rfl, rfl, .inl⟩
  · refine (and_iff_left_of_imp fun hj => ?_).symm
    rw [hslot]
    split
    · rfl
    · obtain ⟨v, hv, -⟩ := ((h.lists b hb).2 j).1 hj
      rw [hv]
      rfl

theorem Kept.withSlots {x : Terms} {y : ShadowStore} (h : Kept x s)
    (hy : ShadowsBut x.slots x.old s → ShadowsBut x.slots x.old (s.withShadow y)) : Kept x (s.withShadow y) :=
  ⟨fun hp => (h.1 hp).congr rfl rfl fun _ hb => .inl hb, fun hq => hy (h.2 hq)⟩

theorem ShadowsBut.renewShadow {d : Set Nat} {old : Tables} (h : ShadowsBut d old s) (ha : a ∉ d)
    (hstate : s.nodeState a ≠ .online) : ShadowsBut d old (Machine.renewShadow a s) := by
  obtain ⟨y, hy⟩ := onlyShadow_renewShadow a s
  have hrenewed : ∀ i v, (Machine.renewShadow a s).slot i = some v →
      s.slot i = some v ∨ ∃ r, i ∈ s.replayList a ∧ s.slot i = some r ∧ renewed r = some v := fun i v hv => by
    rw [slot_renewShadow] at hv
    split at hv
    · next hi =>
      obtain ⟨r, hr, hv⟩ := Option.bind_eq_some_iff.1 hv
      exact .inr ⟨r, hi, hr, hv⟩
    · exact .inl hv
  refine h.rewrite (by rw [hy]; rfl) (fun b => by rw [hy]; rfl) (fun i v hv => ?_) fun b hb => ?_
  · rcases hrenewed i v hv with hv | ⟨r, hi, hr, hv⟩
    · exact ⟨v, hv, rfl, rfl, .inl⟩
    · have hnode : r.node = a := by
        obtain ⟨r', hr', hnode⟩ := ((h.lists a ha).2 i).1 hi
        rw [hr] at hr'
        cases hr'
        exact hnode
      unfold renewed at hv
      split at hv
      · exact nomatch hv
      · cases hv
        exact ⟨r, hr, rfl, rfl, fun _ => .inr (by rw [hnode]; exact hstate)⟩
  · obtain ⟨hnodup, hmem⟩ := h.lists b hb
    have hwalk : ∀ c, (forNodes (s.replayList a) renewSlot s).replayList c = s.replayList c :=
      fun c => forNodes_same (fun u => u.replayList c) (fun i u => by
        unfold renewSlot
        split
        · split <;> rfl
        · rfl) _ s
    have hlist : (Machine.renewShadow a s).replayList b =
        if a = b ∧ isAddress a = true then
          (s.replayList a).filter fun i => ((Machine.renewShadow a s).slot i).isSome
        else s.replayList b := by
      refine (replayList_setReplayList _ a b _).trans ?_
      rw [hwalk]
      rfl
    rw [hlist]
    split
    · next hab =>
      rw [← hab.1] at hnodup hmem ⊢
      exact ⟨hnodup.filter _, fun i => List.mem_filter⟩
    · next hab =>
      refine ⟨hnodup, fun i => (and_iff_left_of_imp fun hi => ?_).symm⟩
      obtain ⟨r, hr, hnode⟩ := (hmem i).1 hi
      rw [slot_renewShadow, if_neg ?_, hr]
      · rfl
      · intro hia
        obtain ⟨r', hr', hnode'⟩ := ((h.lists a ha).2 i).1 hia
        rw [hr] at hr'
        cases hr'
        obtain rfl := hnode'.symm.trans hnode
        obtain ⟨e, he, -⟩ := h.places i r hr (by rw [hnode]; exact ha)
        rw [hnode] at he
        exact hab ⟨rfl, isAddress_of_node he⟩

theorem Kept.renewShadow {x : Terms} (h : Kept x s) (ha : a ∉ x.slots) (hstate : s.nodeState a ≠ .online) :
    Kept x (Machine.renewShadow a s) := by
  obtain ⟨y, hy⟩ := onlyShadow_renewShadow a s
  rw [hy]
  exact h.withSlots fun hs => hy ▸ hs.renewShadow ha hstate

theorem Kept.clearReplayed {x : Terms} (h : Kept x s) (a : Nat) : Kept x (Machine.clearReplayed a s) := by
  unfold Machine.clearReplayed
  split
  · split
    · next r hr =>
      split
      · exact h
      · exact h.withSlots fun hs => hs.remark hr false nofun
    · exact h
  · exact h

/-! ### Image transfers (R146, R149 to R158) -/

theorem Kept.attemptFailure (h : Kept (.all p q) s) (a : Nat) : Kept (.all p q) (Machine.attemptFailure a s) := by
  have hcounted : Kept (.all p q) (countAttempt a s) := h.steady (steady_rewrite s a _)
  unfold Machine.attemptFailure
  dsimp only
  generalize countAttempt a s = u at hcounted
  split
  · exact hcounted.enterFailed a
  · split
    · exact hcounted
    · exact hcounted.steady ((steady_askBuffer a _).after ((steady_mapSession _ a _).after (steady_releaseBuffer a u)))

theorem Kept.attemptFailureOutside (h : Kept (.all p q) s) (a : Nat) (reported : Option ImageState) :
    Kept (.all p q) (Machine.attemptFailureOutside a reported s) := by
  have hcounted : Kept (.all p q) (countAttempt a (s.mapRuntime a fun r => { r with expected := none })) :=
    (h.steady (steady_rewrite s a _)).steady (steady_rewrite _ a _)
  unfold Machine.attemptFailureOutside
  dsimp only
  generalize countAttempt a (s.mapRuntime a fun r => { r with expected := none }) = u at hcounted
  split
  · exact hcounted.enterFailed a
  · split
    · exact hcounted.steady (steady_enterImage a 0 _ _ reported u)
    · exact hcounted.enterFailed a

theorem steady_blockStored (a : Nat) (s : State) : Steady s (blockStored a s) := by
  unfold blockStored
  split
  · exact .refl s
  · have hstored := steady_mapSession s a fun x =>
      { x with next := x.next + 1, remaining := x.remaining - 1, retries := 0, busyCount := 0, lastSent := .none }
    dsimp only
    split
    · exact (steady_offerKind a _ _).after ((steady_releaseBuffer a _).after hstored)
    · split
      · exact (steady_startRead a _ _).after hstored
      · exact (steady_askBuffer a _).after ((steady_releaseBuffer a _).after hstored)

theorem steady_schedulePoll (a : Nat) (s : State) : Steady s (schedulePoll a s) := steady_rewrite s a _

theorem Kept.countRetry {again : State → State} (h : Kept (.all p q) s) (a : Nat) (hagain : ∀ u, Steady u (again u)) :
    Kept (.all p q) (Machine.countRetry a again s) := by
  unfold Machine.countRetry
  split
  · exact h
  · have hcounted := h.steady (steady_mapSession s a fun x => { x with retries := x.retries + 1 })
    dsimp only
    split
    · exact hcounted.steady (hagain _)
    · exact hcounted.attemptFailure a

theorem Kept.busyAgain (h : Kept (.all p q) s) (a : Nat) : Kept (.all p q) (Machine.busyAgain a s) := by
  unfold Machine.busyAgain
  split
  · exact h
  · have hcounted := h.steady (steady_mapSession s a fun x => { x with busyCount := x.busyCount + 1 })
    dsimp only
    split
    · exact hcounted.steady (steady_schedulePoll a _)
    · exact hcounted.attemptFailure a

theorem steady_imageVerified (a : Nat) (s : State) : Steady s (imageVerified a s) := by
  unfold imageVerified
  split
  · exact .refl s
  · exact (steady_enterAwaitBoot a _ _).after ((steady_endSession a _).after (steady_rewrite s a _))

theorem Kept.blockToken (h : Kept (.all p q) s) (a : Nat) (k : Token) : Kept (.all p q) (Machine.blockToken a k s) := by
  unfold Machine.blockToken
  split
  · exact h.steady (steady_blockStored a s)
  · exact h.steady (steady_blockStored a s)
  · exact h.countRetry a (steady_offerKind a .imageBlock)
  · exact h.attemptFailure a
  · exact h.steady (steady_schedulePoll a s)

theorem Kept.endToken (h : Kept (.all p q) s) (a : Nat) (k : Token) : Kept (.all p q) (Machine.endToken a k s) := by
  unfold Machine.endToken
  split
  · exact h.steady (steady_imageVerified a s)
  · exact h.steady (steady_schedulePoll a s)
  all_goals exact h.attemptFailure a

theorem Kept.pollToken (h : Kept (.all p q) s) (a : Nat) (k : Token) : Kept (.all p q) (Machine.pollToken a k s) := by
  unfold Machine.pollToken
  split
  · exact h.busyAgain a
  · split
    · exact h.endToken a k
    · exact h.blockToken a k

theorem Kept.imageResult (h : Kept (.all p q) s) (a : Nat) (k : StepKind) (res : Result) :
    Kept (.all p q) (Machine.imageResult a k res s) := by
  unfold Machine.imageResult
  dsimp only
  have hmiss : Kept (.all p q) (match k with
    | .busyPoll => Machine.countRetry a (schedulePoll a) s
    | _ => Machine.countRetry a (offerKind a k) s) := by
    split
    · exact h.countRetry a (steady_schedulePoll a)
    · exact h.countRetry a (steady_offerKind a k)
  split
  · split
    · exact hmiss
    · split
      · exact (h.steady (steady_endSession a s)).enterProbe (free a)
      · split
        · exact h.blockToken a _
        · exact h.endToken a _
        · exact h.pollToken a _
  all_goals exact hmiss

/-! ### Probes and reconciliation (R42 to R46) -/

theorem steady_nextProbeInWindow (a : Nat) (s : State) : Steady s (nextProbeInWindow a s) :=
  steady_rewrite s a _ fun r => by split <;> rfl

theorem steady_probeMiss (a : Nat) (s : State) : Steady s (probeMiss a s) := by
  unfold probeMiss
  split
  · exact .refl s
  · split
    · have hmissed := steady_rewrite s a fun r => { r with misses := r.misses + 1 }
      dsimp only
      split
      · exact (steady_offerKind a .probe _).after hmissed
      · exact (steady_enterAwaitBoot a _ _).after hmissed
    · exact steady_nextProbeInWindow a s
    · exact steady_rewrite s a _
    · exact .refl s

theorem Kept.reconcileKept (h : Kept (.all p q) s) (a : Nat) (r : Runtime) :
    Kept (.all p q) (Machine.reconcileKept a r s) := by
  unfold Machine.reconcileKept
  split
  · exact h.onward (free a)
  · split
    · exact h.steady (steady_nextProbeInWindow a s)
    · exact h.steady (steady_enterAwaitBoot a _ s)
    · exact h.attemptFailureOutside a none
    · exact h

theorem Kept.decideImage (h : Kept (.all p q) s) (a : Nat) (e : NodeEntry) (rep : StatusReport) :
    Kept (.all p q) (Machine.decideImage a e rep s) := by
  unfold Machine.decideImage
  dsimp only
  split
  · exact h.steady (steady_enterConfig a s)
  · exact h.enterFailed a
  · split
    · exact h.steady (steady_enterImage a _ _ _ _ s)
    · exact h.enterFailed a

theorem Kept.judgeReport (h : Kept (.all p q) s) (a : Nat) (r : Runtime) (rep : StatusReport) :
    Kept (.all p q) (Machine.judgeReport a r rep s) := by
  unfold Machine.judgeReport
  split
  · exact h
  · split
    · exact h.enterFailed a
    · split
      · split
        · exact h.steady ((steady_enterConfig a _).after (steady_rewrite s a _))
        · exact h.attemptFailureOutside a _
      · exact h.decideImage a _ rep

theorem Kept.reconcileChanged (h : Kept (.all p q) s) (hstate : s.nodeState a ≠ .online) (r : Runtime) (marker : Byte)
    (rep : StatusReport) : Kept (.all p q) (Machine.reconcileChanged a r marker rep s) := by
  rw [reconcileChanged_eq]
  refine Kept.judgeReport (Kept.renewShadow (h.steady (steady_rewrite s a _)) (free a) ?_) a r rep
  rw [nodeState_mapRuntime_kept (f := markedRecord marker) fun _ => rfl]
  exact hstate

theorem Kept.reconcile (h : Kept (.all p q) s) (a : Nat) (marker : Byte) (rep : StatusReport) :
    Kept (.all p q) (Machine.reconcile a marker rep s) := by
  unfold Machine.reconcile
  split
  · exact h
  · next r hr =>
    have hstep : r.state ≠ .online → Kept (.all p q)
        (if r.bootCount = some marker then Machine.reconcileKept a r s else Machine.reconcileChanged a r marker rep s) :=
      fun hstate => by
        split
        · exact h.reconcileKept a r
        · exact h.reconcileChanged (by rw [nodeState_of_runtime hr]; exact hstate) r marker rep
    split
    · next hstate => exact hstep (by rw [hstate]; nofun)
    · next hstate => exact hstep (by rw [hstate]; nofun)
    · next hstate => exact hstep (by rw [hstate]; nofun)
    · exact h

theorem Kept.probeResult (h : Kept (.all p q) s) (a : Nat) (res : Result) : Kept (.all p q) (Machine.probeResult a res s) := by
  unfold Machine.probeResult
  split
  · split
    · exact h.reconcile a _ _
    · exact h.steady (steady_probeMiss a s)
  all_goals exact h.steady (steady_probeMiss a s)

/-! ### Config, replay and release steps (R49, R50, R120, R121, R136, R137) -/

theorem Kept.stepMiss {again : State → State} (h : Kept (.all p q) s) (a : Nat)
    (hagain : ∀ u, Kept (.all p q) u → Kept (.all p q) (again u)) : Kept (.all p q) (Machine.stepMiss a again s) := by
  unfold Machine.stepMiss
  split
  · exact h
  · have hmissed := h.steady (steady_rewrite s a fun r => { r with misses := r.misses + 1 })
    dsimp only
    split
    · exact hagain _ hmissed
    · exact hmissed.enterProbe (free a)

theorem Kept.configResult (h : Kept (.all p q) s) (a : Nat) (res : Result) : Kept (.all p q) (Machine.configResult a res s) := by
  have hmiss := h.stepMiss a fun u hu => hu.steady (steady_offerKind a .config u)
  unfold Machine.configResult
  split
  · split
    · exact h.enterProbe (free a)
    · split
      · exact h.onward (free a)
      · exact h.enterFailed a
  all_goals exact hmiss

theorem Kept.replayOn (h : Kept (.all p q) s) (a : Nat) : Kept (.all p q) (Machine.replayOn a s) := by
  unfold Machine.replayOn
  split
  · exact h.steady (steady_offerKind a .replay s)
  · exact h.onward (free a)

theorem Kept.replayResult (h : Kept (.all p q) s) (a : Nat) (res : Result) : Kept (.all p q) (Machine.replayResult a res s) := by
  have hmiss := (h.steady (steady_setReplayInFlight s a none)).stepMiss a fun u hu => hu.replayOn a
  unfold Machine.replayResult
  split
  · next r =>
    have hreplied := ((h.clearReplayed a).steady (steady_setReplayInFlight _ a none)).steady
      (steady_rewrite _ a (repliedRecord r.kind))
    change Kept (.all p q) (if (State.mapRuntime _ a (repliedRecord r.kind)).markerChanged a r.marker then
      Machine.enterProbe a (State.mapRuntime _ a (repliedRecord r.kind))
      else Machine.replayOn a (State.mapRuntime _ a (repliedRecord r.kind)))
    split
    · exact hreplied.enterProbe (free a)
    · exact hreplied.replayOn a
  all_goals exact hmiss

theorem Kept.captureDelivered (h : Kept (.all p q) s) (a k : Nat) (c : CapturedFrame) :
    Kept (.all p q) (Machine.captureDelivered a k c s) := by
  have hcaptured := h.capture (free a) (mark := false) (fun _ => ⟨rfl, rfl⟩) k c
  unfold Machine.captureDelivered
  split
  · split
    · exact h
    · exact hcaptured
  · exact hcaptured

theorem Kept.captureReleased (h : Kept (.all p q) s) (a : Nat) (e : HoldEntry) (k : ReplyKind) :
    Kept (.all p q) (Machine.captureReleased a e k s) := by
  unfold Machine.captureReleased
  split
  · split
    · exact h.captureDelivered a _ _
    · exact h
  · exact h

theorem Kept.releaseResult (h : Kept (.all p q) s) (a : Nat) (res : Result) : Kept (.all p q) (Machine.releaseResult a res s) := by
  unfold Machine.releaseResult
  split
  · exact h
  · next e rest hqueue =>
    have hmiss : Kept (.all p q) (match s.runtime a with
        | none => s
        | some x =>
          let s1 := s.mapRuntime a (fun r => { r with misses := r.misses + 1 })
          if x.misses + 1 ≤ s.params.passRetries then
            offerKind a .release (s1.setQueue a ({ e with inFlight := false } :: rest))
          else Machine.enterProbe a ((Machine.makeReport e .noReply [] s1).setQueue a rest)) := by
      split
      · exact h
      · have hmissed := h.steady (steady_rewrite s a fun r => { r with misses := r.misses + 1 })
        have hlength : ∀ {u : State}, u.hold = s.hold → (u.queue a).length = rest.length + 1 := fun hu => by
          rw [queue_congr hu, hqueue]; rfl
        dsimp only
        split
        · exact (hmissed.setQueue a (by rw [hlength (hold_mapRuntime ..)]; exact Nat.le_refl _)).steady (steady_offerKind a .release _)
        · have hreports := reports_makeReport e .noReply [] (s.mapRuntime a fun r => { r with misses := r.misses + 1 })
          refine ((hmissed.reports hreports).setQueue a ?_).enterProbe (free a)
          rw [hlength (hreports.sameBlocks.hold.trans (hold_mapRuntime ..))]
          exact Nat.le_succ _
    split
    · next r =>
      have hreports := reports_makeReport e .delivered (replyBytes r) s
      have htaken : Kept (.all p q) (releaseTaken a e rest r s) := by
        refine Kept.steady (Kept.setQueue (Kept.captureReleased (h.reports hreports) a e r.kind) a ?_) (steady_rewrite _ a _)
        rw [queue_congr (hold_captureReleased ..), queue_congr hreports.sameBlocks.hold, hqueue]
        exact Nat.le_succ _
      change Kept (.all p q) (if (releaseTaken a e rest r s).markerChanged a r.marker then
        Machine.enterProbe a (releaseTaken a e rest r s)
        else if !rest.isEmpty then offerKind a .release (releaseTaken a e rest r s) else Machine.onward a (releaseTaken a e rest r s))
      split
      · exact htaken.enterProbe (free a)
      · split
        · exact htaken.steady (steady_offerKind a .release _)
        · exact htaken.onward (free a)
    all_goals exact hmiss

theorem Kept.applyStep (h : Kept (.all p q) s) (a : Nat) (k : StepKind) (res : Result) :
    Kept (.all p q) (Machine.applyStep a k res s) := by
  unfold Machine.applyStep
  split
  · exact h.probeResult a res
  · exact h.configResult a res
  · exact h.replayResult a res
  · exact h.releaseResult a res
  all_goals exact h.imageResult a _ res

theorem Kept.stepEnded (h : Kept (.all p q) s) (a : Nat) (res : Result) : Kept (.all p q) (Machine.stepEnded a res s) := by
  unfold Machine.stepEnded
  split
  · exact h.clearInFlight (free a)
  · have hended := h.steady (steady_rewrite s a fun r => { r with step := .none })
    dsimp only
    split
    · exact hended.applyStep a _ res
    · exact (hended.clearInFlight (free a)).offerFirstStep a

/-! ### Pass entries (R48, R49, R69 to R71) -/

theorem Kept.countNoReply (h : Kept (.all p q) s) (a : Nat) : Kept (.all p q) (Machine.countNoReply a s) := by
  unfold Machine.countNoReply
  split
  · exact h
  · split
    · have hcounted := h.steady (steady_rewrite s a fun r => { r with noReply := r.noReply + 1 })
      dsimp only
      split
      · exact hcounted.enterProbe (free a)
      · exact hcounted
    · exact h

theorem Kept.checkPassMarker (h : Kept (.all p q) s) (a : Nat) (marker : Byte) :
    Kept (.all p q) (Machine.checkPassMarker a marker s) := by
  have hprobe : Kept (.all p q) (if s.markerChanged a marker then Machine.enterProbe a s else s) := by
    split
    · exact h.enterProbe (free a)
    · exact h
  unfold Machine.checkPassMarker
  split
  · exact hprobe
  · exact hprobe
  · exact hprobe
  · exact hprobe
  · exact h

theorem Kept.passDone (h : Kept (.all p q) s) (k : Transaction) (e : PassEntry) (r : Reply) :
    Kept (.all p q) (Machine.passDone k e r s) := by
  have hanswered := h.answerPass e .done (replyBytes r)
  unfold Machine.passDone
  dsimp only
  generalize Machine.answerPass e .done (replyBytes r) s = u at hanswered
  split
  · exact hanswered
  · refine Kept.checkPassMarker (Kept.steady ?_ (steady_rewrite _ _ _ fun r => by split <;> rfl)) _ _
    split
    · split
      · exact hanswered.captureDelivered _ _ _
      · exact hanswered
    · exact hanswered

theorem Kept.passLost (h : Kept (.all p q) s) (e : PassEntry) (c : AnswerCode) : Kept (.all p q) (Machine.passLost e c s) := by
  have hlost := (h.answerPass e c []).steady (steady_rewrite _ e.destination fun r => { r with passNoReplies := r.passNoReplies + 1 })
  unfold Machine.passLost
  dsimp only
  split
  · exact hlost.countNoReply _
  · exact hlost

theorem Kept.reenter (h : Kept (.all p q) s) (e : PassEntry) : Kept (.all p q) (Machine.reenter e s) := by
  unfold Machine.reenter
  split <;> exact h.steady (steady_of_eq rfl rfl rfl rfl)

theorem Kept.passMiss (h : Kept (.all p q) s) (e : PassEntry) : Kept (.all p q) (Machine.passMiss e s) := by
  unfold Machine.passMiss
  dsimp only
  split
  · split
    · exact h.reenter _
    · exact h.passLost _ _
  · split
    · exact h.reenter _
    · exact h.passLost _ _
  · exact h.passLost _ _
  · exact h.passLost _ _

theorem Kept.broadcastMember (h : Kept (.all p q) s) (e : PassEntry) (a : Nat) :
    Kept (.all p q) (Machine.broadcastMember e a s) := by
  unfold Machine.broadcastMember
  split
  · split
    · exact h.capture (free a) (fun _ => ⟨rfl, rfl⟩) _ _
    · exact h
  · split
    · next habsent => exact h.absentTreatment (free a) habsent e
    · exact h

theorem Kept.broadcastEnded (h : Kept (.all p q) s) (e : PassEntry) : Kept (.all p q) (Machine.broadcastEnded e s) :=
  forNodes_keeps (P := Kept (.all p q)) (fun a _ hu => hu.broadcastMember e a) _ (h.answerPass e .done [])

theorem Kept.transactionEnded (h : Kept (.all p q) s) (k : Transaction) (res : Result) (line : Line) :
    Kept (.all p q) (Machine.transactionEnded k res line s) := by
  have hline : Kept (.all p q) (s.withSegment { s.segment with line := line }) := h.steady (steady_of_eq rfl rfl rfl rfl)
  have hflagged : Kept (.all p q) (if res = .badCheck then raiseFlag .segmentCheck (s.withSegment { s.segment with line := line })
      else s.withSegment { s.segment with line := line }) := by
    split
    · exact hline.reports (reports_raiseFlag _ _)
    · exact hline
  unfold Machine.transactionEnded
  dsimp only
  generalize (if res = .badCheck then raiseFlag .segmentCheck (s.withSegment { s.segment with line := line })
      else s.withSegment { s.segment with line := line }) = u at hflagged
  split
  · unfold passEnded
    split
    · exact hflagged.passDone k _ _
    all_goals exact hflagged.passMiss _
  · exact hflagged.stepEnded _ res

end

end Sys2Proof.Machine
end

section
/-! SUPPORT. Every command but SET MODE and the two resets keeps the hold queues and the shadow slots sound. -/

namespace Sys2Proof.Machine

section
variable {p q : Prop} {s t : State} {a : Nat}

/-! ### The Trunk Port and takes (R10, R94, R181, R182) -/

theorem reports_setReceiver (c : RxCondition) (s : State) : Reports s (s.setReceiver c) := reports_withTrunk s _

theorem reports_acceptFrame (f : TrunkFrame) (s : State) : Reports s (acceptFrame f s) := by
  unfold acceptFrame
  split
  · exact reports_withTrunk s _
  · exact (reports_withTrunk s _).trans (reports_raiseFlag _ _)

theorem reports_goodFrame {chars : List Byte} (h : goodFrame chars s = some t) : Reports s t := by
  unfold goodFrame at h
  split at h
  · cases h; exact (reports_setReceiver _ s).trans (reports_acceptFrame _ _)
  · cases h

theorem reports_badFrame {chars : List Byte} (h : badFrame chars s = some t) : Reports s t := by
  unfold badFrame at h
  split at h
  · cases h; exact (reports_setReceiver _ s).trans (reports_raiseFlag _ _)
  · cases h

theorem reports_trunkCharacterGap {ender : Option Byte} (h : trunkCharacterGap ender s = some t) : Reports s t := by
  unfold trunkCharacterGap at h
  split at h
  · cases h
  · cases h; exact (reports_setReceiver _ s).trans (reports_raiseFlag _ _)

theorem reports_trunkFrameSent (h : trunkFrameSent s = some t) : Reports s t := by
  obtain ⟨i, -, rfl⟩ := Option.map_eq_some_iff.mp h
  exact reports_withTrunk s _

theorem reports_trunkFrameStart (h : trunkFrameStart s = some t) : Reports s t := by
  unfold trunkFrameStart at h
  split at h
  · cases h; exact reports_setReceiver _ s
  · cases h

theorem reports_takeHead {f : TrunkFrame} {i : Nat} (h : s.takeHead = some (f, i, t)) : Reports s t := by
  unfold State.takeHead at h
  split at h
  · cases h
  · split at h
    · cases h
    · cases h; exact reports_withTrunk s _

theorem reports_enqueue (s : State) (i : Nat) (f : TrunkFrame) : Reports s (s.enqueue i f) := reports_withTrunk s _

theorem reports_unknownRequest (h : unknownRequest s = some t) : Reports s t := by
  unfold unknownRequest at h
  split at h
  · next hu =>
    split at h
    · split at h
      · cases h; exact (reports_takeHead hu).trans (reports_enqueue _ _ _)
      · split at h
        · cases h
        · cases h; exact (reports_takeHead hu).trans (reports_enqueue _ _ _)
    · cases h
  · cases h

theorem reports_nonRequestFrame (h : nonRequestFrame s = some t) : Reports s t := by
  unfold nonRequestFrame at h
  split at h
  · next hu =>
    split at h
    · cases h
    · cases h; exact (reports_takeHead hu).trans (reports_enqueue _ _ _)
  · cases h

/-! ### The Classifier (R97 to R104) -/

theorem steady_countMatch (r : RuleRef) (n : Nat) (s : State) : Steady s (countMatch r n s) := by
  unfold countMatch
  split
  · exact steady_of_eq rfl rfl rfl rfl
  · split <;> exact steady_of_eq rfl rfl rfl rfl

theorem steady_appendPass (e : PassEntry) (s : State) : Steady s (appendPass e s) := by
  unfold appendPass
  split <;> exact steady_of_eq rfl rfl rfl rfl

theorem Kept.disposePass (h : Kept (.all p q) s) (e : PassEntry) : Kept (.all p q) (Machine.disposePass e s) := by
  unfold Machine.disposePass
  split
  · exact h.steady (steady_appendPass e s)
  · exact h.answerPass _ _ _

theorem Kept.disposeUnicast (h : Kept (.all p q) s) (e : PassEntry) : Kept (.all p q) (Machine.disposeUnicast e s) := by
  have hhold (habsent : (s.nodeState e.destination).isAbsent = true) : Kept (.all p q) (disposeHold e s) :=
    (h.appendHold habsent _).answerPass _ _ _
  have hlatest (habsent : (s.nodeState e.destination).isAbsent = true) : Kept (.all p q) (disposeLatest e s) :=
    (h.captureLatest (free _) habsent _ _).answerPass _ _ _
  unfold Machine.disposeUnicast
  split
  case h_1 | h_2 => exact h.disposePass e
  case h_3 | h_4 => exact h.answerPass _ _ _
  case h_5 hstate =>
    have habsent : (s.nodeState e.destination).isAbsent = true := by rw [hstate]; rfl
    split
    · exact hlatest habsent
    · exact hhold habsent
    · exact hhold habsent
  all_goals
    rename_i hstate
    have habsent : (s.nodeState e.destination).isAbsent = true := by rw [hstate]; rfl
    split
    · exact hhold habsent
    · exact hlatest habsent
    · exact h.answerPass _ _ _

theorem Kept.disposeBroadcast (h : Kept (.all p q) s) (e : PassEntry) (m : Option Nat) :
    Kept (.all p q) (Machine.disposeBroadcast e m s) := by
  unfold Machine.disposeBroadcast
  split
  · refine Kept.steady ?_ (steady_appendPass _ _)
    refine (forNodes_keeps_of_mem (P := fun u => Kept (.all p q) u ∧ Stores s u) _ (fun a ha u hu => ?_) ⟨h, .refl s⟩).1
    have habsent : (u.nodeState a).isAbsent = true := by
      rw [hu.2.nodeState]
      simpa using (List.mem_filter.1 ha).2
    exact ⟨hu.1.absentTreatment (free a) habsent e, hu.2.trans (stores_absentTreatment e a u)⟩
  · exact h.answerPass _ _ _

theorem Kept.segmentRequest (h : Kept (.all p q) s) (ht : Machine.segmentRequest s = some t) : Kept (.all p q) t := by
  unfold Machine.segmentRequest at ht
  split at ht
  · next f i u hu =>
    have htaken := h.reports (reports_takeHead hu)
    split at ht
    · split at ht
      · next r _ =>
        cases ht
        have hcounted := htaken.steady (steady_countMatch (u.tables.matched r).ref r.payload.length u)
        unfold classifyRequest
        dsimp only
        split
        · exact hcounted.answerPass _ _ _
        · split
          · exact hcounted.disposeBroadcast _ _
          · exact hcounted.disposeUnicast _
      · cases ht; exact htaken.reports (reports_enqueue _ _ _)
    · cases ht
  · cases ht

/-! ### Management requests (sections 10.2 to 10.9) -/

theorem steady_done (q : Request) (d : List Byte) (s : State) : Steady s (done q d s) := steady_of_eq rfl rfl rfl rfl

theorem steady_invalid (q : Request) (s : State) : Steady s (invalid q s) := steady_of_eq rfl rfl rfl rfl

theorem steady_doneEdit (q : Request) (d : List Byte) (e : Tables) (s : State) : Steady s (done q d (s.withEdit e)) :=
  steady_of_eq rfl rfl rfl rfl

theorem steady_actReadNode (q : Request) (s : State) : Steady s (actReadNode q s) := by
  unfold actReadNode
  split
  · exact steady_done q _ s
  · exact steady_invalid q s

theorem steady_actReadCounters (q : Request) (s : State) : Steady s (actReadCounters q s) := by
  unfold actReadCounters
  dsimp only
  split
  · split
    · exact steady_done q _ s
    · exact steady_invalid q s
  · split
    · exact steady_done q _ s
    · exact steady_invalid q s
  · split
    · exact steady_done q _ s
    · exact steady_invalid q s
  · exact steady_invalid q s

theorem steady_clearGlobalCounters (s : State) : Steady s (clearGlobalCounters s) :=
  ⟨⟨rfl, rfl, rfl, rfl⟩, fun _ => .inl rfl⟩

theorem steady_clearRuleCounters (i : Nat) (s : State) : Steady s (clearRuleCounters i s) := by
  unfold clearRuleCounters
  split <;> exact steady_of_eq rfl rfl rfl rfl

theorem steady_actClearCounters (q : Request) (s : State) : Steady s (actClearCounters q s) := by
  unfold actClearCounters
  dsimp only
  split
  · split
    · exact (steady_done q _ _).after (steady_clearGlobalCounters s)
    · exact steady_invalid q s
  · split
    · exact (steady_done q _ _).after (steady_rewrite s _ _)
    · exact steady_invalid q s
  · split
    · exact (steady_done q _ _).after (steady_clearRuleCounters _ s)
    · exact steady_invalid q s
  · exact steady_invalid q s

theorem steady_actReadRule (q : Request) (s : State) : Steady s (actReadRule q s) := by
  unfold actReadRule
  dsimp only
  split
  · exact steady_done q _ s
  · split
    · exact steady_done q _ s
    · exact steady_invalid q s

theorem steady_actReadSet (q : Request) (s : State) : Steady s (actReadSet q s) := by
  unfold actReadSet
  split
  · exact steady_done q _ s
  · exact steady_invalid q s

theorem steady_actReadShadow (q : Request) (s : State) : Steady s (actReadShadow q s) := by
  unfold actReadShadow
  split
  · exact steady_done q _ s
  · exact steady_invalid q s

theorem steady_actWriteRule (q : Request) (s : State) : Steady s (actWriteRule q s) := by
  unfold actWriteRule
  dsimp only
  split
  · split
    · exact steady_invalid q s
    · exact steady_doneEdit q _ _ s
  · exact steady_invalid q s

theorem steady_actWriteDefault (q : Request) (s : State) : Steady s (actWriteDefault q s) := by
  unfold actWriteDefault
  split
  · exact steady_invalid q s
  · exact steady_doneEdit q _ _ s

theorem steady_actWriteSet (q : Request) (s : State) : Steady s (actWriteSet q s) := by
  unfold actWriteSet
  dsimp only
  split
  · split
    · exact steady_invalid q s
    · exact steady_doneEdit q _ _ s
  · exact steady_invalid q s

theorem steady_actWriteNode (q : Request) (s : State) : Steady s (actWriteNode q s) := by
  unfold actWriteNode
  dsimp only
  split
  · split
    · exact steady_invalid q s
    · exact steady_doneEdit q _ _ s
  · exact steady_invalid q s

theorem steady_actWriteConfigRecord (q : Request) (s : State) : Steady s (actWriteConfigRecord q s) := by
  unfold actWriteConfigRecord
  dsimp only
  split
  · exact steady_invalid q s
  · exact steady_doneEdit q _ _ s

theorem steady_actSetIdentity (q : Request) (s : State) : Steady s (actSetIdentity q s) := by
  unfold actSetIdentity
  dsimp only
  split
  · exact steady_of_eq rfl rfl rfl rfl
  · split <;> exact steady_of_eq rfl rfl rfl rfl
  · exact steady_invalid q s

theorem steady_actClearFlags (q : Request) (s : State) : Steady s (actClearFlags q s) := by
  unfold actClearFlags
  dsimp only
  split <;> exact steady_of_eq rfl rfl rfl rfl

theorem steady_actSetNoticeMask (q : Request) (s : State) : Steady s (actSetNoticeMask q s) := by
  unfold actSetNoticeMask
  dsimp only
  split <;> exact steady_of_eq rfl rfl rfl rfl

theorem steady_joinOperations (o : Operation) (s : State) : Steady s (joinOperations o s) := steady_withStore s _

theorem steady_actStoreTables (q : Request) (s : State) : Steady s (actStoreTables q s) := by
  unfold actStoreTables
  split
  · exact steady_of_eq rfl rfl rfl rfl
  · exact steady_joinOperations _ s

theorem Kept.actIsolateNode (h : Kept (.all p q) s) (r : Request) : Kept (.all p q) (Machine.actIsolateNode r s) := by
  unfold Machine.actIsolateNode
  split
  · exact h.steady (steady_invalid r s)
  · exact h.steady (steady_done r _ s)
  · exact (h.enterIsolated _).steady (steady_done r _ _)

theorem Kept.actRestoreNode (h : Kept (.all p q) s) (r : Request) : Kept (.all p q) (Machine.actRestoreNode r s) := by
  unfold Machine.actRestoreNode
  dsimp only
  split
  · exact h.steady (steady_invalid r s)
  · refine Kept.steady (Kept.enterProbeOrSuspect (h.steady ?_) (free _)) (steady_done r _ _)
    refine (steady_endSession _ _).after ((steady_cancelStep _ _).after (steady_rewrite s _ _ fun v => ?_))
    unfold forgetBoot
    split <;> rfl

theorem Kept.takeRequest {k : RequestCode} {act : Request → State → State} (h : Kept (.all p q) s)
    (hact : ∀ r u, Kept (.all p q) u → Kept (.all p q) (act r u)) (ht : Machine.takeRequest k act s = some t) :
    Kept (.all p q) t := by
  unfold Machine.takeRequest at ht
  split at ht
  · next hu =>
    have htaken := h.reports (reports_takeHead hu)
    split at ht
    · split at ht
      · cases ht
        unfold judgeRequest
        split
        · exact htaken.steady (steady_of_eq rfl rfl rfl rfl)
        · split
          · exact htaken.steady (steady_of_eq rfl rfl rfl rfl)
          · split
            · exact htaken.steady (steady_of_eq rfl rfl rfl rfl)
            · exact hact _ _ htaken
      · cases ht
    · cases ht
  · cases ht

/-! ### The Image Store (chapter 9) -/

theorem steady_finishOperation (c : AnswerCode) (data : List Byte) (s : State) : Steady s (finishOperation c data s) := by
  unfold finishOperation
  dsimp only
  split <;> exact steady_of_eq rfl rfl rfl rfl

theorem steady_setProgress (x : Progress) (s : State) : Steady s (setProgress x s) := steady_withStore s _

theorem steady_setPlace (s : State) (i : Nat) (e : Option CatalogueEntry) : Steady s (s.setPlace i e) := steady_withStore s _

theorem steady_endAccess (s : State) : Steady s (endAccess s) := steady_withStore s _

theorem steady_raiseFlag (f : Flag) (s : State) : Steady s (raiseFlag f s) := (reports_raiseFlag f s).steady

theorem steady_openStaged (kind : Byte) (version : Word16) (length : Nat) (check : Word32) (s : State) :
    Steady s (openStaged kind version length check s) := by
  unfold openStaged
  split
  · exact steady_finishOperation _ _ s
  · exact (steady_finishOperation _ _ _).after (steady_withStore s _)

theorem steady_startLoading {go : State → State} (hgo : ∀ u, Steady u (go u)) (s : State) : Steady s (startLoading go s) := by
  unfold startLoading
  split
  · exact steady_finishOperation _ _ s
  · exact hgo s

theorem steady_startOpen (kind : Byte) (version : Word16) (length : Nat) (check : Word32) (s : State) :
    Steady s (startOpen kind version length check s) := by
  unfold startOpen
  split
  · exact steady_finishOperation _ _ s
  · split
    · exact steady_finishOperation _ _ s
    · split
      · exact steady_finishOperation _ _ s
      · split
        · exact steady_openStaged _ _ _ _ s
        · exact steady_setProgress _ s

theorem steady_startBlock (index : Nat) (data : List Byte) (s : State) : Steady s (startBlock index data s) := by
  unfold startBlock
  split
  · split
    · exact steady_finishOperation _ _ s
    · exact steady_setProgress _ s
  · exact steady_finishOperation _ _ s

theorem steady_startClose (s : State) : Steady s (startClose s) := by
  unfold startClose
  split
  · exact steady_finishOperation _ _ s
  · split
    · exact steady_finishOperation _ _ s
    · exact steady_setProgress _ s

theorem steady_startDiscard (s : State) : Steady s (startDiscard s) := by
  unfold startDiscard
  split
  · exact steady_finishOperation _ _ s
  · exact (steady_finishOperation _ _ _).after (steady_withStore s _)

theorem steady_startDrop (kind : Byte) (s : State) : Steady s (startDrop kind s) := by
  unfold startDrop
  split
  · exact steady_finishOperation _ _ s
  · split
    · exact steady_finishOperation _ _ s
    · split
      · exact steady_finishOperation _ _ s
      · exact (steady_setProgress _ _).after (steady_setPlace s _ _)

theorem steady_beginOperation (k : OperationKind) (s : State) : Steady s (beginOperation k s) := by
  unfold beginOperation
  split
  · exact steady_startLoading (steady_startOpen _ _ _ _) s
  · exact steady_startLoading (steady_startBlock _ _) s
  · exact steady_startLoading steady_startClose s
  · exact steady_startLoading steady_startDiscard s
  · exact steady_startLoading (steady_startDrop _) s
  · exact steady_setProgress _ s
  · exact steady_setProgress _ s

theorem steady_operationStart (h : operationStart s = some t) : Steady s t := by
  unfold operationStart at h
  split at h
  · cases h; exact (steady_chooseAccess _).after (steady_beginOperation _ s)
  · cases h

theorem steady_programEnded (failed : Bool) (index : Nat) (s : State) : Steady s (programEnded failed index s) := by
  unfold programEnded
  split
  · exact steady_finishOperation _ _ s
  · split
    · exact steady_finishOperation _ _ s
    · exact (steady_finishOperation _ _ _).after (steady_withStore s _)

theorem steady_blockProgramEnd {failed : Bool} (h : blockProgramEnd failed s = some t) : Steady s t := by
  unfold blockProgramEnd at h
  split at h
  · cases h
    refine (steady_chooseAccess _).after ((steady_programEnded _ _ _).after ?_)
    split
    · exact (steady_raiseFlag _ _).after (steady_endAccess s)
    · exact Steady.after (steady_withStore _ _) (steady_endAccess s)
  · cases h

theorem steady_commit (x : StagedImage) (i : Nat) (old : Option CatalogueEntry) (s : State) : Steady s (commit x i old s) :=
  (steady_setProgress _ _).after ((steady_withStore _ _).after (steady_setPlace s i _))

theorem steady_closeMatched (x : StagedImage) (s : State) : Steady s (closeMatched x s) := by
  unfold closeMatched
  split
  · split
    · split
      · exact steady_finishOperation _ _ s
      · exact steady_commit _ _ _ s
    · exact steady_commit _ _ _ s
  · split
    · exact steady_commit _ _ _ s
    · exact steady_finishOperation _ _ s

theorem steady_checkReadGood (x : StagedImage) (index : Nat) (sums : Nat × Nat) (b : StoreBlock) (s : State) :
    Steady s (checkReadGood x index sums b s) := by
  unfold checkReadGood
  dsimp only
  split
  · exact steady_setProgress _ s
  · split
    · exact steady_closeMatched x s
    · exact steady_finishOperation _ _ s

theorem steady_checkReadFailed (x : StagedImage) (index : Nat) (s : State) : Steady s (checkReadFailed x index s) :=
  (steady_finishOperation _ _ _).after (steady_withStore s _)

theorem steady_checkReadEnd {fails : Bool} (h : checkReadEnd fails s = some t) : Steady s t := by
  unfold checkReadEnd at h
  split at h
  · cases h
    have hended := steady_endAccess s
    refine (steady_chooseAccess _).after ?_
    split
    · have hraised := (steady_raiseFlag .storeReadError _).after hended
      split
      · exact (steady_finishOperation _ _ _).after hraised
      · exact (steady_checkReadFailed _ _ _).after hraised
    · split
      · exact (steady_finishOperation _ _ _).after hended
      · exact (steady_checkReadGood _ _ _ _ _).after hended
  · cases h

theorem steady_directoryWritten (failed : Bool) (s : State) : Steady s (directoryWritten failed s) := by
  unfold directoryWritten
  dsimp only
  split
  · exact (steady_raiseFlag _ _).after (steady_withStore s _)
  · exact steady_withStore s _

theorem steady_directoryWriteAnswered (failed : Bool) (x : Progress) (s : State) :
    Steady s (directoryWriteAnswered failed x s) := by
  unfold directoryWriteAnswered
  split
  · split
    · exact steady_finishOperation _ _ s
    · split
      · exact steady_finishOperation _ _ s
      · split
        · exact steady_openStaged _ _ _ _ s
        · exact steady_finishOperation _ _ s
  · split <;> exact steady_finishOperation _ _ s
  · split
    · exact (steady_finishOperation _ _ _).after (steady_setPlace s _ _)
    · exact steady_finishOperation _ _ s
  · exact steady_finishOperation _ _ s

theorem steady_directoryWriteEnd {failed : Bool} (h : directoryWriteEnd failed s = some t) : Steady s t := by
  unfold directoryWriteEnd at h
  split at h
  · split at h
    · cases h
      exact (steady_chooseAccess _).after ((steady_directoryWriteAnswered _ _ _).after
        ((steady_directoryWritten _ _).after (steady_endAccess s)))
    · cases h
  · cases h

theorem steady_withStored (s : State) (x : Option StoredTables) : Steady s (s.withStored x) := steady_of_eq rfl rfl rfl rfl

theorem steady_tableWriteEnd {failed : Bool} (h : tableWriteEnd failed s = some t) : Steady s t := by
  unfold tableWriteEnd at h
  split at h
  · cases h
    refine (steady_chooseAccess _).after ?_
    split
    · exact (steady_finishOperation _ _ _).after ((steady_raiseFlag _ _).after ((steady_withStored _ _).after (steady_endAccess s)))
    · exact (steady_finishOperation _ _ _).after ((steady_withStored _ _).after (steady_endAccess s))
  · cases h

/-! ### The end of a session read (R149, R161, R170) -/

theorem steady_requestMarkWrite (s : State) : Steady s (requestMarkWrite s) := by
  have hasked (waits : Bool) (o : Operation) : Steady s (if waits then s else joinOperations o s) := by
    split
    · exact .refl s
    · exact steady_joinOperations o s
  exact hasked _ _

theorem steady_markDamaged (i : Nat) (s : State) : Steady s (markDamaged i s) := by
  unfold markDamaged
  split
  · exact steady_setPlace s _ _
  · exact .refl s

theorem steady_reportReadError (block : Nat) (s : State) : Steady s (reportReadError block s) := by
  unfold reportReadError
  dsimp only
  split
  · exact (steady_requestMarkWrite _).after ((steady_markDamaged _ _).after (steady_raiseFlag _ s))
  · exact (steady_requestMarkWrite _).after (steady_raiseFlag _ s)

theorem Kept.leaveDamaged (h : Kept (.all p q) s) (place a : Nat) : Kept (.all p q) (Machine.leaveDamaged place a s) := by
  unfold Machine.leaveDamaged
  split
  · split
    · split
      · exact h.steady ((steady_enterConfig a _).after (steady_endSession a s))
      · exact h.enterFailed a
    · exact h
  · exact h

theorem steady_drainBuffer (b : Nat) (s : State) : Steady s (drainBuffer b s) := by
  unfold drainBuffer
  split
  · exact steady_freeBuffer b s
  · exact .refl s

theorem Kept.readFailed (h : Kept (.all p q) s) (r : ReadRequest) : Kept (.all p q) (Machine.readFailed r s) := by
  have hreported := h.steady (steady_reportReadError r.block s)
  unfold Machine.readFailed
  dsimp only
  split
  · unfold endDamaged
    split
    · exact forNodes_keeps (P := Kept (.all p q)) (fun a _ hu => hu.leaveDamaged _ a) _ hreported
    · exact hreported
  · exact hreported.steady (steady_drainBuffer _ _)

theorem steady_readGood (r : ReadRequest) (data : List Byte) (s : State) : Steady s (readGood r data s) := by
  unfold readGood
  split
  · exact (steady_offerKind _ _ _).after ((steady_mapSession _ _ _).after (steady_setBuffer s _ _))
  · exact steady_drainBuffer _ s

theorem steady_stopCutClose (s : State) : Steady s (stopCutClose s) := by
  unfold stopCutClose
  split
  · split
    · exact steady_finishOperation _ _ s
    · exact .refl s
  · exact .refl s

theorem Kept.storeReadEnd {fails : Bool} (h : Kept (.all p q) s) (ht : Machine.storeReadEnd fails s = some t) :
    Kept (.all p q) t := by
  unfold Machine.storeReadEnd at ht
  split at ht
  · cases ht
    have hended := h.steady ((steady_stopCutClose _).after (steady_endAccess s))
    refine Kept.steady ?_ (steady_chooseAccess _)
    split
    · exact hended.readFailed _
    · exact hended.steady (steady_readGood _ _ _)
  · cases ht

/-! ### The gap (R26, R30, R57) -/

theorem steady_withGap (s : State) (g : GapMonitor) : Steady s (s.withGap g) := steady_of_eq rfl rfl rfl rfl

theorem steady_rechargeNode (start : Time) (a : Nat) (s : State) : Steady s (rechargeNode start a s) := by
  unfold rechargeNode
  split
  · exact steady_withGap s _
  · exact .refl s

theorem steady_settleReserve (d a : Nat) (s : State) : Steady s (settleReserve d a s) := by
  unfold settleReserve
  split
  · exact steady_withGap s _
  · exact .refl s

theorem steady_setOrigin (edge : Time) (a : Nat) (s : State) : Steady s (setOrigin edge a s) := by
  unfold setOrigin
  split
  · exact steady_withGap s _
  · exact .refl s

theorem isAbsent_suspendMember {r : Runtime} (hr : s.runtime a = some r) : (suspendMember a s).nodeState a = .suspect := by
  rw [nodeState_of_runtime (suspendMember_self hr)]
  rfl

/-- The members that enter SUSPECT are in SUSPECT, one after another (R56). -/
theorem suspended_walk (l : List Nat) (s : State) (hl : ∀ a ∈ l, s.nodeState a ≠ .unconfigured) :
    ∀ a ∈ l, ((forNodes l suspendMember s).nodeState a).isAbsent = true := by
  have hkeeps : ∀ (l : List Nat) (a : Nat) (u : State), (u.nodeState a).isAbsent = true →
      ((forNodes l suspendMember u).nodeState a).isAbsent = true := fun l a u hu =>
    forNodes_keeps (P := fun v => (v.nodeState a).isAbsent = true) (fun b v hv =>
      ((steady_suspendMember b v).states a).elim (fun heq => by rw [heq]; exact hv) id) l hu
  induction l generalizing s with
  | nil => exact fun a ha => nomatch ha
  | cons b l ih =>
    intro a ha
    have hb : ((suspendMember b s).nodeState b).isAbsent = true := by
      obtain ⟨r, hr⟩ := runtime_of_nodeState (s := s) (a := b) rfl (hl b List.mem_cons_self)
      rw [isAbsent_suspendMember hr]
      rfl
    rcases List.mem_cons.1 ha with rfl | ha
    · exact hkeeps l a _ hb
    · refine ih _ (fun c hc => ?_) a ha
      rcases (steady_suspendMember b s).states c with heq | habsent
      · rw [heq]; exact hl c (List.mem_cons_of_mem b hc)
      · intro hnone
        rw [hnone] at habsent
        exact nomatch habsent

theorem Kept.confirmGapStart (h : Kept (.all p q) s) (start : Time) : Kept (.all p q) (Machine.confirmGapStart start s) := by
  unfold Machine.confirmGapStart
  dsimp only
  refine Kept.reports ?_ (reports_offerGap ..)
  have hcharged := (h.steady (steady_withGap s { s.gap with
    condition := .inGap start, aged := false, gapSet := addresses.filter s.isFed })).steady
      (steady_forNodes (steady_rechargeNode start) (addresses.filter s.isFed) _)
  generalize forNodes _ (rechargeNode start) _ = u at hcharged
  refine (hcharged.steady (steady_forNodes steady_suspendMember _ u)).returnPasses (fun a _ => free a) (suspended_walk _ u ?_)
  intro a ha hnone
  have henters := (List.mem_filter.1 ha).2
  unfold State.entersSuspect at henters
  rw [hnone] at henters
  exact nomatch henters

theorem Kept.memberAtGapEnd (h : Kept (.all p q) s) (edge : Time) (a : Nat) (c : GapClass) :
    Kept (.all p q) (Machine.memberAtGapEnd edge a c s) := by
  have hcounted := h.steady (steady_rewrite s a (countClass c) fun r => by unfold countClass; split <;> rfl)
  unfold Machine.memberAtGapEnd
  dsimp only
  split
  · exact hcounted
  · split
    · split
      · exact hcounted.onward (free a)
      · exact hcounted.enterProbe (free a)
    · exact hcounted.enterProbe (free a)
    · exact hcounted.steady (steady_enterAwaitBoot a edge _)
    · exact hcounted.steady ((steady_enterAwaitBoot a edge _).after (steady_rewrite _ a _))
    · exact hcounted

theorem Kept.confirmGapEnd (h : Kept (.all p q) s) (start edge : Time) : Kept (.all p q) (Machine.confirmGapEnd start edge s) := by
  have hmembers : ∀ (l : List (Nat × GapClass)) (u : State), Kept (.all p q) u →
      Kept (.all p q) (l.foldl (fun v x => Machine.memberAtGapEnd edge x.1 x.2 v) u) := by
    intro l
    induction l with
    | nil => exact fun _ hu => hu
    | cons x l ih => exact fun u hu => ih _ (hu.memberAtGapEnd edge x.1 x.2)
  unfold Machine.confirmGapEnd
  dsimp only
  refine Kept.steady (Kept.reports (hmembers _ _ (h.steady ?_)) (reports_offerGap ..)) (steady_withGap _ _)
  exact (steady_forNodes (steady_setOrigin edge) addresses _).after
    ((steady_forNodes (steady_settleReserve _) _ _).after (steady_withGap s _))

theorem Kept.gapEdgeAbsent (h : Kept (.all p q) s) (ht : Machine.gapEdgeAbsent s = some t) : Kept (.all p q) t := by
  have hsampled := h.steady (steady_withGap s { s.gap with gapHigh := !s.gap.gapHigh })
  unfold Machine.gapEdgeAbsent at ht
  dsimp only at ht
  split at ht
  · cases ht
  · split at ht
    · split at ht
      · cases ht; exact hsampled.confirmGapStart _
      · cases ht; exact hsampled.steady (steady_withGap _ _)
    · cases ht; exact hsampled.steady ((steady_raiseFlag _ _).after (steady_withGap _ _))
    · cases ht; exact hsampled

theorem Kept.gapEdgePresent (h : Kept (.all p q) s) (ht : Machine.gapEdgePresent s = some t) : Kept (.all p q) t := by
  have hsampled := h.steady (steady_withGap s { s.gap with gapHigh := !s.gap.gapHigh })
  unfold Machine.gapEdgePresent at ht
  dsimp only at ht
  split at ht
  · split at ht
    · split at ht
      · cases ht; exact hsampled.confirmGapEnd _ _
      · cases ht; exact hsampled.steady (steady_withGap _ _)
    · cases ht; exact hsampled.steady ((steady_raiseFlag _ _).after (steady_withGap _ _))
    · cases ht; exact hsampled
  · cases ht

theorem Kept.gapStart (h : Kept (.all p q) s) (ht : Machine.gapStart s = some t) : Kept (.all p q) t := by
  unfold Machine.gapStart at ht
  split at ht
  · split at ht
    · cases ht; exact h.confirmGapStart _
    · cases ht
  · cases ht

theorem Kept.gapEnd (h : Kept (.all p q) s) (ht : Machine.gapEnd s = some t) : Kept (.all p q) t := by
  unfold Machine.gapEnd at ht
  split at ht
  · split at ht
    · cases ht; exact h.confirmGapEnd _ _
    · cases ht
  · cases ht

theorem steady_gapAgedExpiry (h : gapAgedExpiry s = some t) : Steady s t := by
  unfold gapAgedExpiry at h
  split at h
  · split at h
    · cases h; exact steady_withGap s _
    · cases h
  · cases h

theorem steady_originAgedExpiry (h : originAgedExpiry a s = some t) : Steady s t := by
  unfold originAgedExpiry at h
  split at h
  · split at h
    · cases h; exact steady_withGap s _
    · cases h
  · cases h

/-! ### The segment (chapter 4) -/

theorem steady_withSegment (s : State) (g : SegmentMaster) : Steady s (s.withSegment g) := steady_of_eq rfl rfl rfl rfl

theorem Kept.reserveRelease (h : Kept (.all p q) s) (a : Nat) : Kept (.all p q) (Machine.reserveRelease a s) := by
  unfold Machine.reserveRelease
  split
  · split
    · next e rest i hqueue _ =>
      refine Kept.setQueue (h.reports (reports_withTrunk s _)) a (show _ ≤ (s.queue a).length from ?_)
      rw [hqueue]
      exact Nat.le_refl _
    · exact h
  · exact h

theorem Kept.beginStep (h : Kept (.all p q) s) (a : Nat) (k : StepKind) : Kept (.all p q) (Machine.beginStep a k s) := by
  unfold Machine.beginStep
  split
  · exact h
  · exact h
  · exact h
  · exact h.steady (steady_mapSession s a _)
  · exact h.steady (steady_mapSession s a _)
  · split
    · exact h.steady (steady_setReplayInFlight s a _)
    · exact h
  · have hreserved := h.reserveRelease a
    dsimp only
    split
    · next e rest hqueue =>
      refine hreserved.setQueue a ?_
      rw [hqueue]
      exact Nat.le_refl _
    · exact hreserved

theorem Kept.startStep (h : Kept (.all p q) s) (a : Nat) : Kept (.all p q) (Machine.startStep a s) := by
  unfold Machine.startStep
  split
  · exact h
  · exact (h.beginStep a _).steady ((steady_withSegment _ _).after ((steady_rewrite _ a _).after (steady_withSegment _ _)))

theorem Kept.transactionStart (h : Kept (.all p q) s) (ht : Machine.transactionStart s = some t) : Kept (.all p q) t := by
  unfold Machine.transactionStart at ht
  split at ht
  · unfold startPicked at ht
    split at ht
    · cases ht; exact h.steady ((steady_withSegment _ _).after (steady_withSegment s _))
    · cases ht; exact h.steady ((steady_withSegment _ _).after (steady_withSegment s _))
    · cases ht; exact h.startStep _
    · cases ht
  · cases ht

theorem Kept.segmentFrameSent (h : Kept (.all p q) s) (ht : Machine.segmentFrameSent s = some t) : Kept (.all p q) t := by
  unfold Machine.segmentFrameSent at ht
  split at ht
  · split at ht
    · cases ht; exact (h.steady (steady_withSegment s _)).broadcastEnded _
    · cases ht; exact h.steady (steady_withSegment s _)
  · cases ht

theorem Kept.replyTimeout (h : Kept (.all p q) s) (ht : Machine.replyTimeout s = some t) : Kept (.all p q) t := by
  unfold Machine.replyTimeout at ht
  split at ht
  · cases ht; exact h.transactionEnded _ _ _
  · cases ht

theorem Kept.replyReceived {chars : List Byte} (h : Kept (.all p q) s) (ht : Machine.replyReceived chars s = some t) :
    Kept (.all p q) t := by
  unfold Machine.replyReceived at ht
  split at ht
  · split at ht
    · cases ht; exact h.transactionEnded _ _ _
    · cases ht
  · cases ht

theorem Kept.replyCutShort (h : Kept (.all p q) s) (ht : Machine.replyCutShort s = some t) : Kept (.all p q) t := by
  unfold Machine.replyCutShort at ht
  split at ht
  · cases ht; exact h.transactionEnded _ _ _
  · cases ht

theorem Kept.replyTooLong {length : Byte} (h : Kept (.all p q) s) (ht : Machine.replyTooLong length s = some t) :
    Kept (.all p q) t := by
  unfold Machine.replyTooLong at ht
  split at ht
  · exact h.replyCutShort ht
  · cases ht

theorem steady_replyStart (h : replyStart s = some t) : Steady s t := by
  unfold replyStart at h
  split at h
  · cases h; exact steady_withSegment s _
  · cases h

theorem steady_settlingEnd (h : settlingEnd s = some t) : Steady s t := by
  unfold settlingEnd at h
  split at h
  · cases h; exact steady_withSegment s _
  · cases h

/-! ### The engine restart (R61, R83, R140, R163) -/

theorem steady_restartPasses (s : State) : Steady s (restartPasses s) := by
  have hanswered : ∀ (l : List PassEntry) (u : State), Steady u (l.foldl (fun v e => answerPass e .restarted [] v) u) := by
    intro l
    induction l with
    | nil => exact .refl
    | cons e l ih => exact fun u => (ih _).after (steady_of_eq rfl rfl rfl rfl)
  exact (steady_withSegment _ _).after (hanswered _ s)

theorem steady_clearWaiting (s : State) : Steady s (clearWaiting s) := steady_withRestore s rfl

theorem Kept.restartNode (h : Kept (.all p q) s) (a : Nat) : Kept (.all p q) (Machine.restartNode a s) := by
  have hleft := (h.steady ((steady_endSession a _).after (steady_cancelStep a s))).enterProbeOrSuspect (free a)
  unfold Machine.restartNode
  split
  · exact h
  · exact h
  · exact hleft

theorem Kept.engineRestartEffect (h : Kept (.all p q) s) (ht : Machine.engineRestartEffect s = some t) : Kept (.all p q) t := by
  unfold Machine.engineRestartEffect at ht
  split at ht
  · obtain rfl := Option.some.inj ht
    have hcleared := h.steady ((steady_clearWaiting _).after (steady_restartPasses s))
    have hrestarted := forNodes_keeps (P := Kept (.all p q)) (fun a _ hu => hu.restartNode a) addresses hcleared
    exact forNodes_keeps (P := Kept (.all p q)) (fun a _ hu => hu.discardQueue a) addresses hrestarted
  · cases ht

/-! ### Timers (R43, R44, R130, R152) -/

theorem steady_nextProbeTime (h : nextProbeTime a s = some t) : Steady s t := by
  unfold nextProbeTime at h
  split at h
  · split at h
    · split at h
      · cases h; exact steady_offerKind a .probe s
      · cases h
    · cases h
  · cases h

theorem steady_bootWindowClose (h : bootWindowClose a s = some t) : Steady s t := by
  unfold bootWindowClose at h
  split at h
  · split at h
    · split at h
      · cases h; exact steady_enterMissing a s
      · cases h
    · cases h
  · cases h

theorem steady_busyPollTime (h : busyPollTime a s = some t) : Steady s t := by
  unfold busyPollTime at h
  split at h
  · split at h
    · split at h
      · split at h
        · cases h; exact (steady_offerKind a .busyPoll _).after (steady_mapSession s a _)
        · cases h
      · cases h
    · cases h
  · cases h

theorem Kept.holdExpiry {i : Nat} (h : Kept (.all p q) s) (ht : Machine.holdExpiry a i s = some t) : Kept (.all p q) t := by
  unfold Machine.holdExpiry at ht
  split at ht
  · split at ht
    · cases ht; exact h.expireEntry (free a) i _
    · cases ht
  · cases ht

theorem Kept.endCommand (h : Kept (.all p q) s) : Kept (.all p q) (Machine.endCommand s) := by
  refine h.steady ?_
  obtain ⟨x, hx, -⟩ := startTransmitter_trunk s
  unfold Machine.endCommand
  rw [hx]
  exact steady_of_eq rfl rfl rfl rfl

end

end Sys2Proof.Machine
end

section
/-! SUPPORT. The table switch and the two resets keep the hold queues and the shadow slots sound: a switch treats one address after
another, and what it has not treated yet stands as it was under the old tables (R123, R140, R141, R189). -/

namespace Sys2Proof.Machine

section
variable {p q : Prop} {s t : State} {a : Nat} {d : Set Nat} {old new : Tables} {x : Terms}

/-! ### The slots of a given-up range are cleared (R123) -/

theorem slot_clearSlot (i : Nat) (s : State) (j : Nat) : (clearSlot i s).slot j = if i = j then none else s.slot j := by
  unfold clearSlot
  split
  · next r hr => exact slot_setSlot hr none j
  · next hr =>
    split
    · next hij => rw [← hij]; exact hr
    · rfl

theorem onlyShadow_clearSlot (i : Nat) (s : State) : OnlyShadow s (clearSlot i s) := by
  unfold clearSlot
  split <;> exact ⟨_, rfl⟩

theorem ShadowsBut.clearSlot (h : ShadowsBut d old s) (i : Nat) : ShadowsBut d old (Machine.clearSlot i s) := by
  have hslot := slot_clearSlot i s
  obtain ⟨y, hy⟩ := onlyShadow_clearSlot i s
  refine h.rewrite (by rw [hy]; rfl) (fun b => by rw [hy]; rfl) (fun j v hv => ?_) fun b hb => ?_
  · rw [hslot] at hv
    split at hv
    · exact nomatch hv
    · exact ⟨v, hv, rfl, rfl, .inl⟩
  · obtain ⟨hnodup, hmem⟩ := h.lists b hb
    have hsome : ∀ j ∈ s.replayList b, (((Machine.clearSlot i s).slot j).isSome = true ↔ j ≠ i) := fun j hj => by
      obtain ⟨r, hr, -⟩ := (hmem j).1 hj
      rw [hslot]
      by_cases hij : i = j
      · simp [hij]
      · rw [if_neg hij, hr]
        exact iff_of_true rfl (Ne.symm hij)
    have hkept : i ∉ s.replayList b → (Machine.clearSlot i s).replayList b = s.replayList b →
        ((Machine.clearSlot i s).replayList b).Nodup ∧ ∀ j, j ∈ (Machine.clearSlot i s).replayList b ↔
          j ∈ s.replayList b ∧ ((Machine.clearSlot i s).slot j).isSome = true := fun hi hlist => by
      rw [hlist]
      exact ⟨hnodup, fun j => (and_iff_left_of_imp fun hj => (hsome j hj).2 fun hji => hi (hji ▸ hj)).symm⟩
    cases hr : s.slot i with
    | none =>
      refine hkept (fun hi => ?_) (by rw [Machine.clearSlot, hr])
      obtain ⟨r, hr', -⟩ := (hmem i).1 hi
      rw [hr] at hr'
      exact nomatch hr'
    | some r =>
      have hlist : (Machine.clearSlot i s).replayList b = if r.node = b ∧ isAddress r.node = true
          then (s.replayList r.node).filter (· != i) else s.replayList b := by
        rw [Machine.clearSlot, hr]
        exact replayList_setReplayList _ _ b _
      by_cases hnode : r.node = b
      · obtain ⟨e, he, -⟩ := h.places i r hr (hnode ▸ hb)
        rw [if_pos ⟨hnode, isAddress_of_node he⟩, hnode] at hlist
        rw [hlist]
        refine ⟨hnodup.filter _, fun j => ?_⟩
        rw [List.mem_filter, bne_iff_ne]
        exact and_congr_right fun hj => (hsome j hj).symm
      · rw [if_neg fun heq => hnode heq.1] at hlist
        refine hkept (fun hi => ?_) hlist
        obtain ⟨v, hv, hvb⟩ := (hmem i).1 hi
        rw [hr] at hv
        cases hv
        exact hnode hvb

theorem slot_clearSlots (l : List Nat) (s : State) (j : Nat) :
    (forNodes l clearSlot s).slot j = if j ∈ l then none else s.slot j := by
  induction l generalizing s with
  | nil => rfl
  | cons i l ih =>
    refine (ih (clearSlot i s)).trans ?_
    rw [slot_clearSlot]
    by_cases hij : i = j
    · simp [hij]
    · simp [hij, Ne.symm hij]

/-- Once a node's old range is clear it is treated: it has no slot and no list. -/
theorem ShadowsBut.clearShadow (h : ShadowsBut d old s) {e : NodeEntry} (he : old.node a = some e) (ha : a ∈ d) :
    ShadowsBut (d \ {a}) old (Machine.clearShadow a e s) := by
  have hcleared : ShadowsBut d old (forNodes (List.range' e.shadowBase e.shadowCount) Machine.clearSlot s) :=
    forNodes_keeps (P := ShadowsBut d old) (fun i _ hu => hu.clearSlot i) _ h
  have hgone : ∀ j r, (forNodes (List.range' e.shadowBase e.shadowCount) Machine.clearSlot s).slot j = some r → r.node ≠ a :=
    fun j r hr hnode => by
      obtain ⟨n, hn, hlt, hj⟩ := hcleared.olds j r hr (hnode ▸ ha)
      rw [hnode, he] at hn
      obtain rfl := Option.some.inj hn
      rw [slot_clearSlots, if_pos (List.mem_range'_1.2 (by omega))] at hr
      exact nomatch hr
  unfold Machine.clearShadow
  dsimp only
  generalize forNodes (List.range' e.shadowBase e.shadowCount) Machine.clearSlot s = u at hcleared hgone
  have hempty : ShadowsBut (d \ {a}) old (u.setReplayList a []) := by
    have hout : ∀ {j : Nat} {r : ShadowRecord}, u.slot j = some r → r.node ∉ d \ {a} → r.node ∉ d :=
      fun hr hnot hd => hnot ⟨hd, hgone _ _ hr⟩
    refine ⟨hcleared.fits, fun b hb => ?_, fun j r hr hd => hcleared.places j r hr (hout hr hd),
      fun j r hr hd => hcleared.olds j r hr hd.1, hcleared.pending⟩
    unfold State.Lists
    rw [replayList_setReplayList]
    by_cases hab : a = b
    · rw [if_pos ⟨hab, isAddress_of_node he⟩]
      refine ⟨List.nodup_nil, fun j => iff_of_false (fun hj => nomatch hj) ?_⟩
      rintro ⟨r, hr, hnode⟩
      exact hgone j r hr (hnode.trans hab.symm)
    · rw [if_neg fun heq => hab heq.1]
      exact hcleared.lists b fun hd => hb ⟨hd, Ne.symm hab⟩
  split
  · exact hempty.congr rfl rfl rfl fun _ _ _ _ ht => ht
  · exact hempty

/-! ### One address treated -/

/-- The terms with other addresses to treat. -/
def Terms.leave (x : Terms) (queues slots : Set Nat) : Terms := { x with queues := queues, slots := slots }

theorem HoldsBut.treat (h : HoldsBut d s) {c : Set Nat} (hcap : ∀ b, b ∈ d → b ∉ c → (s.queue b).length ≤ s.holdCap b) :
    HoldsBut c s :=
  ⟨fun b hb => by
    by_cases hd : b ∈ d
    · exact hcap b hd hb
    · exact h.caps b hd, h.pool, h.present⟩

/-- A switch leaves the node another shadow range, or none (R123). -/
def Moved (old new : Tables) (a : Nat) : Prop :=
  ∃ e, old.node a = some e ∧ ∀ n, new.node a = some n → ¬ (e.shadowBase = n.shadowBase ∧ e.shadowCount = n.shadowCount)

/-- What a switch has still to treat: the hold queues of the addresses in `l` that were configured, the slots of those in `m` that
have moved. -/
def Terms.switch (p q : Prop) (old new : Tables) (l m : List Nat) : Terms :=
  { hold := p, shadow := q, queues := {a | a ∈ l ∧ old.node a ≠ none}, slots := {a | a ∈ m ∧ Moved old new a}, old := old }

theorem moved_configured (h : Moved old new a) : old.node a ≠ none := by
  obtain ⟨e, he, -⟩ := h
  rw [he]
  nofun

/-- The new tables pass the tests; what was sound under the old ones is left to treat. -/
theorem Kept.withTables (h : Kept (.all p q) s) (hfits : new.firstFault = none) :
    Kept (.switch p q s.tables new addresses addresses) (s.withTables new) := by
  refine ⟨fun hp => ?_, fun hq => ?_⟩
  · have hs := h.1 hp
    have hnone : ∀ b, s.tables.node b = none → s.queue b = [] := fun b hb => by
      have hcap := hs.caps b (Set.notMem_empty b)
      rw [State.holdCap, show s.entry b = none from hb] at hcap
      exact List.eq_nil_of_length_eq_zero (Nat.le_zero.1 hcap)
    refine ⟨fun b hb => ?_, hs.pool, fun b _ hb => ?_⟩
    · have hout : s.tables.node b = none := by
        by_contra hsome
        obtain ⟨e, he⟩ := Option.ne_none_iff_exists'.1 hsome
        exact hb ⟨mem_addresses (isAddress_of_node he), hsome⟩
      rw [show (s.withTables new).queue b = s.queue b from rfl, hnone b hout]
      exact Nat.zero_le _
    · by_cases hout : s.tables.node b = none
      · exact hnone b hout
      · exact hs.present b hout hb
  · have hs := h.2 hq
    have hplaces : ∀ i r, s.slot i = some r → s.tables.Places i r := fun i r hr => hs.places i r hr (Set.notMem_empty _)
    refine ⟨hfits, fun b _ => hs.lists b (Set.notMem_empty b), fun i r hr hd => ?_, fun i r hr _ => hplaces i r hr, hs.pending⟩
    obtain ⟨e, he, hlt, hi⟩ := hplaces i r hr
    have hstays : ¬ Moved s.tables new r.node := fun hmoved => hd ⟨mem_addresses (isAddress_of_node he), hmoved⟩
    unfold Moved at hstays
    push Not at hstays
    obtain ⟨n, hn, hbase, hcount⟩ := hstays e he
    exact ⟨n, hn, by omega, by omega⟩

/-! ### The parts of a switch -/

theorem steady_switchReserve (old new : Tables) (a : Nat) (s : State) : Steady s (switchReserve old new a s) := by
  unfold switchReserve
  split
  · exact steady_withGap s _
  · exact (steady_withGap _ _).after (steady_withGap s _)
  · split
    · exact steady_withGap s _
    · exact .refl s
  · exact .refl s

theorem tables_of_quiet (h : t.quiet = s.quiet) : t.tables = s.tables := congrArg Quiet.tables h

theorem tables_addNode (a : Nat) (s : State) : (addNode a s).tables = s.tables := by
  have hset : (s.setRuntime a (some (freshRuntime (s.carriesStep a)))).tables = s.tables := rfl
  unfold addNode
  dsimp only
  split
  · exact (tables_of_quiet ((joinGapSet_quiet ..).trans (enterSuspect_quiet ..))).trans hset
  · exact (tables_of_quiet (enterProbe_quiet ..)).trans hset

theorem tables_removeNode (a : Nat) (s : State) : (removeNode a s).tables = s.tables :=
  tables_of_quiet (t := endSession a (cancelStep a s)) ((endSession_quiet ..).trans (cancelStep_quiet ..))

theorem tables_switchRuntime (old new : Tables) (a : Nat) (s : State) : (switchRuntime old new a s).tables = s.tables := by
  unfold switchRuntime
  split
  · exact tables_addNode a s
  · exact tables_removeNode a s
  · rfl

theorem nodeState_setRuntime_other {b : Nat} (hb : b ≠ a) (r : Option Runtime) (s : State) :
    (s.setRuntime a r).nodeState b = s.nodeState b := by
  unfold State.nodeState
  rw [runtime_setRuntime, if_neg fun h => hb h.1.symm]

theorem nodeState_freshRuntime (ha : isAddress a = true) (o : Bool) (s : State) :
    (s.setRuntime a (some (freshRuntime o))).nodeState a = .probe := by
  unfold State.nodeState
  rw [runtime_setRuntime, if_pos ⟨rfl, ha⟩]
  rfl

/-- A newly configured node comes up in PROBE or SUSPECT (R58, R59). -/
theorem steady_addNode (ha : isAddress a = true) (s : State) :
    Steady s (addNode a s) ∧ ((addNode a s).nodeState a).isAbsent = true := by
  have hstate := nodeState_freshRuntime ha (s.carriesStep a) s
  have hset : Steady s (s.setRuntime a (some (freshRuntime (s.carriesStep a)))) :=
    ⟨⟨rfl, rfl, rfl, rfl⟩, fun b => by
      by_cases hb : b = a
      · rw [hb, hstate]; exact .inr rfl
      · exact .inl (nodeState_setRuntime_other hb _ s)⟩
  have hkeeps : ∀ {u : State}, Steady (s.setRuntime a (some (freshRuntime (s.carriesStep a)))) u →
      Steady s u ∧ (u.nodeState a).isAbsent = true := fun hu =>
    ⟨hset.trans hu, (hu.states a).elim (fun heq => by rw [heq, hstate]; rfl) id⟩
  unfold addNode
  dsimp only
  split
  · exact hkeeps ((steady_joinGapSet a _).after (steady_enterSuspect a .probe _))
  · refine hkeeps ?_
    unfold enterProbe
    dsimp only
    rw [hstate, if_neg nofun]
    exact steady_enter _ a _

/-- A removed node holds nothing on to by its state: it is configured no longer (R59). -/
theorem Kept.removeNode (h : Kept x s) (hnone : s.tables.node a = none) : Kept x (Machine.removeNode a s) := by
  have hended := h.steady ((steady_endSession a _).after (steady_cancelStep a s))
  have htables := (steady_endSession a (cancelStep a s)).after (steady_cancelStep a s)
  unfold Machine.removeNode
  generalize hu : Machine.endSession a (Machine.cancelStep a s) = u at hended htables
  have hstate : ∀ b, (u.setRuntime a none).nodeState b = u.nodeState b ∨ b = a ∧ (u.setRuntime a none).nodeState b = .unconfigured :=
    fun b => by
      by_cases hb : b = a
      · by_cases ha : isAddress a = true
        · refine .inr ⟨hb, ?_⟩
          rw [hb]
          unfold State.nodeState
          rw [runtime_setRuntime, if_pos ⟨rfl, ha⟩]
        · refine .inl ?_
          unfold State.nodeState
          rw [runtime_setRuntime, if_neg fun h => ha h.2]
      · exact .inl (nodeState_setRuntime_other hb _ u)
  refine ⟨fun hp => ⟨(hended.1 hp).caps, (hended.1 hp).pool, fun b he hb => ?_⟩,
    fun hq => (hended.2 hq).congr rfl rfl rfl fun i r _ _ honline => ?_⟩
  · rcases hstate b with heq | ⟨rfl, -⟩
    · rw [heq] at hb; exact (hended.1 hp).present b he hb
    · refine absurd ?_ he
      show u.tables.node b = none
      rw [htables.records.tables]
      exact hnone
  · rcases hstate r.node with heq | ⟨-, heq⟩
    · rw [heq] at honline; exact honline
    · rw [heq] at honline; exact nomatch honline

theorem Kept.switchRuntime (h : Kept x s) (old : Tables) (a : Nat) (htables : s.tables = new) :
    Kept x (Machine.switchRuntime old new a s) := by
  unfold Machine.switchRuntime
  split
  · next hnew => exact h.steady (steady_addNode (isAddress_of_node hnew) s).1
  · next hnew => exact h.removeNode (by rw [htables]; exact hnew)
  · exact h

/-- Every newly configured node is in an absent state. -/
def Fresh (old new : Tables) (a : Nat) (s : State) : Prop :=
  old.node a = none → new.node a ≠ none → (s.nodeState a).isAbsent = true

theorem Steady.fresh (h : Steady s t) (g : Fresh old new a s) : Fresh old new a t := fun hold hnew =>
  (h.states a).elim (fun heq => by rw [heq]; exact g hold hnew) id

theorem fresh_switchRuntime_self (a : Nat) (s : State) : Fresh old new a (switchRuntime old new a s) := fun hold hnew => by
  obtain ⟨e, he⟩ := Option.ne_none_iff_exists'.1 hnew
  unfold switchRuntime
  rw [hold, he]
  exact (steady_addNode (isAddress_of_node he) s).2

theorem fresh_switchRuntime_other {b : Nat} (hab : a ≠ b) (h : Fresh old new a s) :
    Fresh old new a (switchRuntime old new b s) := by
  unfold switchRuntime
  split
  · next hnew => exact (steady_addNode (isAddress_of_node hnew) s).1.fresh h
  · intro hold hnew
    unfold removeNode
    rw [nodeState_setRuntime_other hab]
    exact ((steady_endSession b _).after (steady_cancelStep b s)).fresh h hold hnew
  · exact h

theorem steady_forgetDestination (a : Nat) (s : State) : Steady s (forgetDestination a s) := by
  unfold forgetDestination
  dsimp only
  split <;> exact steady_withSegment s _

theorem Kept.switchPasses (h : Kept x s) (hfree : ∀ b, old.node b = none → b ∉ x.slots) (hfresh : Fresh old new a s) :
    Kept x (Machine.switchPasses old new a s) := by
  have hforgot := steady_forgetDestination a s
  unfold Machine.switchPasses
  split
  · next hold hnew =>
    exact (h.steady hforgot).returnLeaving (hfree a hold) (hforgot.fresh hfresh hold (by rw [hnew]; nofun))
  · exact h.steady ((steady_withSegment _ _).after hforgot)
  · exact h

theorem fresh_switchPasses (h : Fresh old new a s) (b : Nat) : Fresh old new a (switchPasses old new b s) := by
  have hforgot := (steady_forgetDestination b s).fresh h
  unfold switchPasses
  split
  · intro hold hnew
    unfold State.nodeState
    rw [returnPasses_runtime]
    exact hforgot hold hnew
  · exact (steady_withSegment _ _).fresh hforgot
  · exact h

/-- A node left in REPLAY with nothing pending leaves it (R122). -/
theorem Kept.replayAfterSwitch (h : Kept x s) (ha : a ∉ x.slots) : Kept x (Machine.replayAfterSwitch a s) := by
  unfold Machine.replayAfterSwitch
  split
  · exact h
  · split
    · exact h
    · exact (h.steady (steady_cancelStep a s)).onward ha
  · exact h

theorem Kept.releaseAfterTrim (h : Kept x s) (ha : a ∉ x.slots) : Kept x (Machine.releaseAfterTrim a s) := by
  unfold Machine.releaseAfterTrim
  split
  · exact (h.steady (steady_cancelStep a s)).onward ha
  · exact h

theorem Kept.congr {y : Terms} (h : Kept x s) (hhold : y.hold → x.hold) (hshadow : y.shadow → x.shadow)
    (hqueues : y.queues = x.queues) (hslots : y.slots = x.slots) (hold : y.old = x.old) : Kept y s :=
  ⟨fun hp => by rw [hqueues]; exact h.1 (hhold hp), fun hq => by rw [hslots, hold]; exact h.2 (hshadow hq)⟩

/-- The Shadow Store's part for one address (R123). -/
theorem Kept.switchShadow {l m : List Nat} (h : Kept (.switch p q old new l (a :: m)) s) (ha : a ∉ m) :
    Kept (.switch p q old new l m) (Machine.switchShadow old new a s) := by
  have hstays : ¬ Moved old new a → Kept (.switch p q old new l m) s := fun hnot => by
    refine h.congr id id rfl (Set.ext fun b => ?_) rfl
    show b ∈ m ∧ _ ↔ b ∈ a :: m ∧ _
    refine ⟨fun hb => ⟨List.mem_cons_of_mem a hb.1, hb.2⟩, fun hb => ⟨(List.mem_cons.1 hb.1).resolve_left fun heq => ?_, hb.2⟩⟩
    exact hnot (heq ▸ hb.2)
  have hcleared : ∀ e, old.node a = some e → Moved old new a → Kept (.switch p q old new l m) (clearShadow a e s) :=
    fun e he hmoved => by
      obtain ⟨y, hy⟩ := onlyShadow_clearShadow a e s
      refine ⟨fun hp => ?_, fun hq => ?_⟩
      · rw [hy]
        exact (h.1 hp).congr rfl rfl fun _ hb => .inl hb
      · have hset : (Terms.switch p q old new l m).slots = (Terms.switch p q old new l (a :: m)).slots \ {a} := Set.ext fun b => by
          show b ∈ m ∧ _ ↔ (b ∈ a :: m ∧ _) ∧ b ≠ a
          refine ⟨fun hb => ⟨⟨List.mem_cons_of_mem a hb.1, hb.2⟩, fun heq => ha (heq ▸ hb.1)⟩,
            fun hb => ⟨(List.mem_cons.1 hb.1.1).resolve_left hb.2, hb.1.2⟩⟩
        rw [hset]
        exact (h.2 hq).clearShadow he ⟨List.mem_cons_self, hmoved⟩
  have hfree : a ∉ (Terms.switch p q old new l m).slots := fun hmem => ha hmem.1
  unfold Machine.switchShadow
  split
  · next e hold hnew => exact hcleared e hold ⟨e, hold, fun n hn => by rw [hnew] at hn; exact nomatch hn⟩
  · next e n hold hnew =>
    split
    · next hsame =>
      refine hstays ?_
      rintro ⟨e', he', hmoved⟩
      rw [hold] at he'
      cases he'
      exact hmoved n hnew hsame
    · next hdiffer =>
      refine Kept.replayAfterSwitch (hcleared e hold ⟨e, hold, fun n' hn' => ?_⟩) hfree
      rw [hnew] at hn'
      cases hn'
      exact hdiffer
  · next hold => exact hstays fun hmoved => moved_configured hmoved hold

theorem tables_switchPasses (old new : Tables) (a : Nat) (s : State) : (switchPasses old new a s).tables = s.tables := by
  have hforgot := (steady_forgetDestination a s).records.tables
  unfold switchPasses
  split
  · exact (tables_of_quiet (returnPasses_quiet ..)).trans hforgot
  · exact hforgot
  · rfl

theorem tables_switchShadow (old new : Tables) (a : Nat) (s : State) : (switchShadow old new a s).tables = s.tables :=
  tables_of_quiet (switchShadow_quiet ..)

theorem tables_switchHold (old new : Tables) (a : Nat) (s : State) : (switchHold old new a s).tables = s.tables :=
  tables_of_quiet (switchHold_quiet ..)

/-- The Hold Pool's part for one address (R140, R141). -/
theorem Kept.switchHold {l : List Nat} (h : Kept (.switch p q old new (a :: l) []) s) (htables : s.tables = new) :
    Kept (.switch p q old new l []) (Machine.switchHold old new a s) := by
  have htreated : ∀ {u : State}, Kept (.switch p q old new (a :: l) []) u →
      (old.node a ≠ none → (u.queue a).length ≤ u.holdCap a) → Kept (.switch p q old new l []) u := fun hu hcap =>
    ⟨fun hp => (hu.1 hp).treat fun b hb hnot => by
      have hba : b = a := (List.mem_cons.1 hb.1).resolve_right fun hl => hnot ⟨hl, hb.2⟩
      rw [hba] at hb ⊢
      exact hcap hb.2, hu.2⟩
  have hfree : ∀ {n : List Nat}, a ∉ (Terms.switch p q old new n []).slots := fun hmem => nomatch hmem.1
  unfold Machine.switchHold
  split
  · refine htreated (h.discardQueue a) fun _ => ?_
    show (State.queue (State.setQueue _ a []) a).length ≤ _
    rw [queue_setQueue_nil]
    exact Nat.zero_le _
  · next e n hold hnew =>
    have hcap : s.holdCap a = n.holdCap := by rw [State.holdCap, State.entry, htables, hnew]
    split
    · next hlong =>
      have hreports := reports_reportDiscarded ((s.queue a).drop n.holdCap).reverse s
      have htrimmed : Kept (.switch p q old new (a :: l) []) (trimQueue a n.holdCap s) := by
        refine (h.reports hreports).setQueue a ?_
        rw [queue_congr hreports.sameBlocks.hold]
        exact List.length_take_le' _ _
      refine Kept.releaseAfterTrim (htreated htrimmed fun _ => ?_) hfree
      rw [holdCap_of_tables (s := s) (show (trimQueue a n.holdCap s).tables = s.tables from hreports.sameBlocks.tables), hcap]
      have haddress : isAddress a = true := isAddress_of_node hnew
      rw [show (trimQueue a n.holdCap s).queue a = (s.queue a).take n.holdCap from queue_setQueue_self haddress _ _]
      exact List.length_take_le _ _
    · next hshort => exact htreated h fun _ => by rw [hcap]; omega
  · next hold => exact htreated h fun hnot => absurd hold hnot

/-! ### The switch -/

/-- Under the new tables and with the records of the nodes made, every newly configured node is in an absent state. -/
theorem Kept.switchedRecords (h : Kept (.all p q) s) (hfits : s.responder.edit.firstFault = none) :
    Kept (.switch p q s.tables s.responder.edit addresses addresses) (Machine.switchedRecords addresses s)
      ∧ (Machine.switchedRecords addresses s).tables = s.responder.edit
      ∧ ∀ a ∈ addresses, Fresh s.tables s.responder.edit a (Machine.switchedRecords addresses s) := by
  unfold Machine.switchedRecords
  dsimp only
  generalize hs1 : (s.withTables s.responder.edit).withResponder { s.responder with mode := .service } = s1
  have hswitched : Kept (.switch p q s.tables s.responder.edit addresses addresses) s1 :=
    hs1 ▸ (h.withTables hfits).steady (steady_of_eq rfl rfl rfl rfl)
  have htables : s1.tables = s.responder.edit := hs1 ▸ rfl
  have hreserves := steady_forNodes (steady_switchReserve s.tables s.responder.edit) addresses s1
  obtain ⟨hkept, hnew⟩ := forNodes_keeps (P := fun u => Kept _ u ∧ u.tables = s.responder.edit)
    (f := Machine.switchRuntime s.tables s.responder.edit)
    (fun a u hu => ⟨hu.1.switchRuntime s.tables a hu.2, (tables_switchRuntime _ _ a u).trans hu.2⟩) addresses
    ⟨hswitched.steady hreserves, hreserves.records.tables.trans htables⟩
  exact ⟨hkept, hnew, forNodes_each (P := fun _ _ => True) (fun a u _ => fresh_switchRuntime_self a u)
    (fun _ _ _ _ _ => trivial) (fun a b u hab hu => fresh_switchRuntime_other hab hu) addresses addresses_nodup _
    fun _ _ => trivial⟩

theorem Kept.switchPassesWalk (h : Kept (.switch p q old new addresses addresses) s) (htables : s.tables = new)
    (hfresh : ∀ a ∈ addresses, Fresh old new a s) :
    Kept (.switch p q old new addresses addresses) (forNodes addresses (Machine.switchPasses old new) s)
      ∧ (forNodes addresses (Machine.switchPasses old new) s).tables = new := by
  have hfree : ∀ b, old.node b = none → b ∉ (Terms.switch p q old new addresses addresses).slots :=
    fun b hb hmem => moved_configured hmem.2 hb
  obtain ⟨hkept, hnew, -⟩ := forNodes_keeps_of_mem
    (P := fun u => Kept (.switch p q old new addresses addresses) u ∧ u.tables = new ∧ ∀ a ∈ addresses, Fresh old new a u)
    (f := Machine.switchPasses old new) addresses
    (fun a ha u hu => ⟨hu.1.switchPasses hfree (hu.2.2 a ha), (tables_switchPasses old new a u).trans hu.2.1,
      fun b hb => fresh_switchPasses (hu.2.2 b hb) a⟩) ⟨h, htables, hfresh⟩
  exact ⟨hkept, hnew⟩

theorem Kept.switchShadowWalk {l : List Nat} (m : List Nat) (hm : m.Nodup) {s : State}
    (h : Kept (.switch p q old new l m) s) (htables : s.tables = new) :
    Kept (.switch p q old new l []) (forNodes m (Machine.switchShadow old new) s)
      ∧ (forNodes m (Machine.switchShadow old new) s).tables = new := by
  induction m generalizing s with
  | nil => exact ⟨h, htables⟩
  | cons a m ih =>
    obtain ⟨ha, hm⟩ := List.nodup_cons.1 hm
    exact ih hm (h.switchShadow ha) ((tables_switchShadow old new a s).trans htables)

theorem Kept.switchHoldWalk (l : List Nat) {s : State} (h : Kept (.switch p q old new l []) s) (htables : s.tables = new) :
    Kept (.switch p q old new [] []) (forNodes l (Machine.switchHold old new) s) := by
  induction l generalizing s with
  | nil => exact h
  | cons a l ih => exact ih (h.switchHold htables) ((tables_switchHold old new a s).trans htables)

/-- With nothing left to treat both stores are sound. -/
theorem Kept.treated (h : Kept (.switch p q old new [] []) s) : Kept (.all p q) s := by
  have hnone : ∀ {y : Nat → Prop}, ({a | a ∈ ([] : List Nat) ∧ y a} : Set Nat) = ∅ :=
    Set.eq_empty_of_forall_notMem fun a ha => nomatch ha.1
  obtain ⟨hqueues, hslots⟩ := h
  unfold Terms.switch at hqueues hslots
  dsimp only at hqueues hslots
  rw [hnone] at hqueues hslots
  exact ⟨hqueues, fun hq => (shadowSound_iff _ s).1 ((shadowSound_iff _ s).2 (hslots hq))⟩

theorem Kept.switchBlocks (h : Kept (.switch p q old new addresses addresses) s) (htables : s.tables = new)
    (hfresh : ∀ a ∈ addresses, Fresh old new a s) : Kept (.all p q) (Machine.switchBlocks addresses old new s) := by
  obtain ⟨hpasses, hnew⟩ := h.switchPassesWalk htables hfresh
  unfold Machine.switchBlocks
  dsimp only
  generalize forNodes addresses (Machine.switchPasses old new) s = u at hpasses hnew
  have hcounted := hpasses.steady (steady_of_eq (t := u.withCounters (switchCounters old new u.counters)) rfl rfl rfl rfl)
  obtain ⟨hslots, hnew⟩ := hcounted.switchShadowWalk addresses addresses_nodup hnew
  exact (hslots.switchHoldWalk addresses hnew).treated.steady (steady_withStore _ _)

/-- The switch treats every address: under the new tables both stores are sound again. -/
theorem Kept.tableSwitch (h : Kept (.all p q) s) (hfits : s.responder.edit.firstFault = none) :
    Kept (.all p q) (Machine.tableSwitch s) := by
  rw [tableSwitch_eq]
  obtain ⟨hkept, hnew, hfresh⟩ := h.switchedRecords hfits
  exact hkept.switchBlocks hnew hfresh

theorem Kept.actSetMode (h : Kept (.all p q) s) (r : Request) : Kept (.all p q) (Machine.actSetMode r s) := by
  unfold Machine.actSetMode
  split
  · exact h.steady (steady_of_eq rfl rfl rfl rfl)
  · split
    · exact h.steady (steady_done r _ s)
    · unfold enterService
      split
      · exact h.steady (steady_of_eq rfl rfl rfl rfl)
      · next hfits => exact (h.tableSwitch hfits).steady (steady_done r _ _)
  · exact h.steady (steady_invalid r s)

end

end Sys2Proof.Machine
end

section
/-! SUPPORT. Every command and both resets keep the hold queues and the shadow slots sound. -/

namespace Sys2Proof.Machine

section
variable {p q : Prop} {s t : State}

/-! ### The two resets (R125, R142, R191) -/

theorem fits_of_load {x : Option StoredTables} {n : Tables} (h : loadTables x = some n) : n.firstFault = none := by
  unfold loadTables at h
  split at h
  · next k =>
    split at h
    · next hgood =>
      cases h
      unfold StoredTables.good at hgood
      exact Option.isNone_iff_eq_none.1 (Bool.and_eq_true_iff.1 hgood).2
    · cases h
  · cases h

theorem fits_loaded (x : Option StoredTables) : ((loadTables x).getD Tables.empty).firstFault = none := by
  cases h : loadTables x with
  | none => exact reset_shadowSound.1
  | some n => exact fits_of_load h

/-- At a start nothing is held and no slot is valid. -/
theorem kept_restart (x : Straps) (high : Bool) (s : State) : Kept (.all p q) (restart x high s) := by
  have hqueue : ∀ a, (restart x high s).queue a = [] := reset_queue
  have hslot : ∀ i, (restart x high s).slot i = none := reset_slot
  have hlist : ∀ a, (restart x high s).replayList a = [] := reset_replayList
  refine ⟨fun _ => ⟨fun a _ => by rw [hqueue]; exact Nat.zero_le _, ?_, fun a _ _ => hqueue a⟩, fun _ =>
    ⟨fits_loaded (cutTables s), fun a _ => ?_, fun i r hr => ?_, fun i r hr => ?_, fun i r hr => ?_⟩⟩
  · rw [heldCount_congr (s := State.reset) (t := restart x high s) rfl]
    exact reset_holdSound.2.1
  · unfold State.Lists
    simp [hlist, hslot]
  all_goals rw [hslot] at hr; exact nomatch hr

theorem Kept.firstSample (h : Kept (.all p q) s) : Kept (.all p q) (Machine.firstSample s) := by
  unfold Machine.firstSample
  split
  · split
    · exact h.confirmGapStart 0
    · exact h.steady (steady_withGap s _)
  · exact h

/-! ### Every command -/

theorem kept_happens {r : Option State} (h : Kept (.all p q) s) (hr : ∀ u, r = some u → Kept (.all p q) u)
    (ht : happens r s = .next t) : Kept (.all p q) t := by
  unfold happens at ht
  split at ht
  · cases ht; exact (hr _ rfl).endCommand
  · cases ht; exact h

theorem kept_withinStore {go : State → Option State} (h : Kept (.all p q) s) (hgo : ∀ u, go s = some u → Kept (.all p q) u)
    (ht : withinStore go s = .next t) : Kept (.all p q) t := by
  unfold withinStore at ht
  split at ht
  · cases ht; exact h
  · next hu _ => cases ht; exact (hgo _ hu).endCommand
  · next hu _ =>
    split at ht
    · cases ht; exact (hgo _ hu).endCommand
    · cases ht

/-- A command whose work is steady. -/
theorem kept_steady {r : Option State} (h : Kept (.all p q) s) (hr : ∀ {u}, r = some u → Steady s u)
    (ht : happens r s = .next t) : Kept (.all p q) t := kept_happens h (fun _ hu => h.steady (hr hu)) ht

/-- A command that works on the Trunk Port and the flags. -/
theorem kept_reports {r : Option State} (h : Kept (.all p q) s) (hr : ∀ {u}, r = some u → Reports s u)
    (ht : happens r s = .next t) : Kept (.all p q) t := kept_happens h (fun _ hu => h.reports (hr hu)) ht

/-- The end of a store access whose work is steady. -/
theorem kept_steadyAccess {go : State → Option State} (h : Kept (.all p q) s) (hgo : ∀ {u}, go s = some u → Steady s u)
    (ht : withinStore go s = .next t) : Kept (.all p q) t := kept_withinStore h (fun _ hu => h.steady (hgo hu)) ht

/-- A management request whose own rule keeps both stores sound. -/
theorem kept_request {k : RequestCode} {act : Request → State → State} (h : Kept (.all p q) s)
    (hact : ∀ r u, Kept (.all p q) u → Kept (.all p q) (act r u)) (ht : happens (takeRequest k act s) s = .next t) :
    Kept (.all p q) t := kept_happens h (fun _ hu => h.takeRequest hact hu) ht

/-- A management request whose own rule is steady. -/
theorem kept_steadyRequest {k : RequestCode} {act : Request → State → State} (h : Kept (.all p q) s)
    (hact : ∀ r u, Steady u (act r u)) (ht : happens (takeRequest k act s) s = .next t) : Kept (.all p q) t :=
  kept_request h (fun r _ hu => hu.steady (hact r _)) ht

theorem kept_exec {c : Instr} (h : Kept (.all p q) s) (ht : exec c s = .next t) : Kept (.all p q) t := by
  cases c with
  | powerOn x high => cases ht; exact (kept_restart x high s).firstSample.endCommand
  | reset x high => cases ht; exact (kept_restart x high s).firstSample.endCommand
  | goodFrame chars => exact kept_reports h reports_goodFrame ht
  | badFrame chars => exact kept_reports h reports_badFrame ht
  | trunkCharacterGap ender => exact kept_reports h reports_trunkCharacterGap ht
  | trunkFrameSent => exact kept_reports h reports_trunkFrameSent ht
  | trunkFrameStart => exact kept_reports h reports_trunkFrameStart ht
  | segmentRequest => exact kept_happens h (fun _ hu => h.segmentRequest hu) ht
  | unknownRequest => exact kept_reports h reports_unknownRequest ht
  | nonRequestFrame => exact kept_reports h reports_nonRequestFrame ht
  | readStatus => exact kept_steadyRequest (act := actReadStatus) h (fun r _ => steady_done r _ _) ht
  | readNode => exact kept_steadyRequest h steady_actReadNode ht
  | readCounters => exact kept_steadyRequest h steady_actReadCounters ht
  | clearCounters => exact kept_steadyRequest h steady_actClearCounters ht
  | readRule => exact kept_steadyRequest h steady_actReadRule ht
  | readSet => exact kept_steadyRequest h steady_actReadSet ht
  | readShadow => exact kept_steadyRequest h steady_actReadShadow ht
  | readParameters => exact kept_steadyRequest (act := actReadParameters) h (fun r _ => steady_done r _ _) ht
  | readIdentity => exact kept_steadyRequest (act := actReadIdentity) h (fun r _ => steady_done r _ _) ht
  | storeTables => exact kept_steadyRequest h steady_actStoreTables ht
  | imageOpen => exact kept_steadyRequest (act := actImageOpen) h (fun _ _ => steady_joinOperations _ _) ht
  | imageBlock => exact kept_steadyRequest (act := actImageBlock) h (fun _ _ => steady_joinOperations _ _) ht
  | imageClose => exact kept_steadyRequest (act := actImageClose) h (fun _ _ => steady_joinOperations _ _) ht
  | imageDiscard => exact kept_steadyRequest (act := actImageDiscard) h (fun _ _ => steady_joinOperations _ _) ht
  | imageDrop => exact kept_steadyRequest (act := actImageDrop) h (fun _ _ => steady_joinOperations _ _) ht
  | restartEngine => exact kept_steadyRequest (act := actRestartEngine) h (fun _ _ => steady_of_eq rfl rfl rfl rfl) ht
  | setNoticeMask => exact kept_steadyRequest h steady_actSetNoticeMask ht
  | writeRule => exact kept_steadyRequest h steady_actWriteRule ht
  | writeDefault => exact kept_steadyRequest h steady_actWriteDefault ht
  | writeSet => exact kept_steadyRequest h steady_actWriteSet ht
  | writeNode => exact kept_steadyRequest h steady_actWriteNode ht
  | writeConfigRecord => exact kept_steadyRequest h steady_actWriteConfigRecord ht
  | writeParameters => exact kept_steadyRequest (act := actWriteParameters) h (fun r _ => steady_doneEdit r _ _ _) ht
  | setMode => exact kept_request h (fun r _ hu => hu.actSetMode r) ht
  | isolateNode => exact kept_request h (fun r _ hu => hu.actIsolateNode r) ht
  | restoreNode => exact kept_request h (fun r _ hu => hu.actRestoreNode r) ht
  | setIdentity => exact kept_steadyRequest h steady_actSetIdentity ht
  | clearFlags => exact kept_steadyRequest h steady_actClearFlags ht
  | engineRestartEffect => exact kept_happens h (fun _ hu => h.engineRestartEffect hu) ht
  | operationStart => exact kept_steady h steady_operationStart ht
  | blockProgramEnd b => exact kept_steadyAccess h steady_blockProgramEnd ht
  | checkReadEnd b => exact kept_steadyAccess h steady_checkReadEnd ht
  | directoryWriteEnd b => exact kept_steadyAccess h steady_directoryWriteEnd ht
  | tableWriteEnd b => exact kept_steadyAccess h steady_tableWriteEnd ht
  | storeReadEnd b => exact kept_withinStore h (fun _ hu => h.storeReadEnd hu) ht
  | gapEdgeAbsent => exact kept_happens h (fun _ hu => h.gapEdgeAbsent hu) ht
  | gapEdgePresent => exact kept_happens h (fun _ hu => h.gapEdgePresent hu) ht
  | gapStart => exact kept_happens h (fun _ hu => h.gapStart hu) ht
  | gapEnd => exact kept_happens h (fun _ hu => h.gapEnd hu) ht
  | gapAgedExpiry => exact kept_steady h steady_gapAgedExpiry ht
  | originAgedExpiry a => exact kept_steady h steady_originAgedExpiry ht
  | transactionStart => exact kept_happens h (fun _ hu => h.transactionStart hu) ht
  | segmentFrameSent => exact kept_happens h (fun _ hu => h.segmentFrameSent hu) ht
  | replyTimeout => exact kept_happens h (fun _ hu => h.replyTimeout hu) ht
  | replyReceived chars => exact kept_happens h (fun _ hu => h.replyReceived hu) ht
  | replyCharacterGap => exact kept_happens h (fun _ hu => h.replyCutShort hu) ht
  | replyLengthAbove64 b => exact kept_happens h (fun _ hu => h.replyTooLong hu) ht
  | replyStart => exact kept_steady h steady_replyStart ht
  | settlingEnd => exact kept_steady h steady_settlingEnd ht
  | nextProbeTime a => exact kept_steady h steady_nextProbeTime ht
  | bootWindowClose a => exact kept_steady h steady_bootWindowClose ht
  | busyPollTime a => exact kept_steady h steady_busyPollTime ht
  | holdExpiry a i => exact kept_happens h (fun _ hu => h.holdExpiry hu) ht

/-- A command, or a millisecond of an empty queue, keeps both stores sound. -/
theorem kept_step (h : Kept (.all p q) s) (ht : step s = .next t) : Kept (.all p q) t := by
  unfold step at ht
  split at ht
  · cases ht; exact h.steady (steady_withGap s _)
  · next c rest _ => exact kept_exec (s := s.withPending rest) (h.steady (steady_of_eq rfl rfl rfl rfl)) ht

end

/-- Settles O5: each store is kept sound from its own soundness alone, through every command and a millisecond's step. -/
theorem stepKeepsHoldAndShadowSound : Obligations.StepKeepsHoldAndShadowSound := by
  intro s t h
  have hstart : Kept (.all s.HoldSound s.ShadowSound) s := ⟨(holdSound_iff s).1, (shadowSound_iff _ s).1⟩
  obtain ⟨hhold, hshadow⟩ := kept_step hstart h
  exact ⟨fun hs => (holdSound_iff t).2 (hhold hs), fun hs => (shadowSound_iff _ t).2 (hshadow hs)⟩

end Sys2Proof.Machine
end

section
/-! SUPPORT. What a table switch leaves of the nodes' reserve and runtime records and of the gap set (R24, R33, R58, R59). -/

namespace Sys2Proof.Machine

section
variable {s t u : State} {a b n : Nat} {old new : Tables} {d e : NodeEntry}

/-! ### What the records' part of a switch leaves alone -/

/-- `t` differs from `s` at most in the reserves, the gap set, the Restore Engine and the Image Store. -/
def OnlyRecords (s t : State) : Prop :=
  ∃ v l x y, t = { s with gap := { s.gap with reserves := v, gapSet := l }, restore := x, store := y }

theorem OnlyRecords.refl (s : State) : OnlyRecords s s := ⟨s.gap.reserves, s.gap.gapSet, s.restore, s.store, rfl⟩

theorem OnlyRecords.trans (h : OnlyRecords s t) (g : OnlyRecords t u) : OnlyRecords s u := by
  obtain ⟨_, _, _, _, rfl⟩ := h
  obtain ⟨v, l, x, y, rfl⟩ := g
  exact ⟨v, l, x, y, rfl⟩

theorem OnlyTransfers.records (h : OnlyTransfers s t) : OnlyRecords s t := by
  obtain ⟨x, y, rfl⟩ := h
  exact ⟨s.gap.reserves, s.gap.gapSet, x, y, rfl⟩

theorem onlyRecords_setReserve (s : State) (a : Nat) (r : Option Reserve) : OnlyRecords s (s.setReserve a r) :=
  ⟨_, _, _, _, rfl⟩

theorem onlyRecords_setRuntime (s : State) (a : Nat) (r : Option Runtime) : OnlyRecords s (s.setRuntime a r) :=
  (onlyTransfers_withRestore s _).records

theorem onlyRecords_leaveGapSet (a : Nat) (s : State) : OnlyRecords s (leaveGapSet a s) := ⟨_, _, _, _, rfl⟩

theorem onlyRecords_joinGapSet (a : Nat) (s : State) : OnlyRecords s (joinGapSet a s) := ⟨_, _, _, _, rfl⟩

theorem onlyRecords_switchReserve (old new : Tables) (a : Nat) (s : State) : OnlyRecords s (switchReserve old new a s) := by
  unfold switchReserve
  split
  · exact onlyRecords_setReserve s a _
  · exact (onlyRecords_setReserve s a _).trans (onlyRecords_leaveGapSet a _)
  · split
    · exact onlyRecords_setReserve s a _
    · exact .refl s
  · exact .refl s

/-- Whether a newly configured address comes up in SUSPECT (R58). -/
def State.suspects (s : State) (a : Nat) : Bool := s.gapInProgress && s.isFed a

theorem OnlyRecords.suspects (h : OnlyRecords s t) (a : Nat) : t.suspects a = s.suspects a := by
  obtain ⟨_, _, _, _, rfl⟩ := h
  rfl

/-- A newly configured address comes up with a fresh record, and the entry to its state is that of a doubted node. -/
theorem addNode_eq (ha : isAddress a = true) (s : State) :
    addNode a s =
      if s.suspects a then joinGapSet a (enterSuspect a .probe (s.setRuntime a (some (freshRuntime (s.carriesStep a)))))
      else (s.setRuntime a (some (freshRuntime (s.carriesStep a)))).mapRuntime a fun r =>
        { r.move .probe with misses := 0, bootCount := r.countOnDoubt, step := r.step.offer .probe } := by
  have hstate := nodeState_freshRuntime ha (s.carriesStep a) s
  unfold addNode enterProbe
  dsimp only
  rw [hstate, if_neg (show ¬ NodeState.probe = .online by nofun)]
  rfl

theorem onlyRecords_addNode (ha : isAddress a = true) (s : State) : OnlyRecords s (addNode a s) := by
  have hset := onlyRecords_setRuntime s a (some (freshRuntime (s.carriesStep a)))
  rw [addNode_eq ha]
  split
  · exact (hset.trans (onlyTransfers_mapRuntime _ a _).records).trans (onlyRecords_joinGapSet a _)
  · exact hset.trans (onlyTransfers_mapRuntime _ a _).records

theorem onlyTransfers_removeNode (a : Nat) (s : State) : OnlyTransfers s (removeNode a s) :=
  ((onlyTransfers_mapRuntime s a _).trans (onlyTransfers_endSession a _)).trans (onlyTransfers_withRestore _ _)

theorem onlyRecords_switchRuntime (old new : Tables) (a : Nat) (s : State) : OnlyRecords s (switchRuntime old new a s) := by
  unfold switchRuntime
  split
  · next hnew => exact onlyRecords_addNode (isAddress_of_node hnew) s
  · exact (onlyTransfers_removeNode a s).records
  · exact .refl s

theorem onlyRecords_forNodes {f : Nat → State → State} (hf : ∀ a u, OnlyRecords u (f a u)) (l : List Nat) (s : State) :
    OnlyRecords s (forNodes l f s) :=
  forNodes_keeps (P := OnlyRecords s) (fun a u hu => hu.trans (hf a u)) l (.refl s)

/-! ### The reserves and the gap set (R24, R33) -/

/-- What a switch makes of a reserve record. -/
def switchedReserve (old new : Option NodeEntry) (now : Time) (r : Option Reserve) : Option Reserve :=
  match old, new with
  | none, some _ => some { estimate := 0, origin := now, aged := false }
  | some _, none => none
  | some _, some e => r.map fun r => { r with estimate := min r.estimate e.holdup }
  | none, none => r

theorem reserve_switchReserve_self (ha : isAddress a = true) (s : State) :
    (switchReserve old new a s).reserve a = switchedReserve (old.node a) (new.node a) s.now (s.reserve a) := by
  have hset : ∀ r, (s.setReserve a r).reserve a = r := fun r => by rw [reserve_setReserve, if_pos ⟨rfl, ha⟩]
  unfold switchReserve
  cases old.node a <;> cases new.node a
  · rfl
  · exact hset _
  · exact hset none
  · cases hr : s.reserve a with
    | none => exact hr
    | some r => exact hset _

theorem isAddress_of_mem (h : a ∈ addresses) : isAddress a = true := by
  obtain ⟨hlow, hhigh⟩ := List.mem_range'_1.1 h
  exact isAddress_eq_true hlow (by omega)

theorem reserve_switchReserves (ha : isAddress a = true) (s : State) :
    (forNodes addresses (switchReserve old new) s).reserve a =
      switchedReserve (old.node a) (new.node a) s.now (s.reserve a) := by
  have hwalk := forNodes_each (P := fun c u => isAddress c = true ∧ u.reserve c = s.reserve c ∧ u.now = s.now)
    (Q := fun c u => u.reserve c = switchedReserve (old.node c) (new.node c) s.now (s.reserve c))
    (f := switchReserve old new)
    (fun c u ⟨hc, hr, hnow⟩ => by rw [reserve_switchReserve_self hc, hr, hnow])
    (fun c b u hcb ⟨hc, hr, hnow⟩ => ⟨hc, (switchReserve_reserve_other old new hcb u).trans hr, by
      obtain ⟨_, _, _, _, h⟩ := onlyRecords_switchReserve old new b u
      rw [h]
      exact hnow⟩)
    (fun c b u hcb hr => (switchReserve_reserve_other old new hcb u).trans hr) addresses addresses_nodup s
  exact hwalk (fun c hc => ⟨isAddress_of_mem hc, rfl, rfl⟩) a (mem_addresses ha)

theorem gapSet_switchReserve (b : Nat) (h : a ∉ s.gap.gapSet) : a ∉ (switchReserve old new b s).gap.gapSet := by
  unfold switchReserve
  split
  · exact h
  · exact fun hmem => h (List.mem_filter.1 hmem).1
  · split <;> exact h
  · exact h

/-- A removed node has left the gap set. -/
theorem gapSet_switchReserves (hold : old.node a = some d) (hnew : new.node a = none) (s : State) :
    a ∉ (forNodes addresses (switchReserve old new) s).gap.gapSet := by
  have hwalk := forNodes_each (P := fun _ _ => True)
    (Q := fun c u => old.node c ≠ none → new.node c = none → c ∉ u.gap.gapSet) (f := switchReserve old new)
    (fun c u _ hold hnew hmem => by
      obtain ⟨d, hd⟩ := Option.ne_none_iff_exists'.1 hold
      unfold switchReserve at hmem
      rw [hd, hnew] at hmem
      simpa using (List.mem_filter.1 hmem).2)
    (fun _ _ _ _ h => h) (fun c b u _ hu hold hnew => gapSet_switchReserve b (hu hold hnew)) addresses addresses_nodup s
    fun _ _ => trivial
  exact hwalk a (mem_addresses (isAddress_of_node hold)) (by rw [hold]; nofun) hnew

theorem mem_joinGapSet : a ∈ (joinGapSet b s).gap.gapSet ↔ a ∈ addresses ∧ (a = b ∨ a ∈ s.gap.gapSet) := by
  show a ∈ addressSet (b :: s.gap.gapSet) ↔ _
  rw [addressSet_eq_filter, List.mem_filter, decide_eq_true_iff, List.mem_cons]

/-- Only a newly configured node that is FED in a gap joins the gap set. -/
theorem gapSet_switchRuntime (b : Nat) (s : State) :
    (switchRuntime old new b s).gap.gapSet = s.gap.gapSet
      ∨ old.node b = none ∧ (∃ e, new.node b = some e) ∧ s.suspects b = true
        ∧ (switchRuntime old new b s).gap.gapSet = (joinGapSet b s).gap.gapSet := by
  unfold switchRuntime
  split
  · next e hold hnew =>
    rw [addNode_eq (isAddress_of_node hnew)]
    split
    · next hsuspect =>
      refine .inr ⟨hold, ⟨e, hnew⟩, hsuspect, ?_⟩
      unfold joinGapSet enterSuspect
      rw [(sameBlocks_mapRuntime _ b _).gap]
      rfl
    · exact .inl (by rw [(sameBlocks_mapRuntime _ b _).gap]; rfl)
  · exact .inl (by rw [(onlyTransfers_removeNode b s).sameBlocks.gap])
  · exact .inl rfl

/-! ### The runtime records (R58, R59) -/

/-- The record of a newly configured node. -/
def addedRecord (suspect orphan : Bool) : Runtime := doubtedRecord suspect (freshRuntime orphan)

theorem runtime_addNode_self (ha : isAddress a = true) (s : State) :
    (addNode a s).runtime a = some (addedRecord (s.suspects a) (s.carriesStep a)) := by
  have hset : (s.setRuntime a (some (freshRuntime (s.carriesStep a)))).runtime a = some (freshRuntime (s.carriesStep a)) := by
    rw [runtime_setRuntime, if_pos ⟨rfl, ha⟩]
  rw [addNode_eq ha]
  cases s.suspects a with
  | true => exact runtime_mapRuntime_same hset _
  | false => exact runtime_mapRuntime_same hset _

theorem runtime_addNode_other (hb : isAddress b = true) (hab : a ≠ b) (s : State) : (addNode b s).runtime a = s.runtime a := by
  have hset : ∀ r, (s.setRuntime b r).runtime a = s.runtime a := fun r => by
    rw [runtime_setRuntime, if_neg fun h => hab h.1.symm]
  rw [addNode_eq hb]
  split
  · exact (runtime_mapRuntime_other _ hab _).trans (hset _)
  · exact (runtime_mapRuntime_other _ hab _).trans (hset _)

theorem granted_removeNode (hab : a ≠ b) (s : State) : GrantedAt s (removeNode b s) a := by
  have hended : GrantedAt s (endSession b (cancelStep b s)) a :=
    (GrantedAt.of_eq (runtime_mapRuntime_other s hab _)).trans (granted_endSession hab _)
  refine hended.trans (.of_eq ?_)
  unfold removeNode
  rw [runtime_setRuntime, if_neg fun h => hab h.1.symm]

theorem granted_switchRuntime (hab : a ≠ b) (s : State) : GrantedAt s (switchRuntime old new b s) a := by
  unfold switchRuntime
  split
  · next hnew => exact .of_eq (runtime_addNode_other (isAddress_of_node hnew) hab s)
  · exact granted_removeNode hab s
  · exact .of_eq rfl

theorem runtime_removeNode_self (ha : isAddress a = true) (s : State) : (removeNode a s).runtime a = none := by
  unfold removeNode
  rw [runtime_setRuntime, if_pos ⟨rfl, ha⟩]

/-- A node without a session, or without a record, keeps what it has while others are treated. -/
theorem runtime_switchRuntime_idle (hab : a ≠ b) (hidle : s.session a = none) :
    (switchRuntime old new b s).runtime a = s.runtime a := (granted_switchRuntime hab s).idle hidle

theorem session_of_none (h : s.runtime a = none) : s.session a = none := by unfold State.session; rw [h]; rfl

/-- The Restore Engine's part of a switch. -/
def switchedRuntimes (old new : Tables) (s : State) : State := forNodes addresses (switchRuntime old new) s

theorem onlyRecords_switchedRuntimes (old new : Tables) (s : State) : OnlyRecords s (switchedRuntimes old new s) :=
  onlyRecords_forNodes (onlyRecords_switchRuntime old new) addresses s

/-- A newly configured node has a new record, and is a member of the gap set where it is in SUSPECT. -/
theorem switchedRuntimes_added (hold : old.node a = none) (hnew : new.node a = some e) (s : State) :
    ∃ o, (switchedRuntimes old new s).runtime a = some (addedRecord (s.suspects a) o)
      ∧ (s.suspects a = true → a ∈ (switchedRuntimes old new s).gap.gapSet) := by
  have hwalk := forNodes_each (P := fun _ u => OnlyRecords s u)
    (Q := fun c u => old.node c = none → (∃ e, new.node c = some e) →
      (∃ o, u.runtime c = some (addedRecord (s.suspects c) o)) ∧ (s.suspects c = true → c ∈ u.gap.gapSet))
    (f := switchRuntime old new)
    (fun c u hu hold ⟨e, he⟩ => by
      have hc := isAddress_of_node he
      rw [show switchRuntime old new c u = addNode c u by unfold switchRuntime; rw [hold, he], ← hu.suspects c]
      refine ⟨⟨_, runtime_addNode_self hc u⟩, fun hsuspect => ?_⟩
      rw [addNode_eq hc, if_pos hsuspect]
      exact mem_joinGapSet.2 ⟨mem_addresses hc, .inl rfl⟩)
    (fun c b u _ hu => hu.trans (onlyRecords_switchRuntime old new b u))
    (fun c b u hcb hu hold hnew => by
      obtain ⟨⟨o, hr⟩, hset⟩ := hu hold hnew
      obtain ⟨e, he⟩ := hnew
      refine ⟨⟨o, (runtime_switchRuntime_idle hcb (session_of_runtime hr)).trans hr⟩, fun hsuspect => ?_⟩
      rcases gapSet_switchRuntime (old := old) (new := new) b u with h | ⟨-, -, -, h⟩
      · rw [h]; exact hset hsuspect
      · rw [h]
        exact mem_joinGapSet.2 ⟨mem_addresses (isAddress_of_node he), .inr (hset hsuspect)⟩)
    addresses addresses_nodup s fun _ _ => .refl s
  obtain ⟨⟨o, hr⟩, hset⟩ := hwalk a (mem_addresses (isAddress_of_node hnew)) hold ⟨e, hnew⟩
  exact ⟨o, hr, hset⟩

/-- A removed node has no record. -/
theorem runtime_switchedRuntimes_removed (hold : old.node a = some d) (hnew : new.node a = none) (s : State) :
    (switchedRuntimes old new s).runtime a = none := by
  have hwalk := forNodes_each (P := fun _ _ => True)
    (Q := fun c u => old.node c ≠ none → new.node c = none → u.runtime c = none) (f := switchRuntime old new)
    (fun c u _ hold hnew => by
      obtain ⟨d, hd⟩ := Option.ne_none_iff_exists'.1 hold
      unfold switchRuntime
      rw [hd, hnew]
      exact runtime_removeNode_self (isAddress_of_node hd) u)
    (fun _ _ _ _ h => h)
    (fun c b u hcb hu hold hnew =>
      (runtime_switchRuntime_idle hcb (session_of_none (hu hold hnew))).trans (hu hold hnew)) addresses addresses_nodup s
    fun _ _ => trivial
  exact hwalk a (mem_addresses (isAddress_of_node hold)) (by rw [hold]; nofun) hnew

/-- A node outside the gap set that was configured stays outside. -/
theorem gapSet_switchedRuntimes (hold : old.node a = some d) (h : a ∉ s.gap.gapSet) :
    a ∉ (switchedRuntimes old new s).gap.gapSet := by
  refine forNodes_keeps (P := fun u => a ∉ u.gap.gapSet) (f := switchRuntime old new) (fun b u hu => ?_) addresses h
  rcases gapSet_switchRuntime (old := old) (new := new) b u with heq | ⟨hnone, -, -, heq⟩
  · rw [heq]; exact hu
  · rw [heq, mem_joinGapSet]
    rintro ⟨-, rfl | hmem⟩
    · rw [hold] at hnone; exact nomatch hnone
    · exact hu hmem

/-- A node that stays configured keeps its record, but for a buffer its session is granted. -/
theorem granted_switchedRuntimes (hold : old.node a = some d) (hnew : new.node a = some e) (s : State) :
    GrantedAt s (switchedRuntimes old new s) a := by
  refine forNodes_keeps (P := fun u => GrantedAt s u a) (f := switchRuntime old new) (fun b u hu => hu.trans ?_) addresses
    (.of_eq rfl)
  by_cases hab : a = b
  · rw [← hab]
    unfold switchRuntime
    rw [hold, hnew]
    exact .of_eq rfl
  · exact granted_switchRuntime hab u

/-- A granted buffer leaves the step's condition in flight only where it was. -/
theorem GrantedAt.not_inFlight (h : GrantedAt s t a) (hstep : ∀ r k, s.runtime a = some r → r.step ≠ .inFlight k) :
    ∀ r k, t.runtime a = some r → r.step ≠ .inFlight k := fun r k hr => by
  obtain heq | ⟨r', x, j, hr', -, ht⟩ := h
  · exact hstep r k (heq ▸ hr)
  · rw [ht] at hr
    cases hr
    show r'.step.wait ≠ _
    cases r'.step <;> exact nofun

end

end Sys2Proof.Machine
end

section
/-! SUPPORT. What the Segment Master's part of a table switch leaves alone beside a newly configured address: the hold queues and
the shadow slots that its returned pass frames do not reach (R72, R74, R105). -/

namespace Sys2Proof.Machine

section
variable {s t u : State} {a b k n : Nat} {old new : Tables} {d e : NodeEntry}

/-! ### Egress entries that are taken (R181) -/

/-- An egress entry that is not FREE stays as it is. -/
def KeepsEntry (k : Nat) (s t : State) : Prop :=
  s.trunk.egress[k]? ≠ some .free → t.trunk.egress[k]? = s.trunk.egress[k]?

theorem KeepsEntry.of_egress (h : t.trunk.egress = s.trunk.egress) : KeepsEntry k s t := fun _ => by rw [h]

theorem KeepsEntry.trans (h : KeepsEntry k s t) (g : KeepsEntry k t u) : KeepsEntry k s u := fun hk =>
  (g (by rw [h hk]; exact hk)).trans (h hk)

theorem keepsEntry_enqueue_free {i : Nat} (h : s.freeEntry = some i) (f : TrunkFrame) : KeepsEntry k s (s.enqueue i f) :=
  fun hk => egress_enqueue_other (fun hki => hk (by rw [hki]; exact (freeEntry_eq_some h).2)) f

theorem keepsEntry_loseFrame (s : State) : KeepsEntry k s (loseFrame s) := by
  have hlost : KeepsEntry k s ((countLost s).setFlag .egressOverflow) := .of_egress rfl
  unfold loseFrame
  dsimp only
  split
  · exact .of_egress rfl
  · split
    · split
      · next i hi => exact hlost.trans (keepsEntry_enqueue_free hi _)
      · exact .of_egress rfl
    · exact hlost

theorem keepsEntry_offerFrame (f : TrunkFrame) (s : State) : KeepsEntry k s (offerFrame f s) := by
  unfold offerFrame
  split
  · next i hi => exact keepsEntry_enqueue_free hi f
  · exact keepsEntry_loseFrame s

/-! ### What returned frames capture (R105, R112) -/

/-- Of the Shadow Store only what belongs to node `a` changes: its list, its replay in flight, the slots of its range. -/
structure CapturesAt (a : Nat) (s t : State) : Prop where
  tables : t.tables = s.tables
  lists : ∀ b, b ≠ a → t.replayList b = s.replayList b
  flights : ∀ b, b ≠ a → t.replayInFlight b = s.replayInFlight b
  slots : ∀ j, (∀ r, s.poolSlot a r ≠ some j) → t.slot j = s.slot j

theorem poolSlot_congr (h : t.tables = s.tables) (a r : Nat) : t.poolSlot a r = s.poolSlot a r := by
  unfold State.poolSlot State.entry; rw [h]

theorem capturesAt_of_shadow (htables : t.tables = s.tables) (h : t.shadow = s.shadow) : CapturesAt a s t :=
  ⟨htables, fun b _ => by unfold State.replayList; rw [h], fun b _ => by unfold State.replayInFlight; rw [h],
    fun j _ => by unfold State.slot; rw [h]⟩

theorem CapturesAt.trans (h : CapturesAt a s t) (g : CapturesAt a t u) : CapturesAt a s u where
  tables := g.tables.trans h.tables
  lists := fun b hb => (g.lists b hb).trans (h.lists b hb)
  flights := fun b hb => (g.flights b hb).trans (h.flights b hb)
  slots := fun j hj => (g.slots j fun r => by rw [poolSlot_congr h.tables]; exact hj r).trans (h.slots j hj)

theorem capturesAt_captureLatest (a : Nat) (slot : Option Nat) (c : CapturedFrame) (s : State) :
    CapturesAt a s (captureLatest a slot c s).1 := by
  unfold captureLatest
  split
  · next r =>
    cases hi : s.poolSlot a r with
    | none =>
      rw [capture_miss hi]
      obtain ⟨-, hshadow, -, hstores⟩ := shadowMiss_spec s
      obtain ⟨_, _, _, _, hs⟩ := hstores
      exact ⟨by rw [hs], fun b _ => by unfold State.replayList; rw [hshadow],
        fun b _ => by unfold State.replayInFlight; rw [hshadow], fun j _ => by unfold State.slot; rw [hshadow]⟩
    | some i =>
      have h := (capture_spec hi c true).2
      refine ⟨by obtain ⟨x, hx⟩ := h.frame; rw [hx]; rfl, fun b hb => ?_, fun b hb => ?_, fun j hj => ?_⟩
      · rw [h.lists, if_neg fun hab => hb hab.1.symm]
      · rw [h.flights, if_neg (Ne.symm hb)]
      · rw [h.slots, if_neg fun hji => hj r (by rw [hji.1]; exact hi)]
  · exact capturesAt_of_shadow rfl rfl

theorem Stores.tables (h : Stores s t) : t.tables = s.tables := by
  obtain ⟨_, _, _, _, rfl⟩ := h
  rfl

theorem capturesAt_appendHold (a b : Nat) (x : HeldFrame) (s : State) : CapturesAt a s (appendHold b x s).1 :=
  capturesAt_of_shadow (stores_appendHold b x s).tables (shadow_appendHold b x s)

theorem capturesAt_absentTreatment (e : PassEntry) (a : Nat) (s : State) : CapturesAt a s (absentTreatment e a s) := by
  unfold absentTreatment
  split
  · exact capturesAt_appendHold _ _ _ _
  · exact capturesAt_captureLatest _ _ _ _
  · exact capturesAt_of_shadow rfl rfl

theorem capturesAt_disposeReturned {e : PassEntry} (he : e.destination = a) (s : State) :
    CapturesAt a s (disposeReturned e s) := by
  have hanswer : ∀ (c : AnswerCode) (v : State), CapturesAt a v (answerPass e c [] v) := fun c v => capturesAt_of_shadow rfl rfl
  unfold disposeReturned
  split
  · exact (capturesAt_appendHold _ _ _ _).trans (hanswer _ _)
  · rw [he]
    exact (capturesAt_captureLatest _ _ _ _).trans (hanswer _ _)
  · exact hanswer _ _

theorem capturesAt_walkReturned (a : Nat) (q : List PassEntry) (s : State) : CapturesAt a s (walkReturned [a] q s).2 := by
  induction q generalizing s with
  | nil => exact capturesAt_of_shadow rfl rfl
  | cons e q ih =>
    unfold walkReturned
    split
    · refine CapturesAt.trans ?_ (ih _)
      refine forNodes_keeps_of_mem (P := CapturesAt a s) _ (fun b hb v hv => hv.trans ?_) (capturesAt_of_shadow rfl rfl)
      have hba : b = a := by simpa using (List.mem_filter.1 hb).2
      exact hba ▸ capturesAt_absentTreatment e b v
    · split
      · next hleaves => exact (capturesAt_disposeReturned (by simpa using hleaves) s).trans (ih _)
      · exact ih s

theorem capturesAt_returnPasses (a : Nat) (s : State) : CapturesAt a s (returnPasses [a] s) :=
  ((capturesAt_walkReturned a s.segment.urgent s).trans (capturesAt_walkReturned a s.segment.normal _)).trans
    (capturesAt_of_shadow rfl rfl)

/-! ### The Segment Master's part -/

/-- `t` differs from `s` at most in the Segment Master and in the blocks that dispose of a frame. -/
def OnlyPasses (s t : State) : Prop := ∃ h x y z g, t = { s with hold := h, shadow := x, trunk := y, responder := z, segment := g }

theorem OnlyPasses.refl (s : State) : OnlyPasses s s := ⟨s.hold, s.shadow, s.trunk, s.responder, s.segment, rfl⟩

theorem OnlyPasses.trans (h : OnlyPasses s t) (g : OnlyPasses t u) : OnlyPasses s u := by
  obtain ⟨_, _, _, _, _, rfl⟩ := h
  obtain ⟨h', x, y, z, w, rfl⟩ := g
  exact ⟨h', x, y, z, w, rfl⟩

theorem onlyPasses_withSegment (s : State) (g : SegmentMaster) : OnlyPasses s (s.withSegment g) :=
  ⟨s.hold, s.shadow, s.trunk, s.responder, g, rfl⟩

theorem onlyPasses_returnPasses (l : List Nat) (s : State) : OnlyPasses s (returnPasses l s) := by
  obtain ⟨t, _, _, _, hstores, heq, -⟩ := returnPasses_only l s
  obtain ⟨h, x, y, z, rfl⟩ := hstores
  exact ⟨h, x, y, z, _, heq⟩

theorem forgetDestination_segment (a : Nat) (s : State) :
    ∃ l, forgetDestination a s = s.withSegment { s.segment with line := l } := by
  obtain ⟨l, h, -⟩ := forgetDestination_cases a s
  exact ⟨l, h⟩

theorem onlyPasses_forgetDestination (a : Nat) (s : State) : OnlyPasses s (forgetDestination a s) := by
  obtain ⟨l, h⟩ := forgetDestination_segment a s
  rw [h]
  exact onlyPasses_withSegment s _

theorem onlyPasses_switchPasses (a : Nat) (s : State) : OnlyPasses s (switchPasses old new a s) := by
  unfold switchPasses
  split
  · exact (onlyPasses_forgetDestination a s).trans (onlyPasses_returnPasses [a] _)
  · exact (onlyPasses_forgetDestination a s).trans (onlyPasses_withSegment _ _)
  · exact .refl s

/-- An address newly configured. -/
def Added (old new : Tables) (a : Nat) : Prop := old.node a = none ∧ ∃ e, new.node a = some e

/-- What the Segment Master's part leaves: what belongs to an address that is not newly configured. -/
structure Passed (old new : Tables) (s t : State) : Prop where
  only : OnlyPasses s t
  queues : ∀ b, old.node b ≠ none → t.queue b = s.queue b
  lists : ∀ b, old.node b ≠ none → t.replayList b = s.replayList b
  flights : ∀ b, old.node b ≠ none → t.replayInFlight b = s.replayInFlight b
  slots : ∀ j, (∀ a r, Added old new a → s.poolSlot a r ≠ some j) → t.slot j = s.slot j

theorem OnlyPasses.tables (h : OnlyPasses s t) : t.tables = s.tables := by
  obtain ⟨_, _, _, _, _, rfl⟩ := h
  rfl

theorem Passed.trans (h : Passed old new s t) (g : Passed old new t u) : Passed old new s u where
  only := h.only.trans g.only
  queues := fun b hb => (g.queues b hb).trans (h.queues b hb)
  lists := fun b hb => (g.lists b hb).trans (h.lists b hb)
  flights := fun b hb => (g.flights b hb).trans (h.flights b hb)
  slots := fun j hj =>
    (g.slots j fun a r ha => by rw [poolSlot_congr h.only.tables]; exact hj a r ha).trans (h.slots j hj)

theorem passed_withSegment (s : State) (g : SegmentMaster) : Passed old new s (s.withSegment g) :=
  ⟨onlyPasses_withSegment s g, fun _ _ => rfl, fun _ _ => rfl, fun _ _ => rfl, fun _ _ => rfl⟩

theorem passed_returnPasses (ha : Added old new a) (s : State) : Passed old new s (returnPasses [a] s) := by
  have hother : ∀ {b}, old.node b ≠ none → b ≠ a := fun hb hba => hb (hba ▸ ha.1)
  have hcaptures := capturesAt_returnPasses a s
  exact ⟨onlyPasses_returnPasses [a] s,
    fun b hb => (appends_returnPasses [a] s b).2 (by rw [List.mem_singleton]; exact hother hb),
    fun b hb => hcaptures.lists b (hother hb), fun b hb => hcaptures.flights b (hother hb),
    fun j hj => hcaptures.slots j fun r => hj a r ha⟩

theorem passed_switchPasses (a : Nat) (s : State) : Passed old new s (switchPasses old new a s) := by
  obtain ⟨l, hforgot⟩ := forgetDestination_segment a s
  unfold switchPasses
  rw [hforgot]
  split
  · next e hold hnew => exact (passed_withSegment s _).trans (passed_returnPasses ⟨hold, e, hnew⟩ _)
  · exact (passed_withSegment s _).trans (passed_withSegment _ _)
  · exact passed_withSegment s s.segment

/-- The Segment Master's part of a switch. -/
def switchedPasses (old new : Tables) (s : State) : State := forNodes addresses (switchPasses old new) s

theorem passed_switchedPasses (old new : Tables) (s : State) : Passed old new s (switchedPasses old new s) :=
  forNodes_keeps (P := Passed old new s) (fun a _ hu => hu.trans (passed_switchPasses a _)) addresses
    (passed_withSegment s s.segment)

/-! ### Empty pass queues -/

/-- Nothing is queued, and both ends hold the same. -/
def Unqueued (s t : State) : Prop :=
  s.segment.urgent ++ s.segment.normal = [] →
    t.segment.urgent ++ t.segment.normal = [] ∧ t.trunk = s.trunk ∧ t.hold = s.hold

theorem Unqueued.trans (h : Unqueued s t) (g : Unqueued t u) : Unqueued s u := fun hs => by
  obtain ⟨ht, htrunk, hhold⟩ := h hs
  obtain ⟨hu, htrunk', hhold'⟩ := g ht
  exact ⟨hu, htrunk'.trans htrunk, hhold'.trans hhold⟩

theorem unqueued_returnPasses (l : List Nat) (s : State) : Unqueued s (returnPasses l s) := fun hs => by
  obtain ⟨hurgent, hnormal⟩ := List.append_eq_nil_iff.1 hs
  unfold returnPasses
  rw [hurgent, hnormal]
  exact ⟨rfl, rfl, rfl⟩

theorem unqueued_switchPasses (a : Nat) (s : State) : Unqueued s (switchPasses old new a s) := by
  obtain ⟨l, hforgot⟩ := forgetDestination_segment a s
  have hforget : Unqueued s (s.withSegment { s.segment with line := l }) := fun hs => ⟨hs, rfl, rfl⟩
  unfold switchPasses
  rw [hforgot]
  split
  · exact hforget.trans (unqueued_returnPasses [a] _)
  · refine hforget.trans fun hs => ⟨?_, rfl, rfl⟩
    obtain ⟨hurgent, hnormal⟩ := List.append_eq_nil_iff.1 hs
    unfold dropLive
    dsimp only
    rw [hurgent, hnormal]
    rfl
  · exact fun hs => ⟨hs, rfl, rfl⟩

theorem unqueued_switchedPasses (old new : Tables) (s : State) : Unqueued s (switchedPasses old new s) :=
  forNodes_keeps (P := Unqueued s) (fun a _ hu => hu.trans (unqueued_switchPasses a _)) addresses fun hs => ⟨hs, rfl, rfl⟩

end

end Sys2Proof.Machine
end

section
/-! SUPPORT. What the Shadow Store's part of a table switch leaves: the slots, lists and replays in flight of the ranges given up, and
the states of the nodes left with nothing pending (R122, R123); and the Classifier's counters (R107). -/

namespace Sys2Proof.Machine

section
variable {s t u : State} {a b j k n : Nat} {old new : Tables} {d e : NodeEntry}

/-! ### The Classifier's counters (R107) -/

/-- A fold that clears some counters clears those, and keeps the others. -/
theorem getElem?_foldl_clear (p : Nat → Prop) [DecidablePred p] (l : List Nat) (v : Vector RuleCounters 48) (j : Nat) (hj : j < 48) :
    (l.foldl (fun v i => if p i then v else v.setIfInBounds i { frames := 0, bytes := 0 }) v)[j]? =
      if j ∈ l ∧ ¬ p j then some { frames := 0, bytes := 0 } else v[j]? := by
  induction l generalizing v with
  | nil => simp
  | cons i l ih =>
    rw [List.foldl_cons, ih]
    by_cases hi : p i
    · rw [if_pos hi]
      by_cases hji : j = i
      · subst hji; simp [hi]
      · simp [hji]
    · rw [if_neg hi, Vector.getElem?_setIfInBounds]
      by_cases hji : j = i
      · subst hji; simp [hi, hj]
      · simp [hji, Ne.symm hji]

theorem rules_switchCounters (c : ClassifierCounters) (hj : j < 48) :
    (switchCounters old new c).rules[j]? =
      if old.rule j = new.rule j then c.rules[j]? else some { frames := 0, bytes := 0 } := by
  refine (getElem?_foldl_clear (fun i => old.rule i = new.rule i) (List.range 48) c.rules j hj).trans ?_
  by_cases h : old.rule j = new.rule j
  · simp [h]
  · simp [h, hj]

/-! ### A node that leaves REPLAY or RELEASE by the onward choice (R122, R141) -/

/-- What the cancelled step and the onward choice of one node leave. -/
structure Resumed (a : Nat) (s t : State) : Prop where
  blocks : SameBlocks s t
  others : ∀ b, b ≠ a → t.runtime b = s.runtime b
  state : ∀ r, s.runtime a = some r → t.nodeState a = s.onwardState a
  entries : ∀ k, KeepsEntry k s t
  mute : s.responder.mask = 0 → t.trunk = s.trunk

theorem trunk_mapRuntime (s : State) (a : Nat) (f : Runtime → Runtime) :
    (s.mapRuntime a f).trunk = s.trunk ∧ (s.mapRuntime a f).responder = s.responder := by
  obtain ⟨_, _, h⟩ := onlyTransfers_mapRuntime s a f
  rw [h]
  exact ⟨rfl, rfl⟩

theorem keepsEntry_offerNodeState (a : Nat) (st : NodeState) (s : State) : KeepsEntry k s (offerNodeState a st s) := by
  unfold offerNodeState
  split
  · exact keepsEntry_offerFrame _ s
  · exact .of_egress rfl

theorem offerNodeState_mute (a : Nat) (st : NodeState) (h : s.responder.mask = 0) : offerNodeState a st s = s := by
  unfold offerNodeState
  rw [if_neg]
  unfold State.maskNodeState
  rw [h]
  decide

/-- The onward choice sends at most a notice, and none under an empty mask. -/
theorem onward_sends (a : Nat) (s : State) :
    (∀ k, KeepsEntry k s (onward a s)) ∧ (s.responder.mask = 0 → (onward a s).trunk = s.trunk) := by
  have hmap : ∀ f, (∀ k, KeepsEntry k s (s.mapRuntime a f)) ∧ (s.responder.mask = 0 → (s.mapRuntime a f).trunk = s.trunk) :=
    fun f => ⟨fun k => .of_egress (congrArg TrunkPort.egress (trunk_mapRuntime s a f).1), fun _ => (trunk_mapRuntime s a f).1⟩
  unfold onward
  split
  · exact hmap _
  · split
    · exact hmap _
    · refine ⟨fun k => ((hmap _).1 k).trans (keepsEntry_offerNodeState a .online _), fun hmask => ?_⟩
      unfold enterOnline
      dsimp only
      rw [offerNodeState_mute a .online (by rw [(trunk_mapRuntime s a _).2]; exact hmask)]
      exact (trunk_mapRuntime s a _).1

theorem resumed_onward (a : Nat) (s : State) : Resumed a s (onward a (cancelStep a s)) := by
  obtain ⟨g, hg, hstate⟩ := onward_rewrites a (cancelStep a s)
  obtain ⟨hentries, hmute⟩ := onward_sends a (cancelStep a s)
  have hblocks : SameBlocks s (cancelStep a s) := sameBlocks_mapRuntime s a _
  have hcancel : (cancelStep a s).trunk = s.trunk ∧ (cancelStep a s).responder = s.responder := trunk_mapRuntime s a _
  refine ⟨hblocks.trans hg.blocks, fun b hb => (hg.runtime_other hb).trans (runtime_mapRuntime_other s hb _), fun r hr => ?_,
    fun k => (KeepsEntry.of_egress (congrArg TrunkPort.egress hcancel.1)).trans (hentries k),
    fun hmask => (hmute (by rw [hcancel.2]; exact hmask)).trans hcancel.1⟩
  rw [nodeState_of_runtime (hg.runtime_same (runtime_mapRuntime_same hr _)), (hstate _).1, hblocks.onwardState]

/-- A node whose replay order list is empty does not go on to REPLAY. -/
theorem onwardState_of_unlisted (h : s.replayList a = []) : s.onwardState a ≠ .replay := by
  unfold State.onwardState State.hasPending State.pendingSlots
  rw [h]
  show (if (false : Bool) = true then _ else _) ≠ _
  rw [if_neg nofun]
  split <;> nofun

/-! ### The clearing of a range (R123) -/

theorem slot_clearShadow (s : State) :
    (clearShadow a d s).slot j = if d.shadowBase ≤ j ∧ j < d.shadowBase + d.shadowCount then none else s.slot j := by
  have hslots := slot_clearSlots (List.range' d.shadowBase d.shadowCount) s j
  unfold clearShadow
  dsimp only
  split <;>
  · refine (?_ : _ = (forNodes (List.range' d.shadowBase d.shadowCount) clearSlot s).slot j).trans (hslots.trans ?_)
    · rfl
    · simp only [List.mem_range'_1]

theorem replayInFlight_clearSlot (i : Nat) (s : State) : (clearSlot i s).shadow.inFlight = s.shadow.inFlight := by
  unfold clearSlot
  split <;> rfl

theorem replayInFlight_clearShadow (ha : isAddress a = true) (s : State) :
    (clearShadow a d s).replayInFlight b =
      if a = b then (s.replayInFlight a).map fun f => { f with replaced := true } else s.replayInFlight b := by
  have hkept : ∀ b, ((forNodes (List.range' d.shadowBase d.shadowCount) clearSlot s).setReplayList a []).replayInFlight b =
      s.replayInFlight b := fun b =>
    congrArg (fun v => (atNode v b).join) (forNodes_same (fun u => u.shadow.inFlight) replayInFlight_clearSlot _ s)
  unfold clearShadow
  dsimp only
  split
  · next f hf =>
    rw [replayInFlight_setReplayInFlight, hkept]
    rw [hkept] at hf
    rw [hf]
    by_cases hab : a = b
    · rw [if_pos ⟨hab, ha⟩, if_pos hab]; rfl
    · rw [if_neg fun h => hab h.1, if_neg hab]
  · next hf =>
    rw [hkept] at hf ⊢
    rw [hf]
    by_cases hab : a = b
    · rw [if_pos hab, ← hab, hf]; rfl
    · rw [if_neg hab]

/-- An empty list stays empty while slots are cleared. -/
theorem replayList_clearSlot (i : Nat) (h : s.replayList b = []) : (clearSlot i s).replayList b = [] := by
  unfold clearSlot
  split
  · next r _ =>
    rw [replayList_setReplayList]
    split
    · next hb => rw [hb.1, h]; rfl
    · exact h
  · exact h

theorem replayList_clearShadow (ha : isAddress a = true) (h : b = a ∨ s.replayList b = []) :
    (clearShadow a d s).replayList b = [] := by
  have hemptied : ((forNodes (List.range' d.shadowBase d.shadowCount) clearSlot s).setReplayList a []).replayList b = [] := by
    rw [replayList_setReplayList]
    split
    · rfl
    · next hba =>
      rcases h with rfl | h
      · exact absurd ⟨rfl, ha⟩ hba
      · exact forNodes_keeps (P := fun u => u.replayList b = []) (fun i _ hu => replayList_clearSlot i hu) _ h
  unfold clearShadow
  dsimp only
  split <;> exact hemptied

/-! ### One address -/

theorem replayAfterSwitch_cases (a : Nat) (s : State) :
    replayAfterSwitch a s = s
      ∨ (∃ r, s.runtime a = some r ∧ r.state = .replay) ∧ Resumed a s (replayAfterSwitch a s) := by
  unfold replayAfterSwitch
  split
  · exact .inl rfl
  · next r hr =>
    split
    · exact .inl rfl
    · exact .inr ⟨⟨_, hr, rfl⟩, resumed_onward a s⟩
  · exact .inl rfl

/-- A node left with nothing pending leaves REPLAY, unless its step is in flight. -/
theorem replayAfterSwitch_leaves (hlist : s.replayList a = []) (hstep : ∀ r k, s.runtime a = some r → r.step ≠ .inFlight k) :
    (replayAfterSwitch a s).nodeState a ≠ .replay := by
  have hnone : s.hasPending a = false := by unfold State.hasPending State.pendingSlots; rw [hlist]; rfl
  unfold replayAfterSwitch
  split
  · next r hr => exact absurd rfl (hstep _ _ hr)
  · next r _ hr =>
    rw [hnone, if_neg nofun]
    rw [(resumed_onward a s).state _ hr]
    exact onwardState_of_unlisted hlist
  · next hinFlight hreplay =>
    intro hstate
    obtain ⟨r, hr⟩ := runtime_of_nodeState hstate nofun
    rw [nodeState_of_runtime hr] at hstate
    have hstands : r = { r with state := .replay } := by rw [← hstate]
    apply hreplay
    exact hr.trans (congrArg some hstands)

/-- The slots that an address gives up with its range. -/
def GivesUp (old new : Tables) (a j : Nat) : Prop :=
  Moved old new a ∧ ∃ d, old.node a = some d ∧ d.shadowBase ≤ j ∧ j < d.shadowBase + d.shadowCount

/-- What the Shadow Store's part for one address leaves. -/
structure Shadowed (old new : Tables) (a : Nat) (s t : State) : Prop where
  hold : t.hold = s.hold
  gap : t.gap = s.gap
  tables : t.tables = s.tables
  others : ∀ b, b ≠ a → t.runtime b = s.runtime b
  own : t.runtime a = s.runtime a ∨ Moved old new a ∧ s.nodeState a = .replay
  cleared : ∀ j, GivesUp old new a j → t.slot j = none
  slots : ∀ j, ¬ GivesUp old new a j → t.slot j = s.slot j
  lists : ∀ b, b = a ∧ Moved old new a ∨ s.replayList b = [] → t.replayList b = []
  flights : ∀ b, b ≠ a → t.replayInFlight b = s.replayInFlight b
  replaced : Moved old new a → t.replayInFlight a = (s.replayInFlight a).map fun f => { f with replaced := true }
  mute : s.responder.mask = 0 → t.trunk = s.trunk

theorem shadowed_unmoved (h : ¬ Moved old new a) (s : State) : Shadowed old new a s s where
  hold := rfl
  gap := rfl
  tables := rfl
  others := fun _ _ => rfl
  own := .inl rfl
  cleared := fun _ hj => absurd hj.1 h
  slots := fun _ _ => rfl
  lists := fun _ hb => hb.resolve_left fun hmoved => h hmoved.2
  flights := fun _ _ => rfl
  replaced := fun hmoved => absurd hmoved h
  mute := fun _ => rfl

theorem shadowed_clearShadow (hold : old.node a = some d) (h : Moved old new a) (s : State) :
    Shadowed old new a s (clearShadow a d s) := by
  have ha := isAddress_of_node hold
  have hgives : ∀ {j}, GivesUp old new a j ↔ d.shadowBase ≤ j ∧ j < d.shadowBase + d.shadowCount := fun {j} => by
    refine ⟨fun ⟨_, d', hd', hj⟩ => ?_, fun hj => ⟨h, d, hold, hj⟩⟩
    rw [hold] at hd'
    cases hd'
    exact hj
  have hflight := fun b => replayInFlight_clearShadow (b := b) (d := d) ha s
  have hlist := fun b => replayList_clearShadow (s := s) (b := b) (d := d) ha
  have hslot := fun j => slot_clearShadow (a := a) (d := d) (j := j) s
  obtain ⟨x, hx⟩ := onlyShadow_clearShadow a d s
  generalize clearShadow a d s = t at hflight hlist hslot hx
  have hblocks : t.hold = s.hold ∧ t.gap = s.gap ∧ t.tables = s.tables ∧ t.restore = s.restore ∧ t.trunk = s.trunk := by
    rw [hx]; exact ⟨rfl, rfl, rfl, rfl, rfl⟩
  obtain ⟨hholds, hgap, htables, hrestore, htrunk⟩ := hblocks
  have hruntime : ∀ b, t.runtime b = s.runtime b := fun b => by unfold State.runtime; rw [hrestore]
  exact {
    hold := hholds, gap := hgap, tables := htables, others := fun b _ => hruntime b, own := .inl (hruntime a)
    cleared := fun _ hj => by rw [hslot, if_pos (hgives.1 hj)]
    slots := fun _ hj => by rw [hslot, if_neg fun hin => hj (hgives.2 hin)]
    lists := fun b hb => hlist b (hb.imp_left And.left)
    flights := fun b hb => by rw [hflight, if_neg (Ne.symm hb)]
    replaced := fun _ => by rw [hflight, if_pos rfl]
    mute := fun _ => htrunk }

theorem Shadowed.resume (h : Shadowed old new a s t) (hmoved : Moved old new a) (hmask : t.responder.mask = s.responder.mask) :
    Shadowed old new a s (replayAfterSwitch a t) := by
  rcases replayAfterSwitch_cases a t with heq | ⟨⟨r, hr, hstate⟩, hresumed⟩
  · rw [heq]; exact h
  · have hshadow := hresumed.blocks.shadow
    exact {
      hold := hresumed.blocks.hold.trans h.hold, gap := hresumed.blocks.gap.trans h.gap
      tables := hresumed.blocks.tables.trans h.tables
      others := fun b hb => (hresumed.others b hb).trans (h.others b hb)
      own := by
        refine h.own.elim (fun heq => .inr ⟨hmoved, ?_⟩) .inr
        rw [nodeState_of_runtime (heq.symm.trans hr), hstate]
      cleared := fun j hj => (slot_congr hshadow j).trans (h.cleared j hj)
      slots := fun j hj => (slot_congr hshadow j).trans (h.slots j hj)
      lists := fun b hb => (replayList_congr hshadow b).trans (h.lists b hb)
      flights := fun b hb => (replayInFlight_congr hshadow b).trans (h.flights b hb)
      replaced := fun _ => (replayInFlight_congr hshadow a).trans (h.replaced hmoved)
      mute := fun hmute => (hresumed.mute (hmask.trans hmute)).trans (h.mute hmute) }

theorem mask_clearShadow (a : Nat) (d : NodeEntry) (s : State) : (clearShadow a d s).responder = s.responder := by
  obtain ⟨x, hx⟩ := onlyShadow_clearShadow a d s
  rw [hx]
  rfl

theorem moved_iff (hold : old.node a = some d) (hnew : new.node a = some e) :
    ¬ (d.shadowBase = e.shadowBase ∧ d.shadowCount = e.shadowCount) ↔ Moved old new a := by
  refine ⟨fun h => ⟨d, hold, fun n hn => ?_⟩, fun ⟨d', hd, h⟩ => ?_⟩
  · rw [hnew] at hn; cases hn; exact h
  · rw [hold] at hd; cases hd; exact h e hnew

theorem shadowed_switchShadow (a : Nat) (s : State) : Shadowed old new a s (switchShadow old new a s) := by
  unfold switchShadow
  split
  · next d hold hnew =>
    exact shadowed_clearShadow hold ⟨d, hold, fun e he => by rw [hnew] at he; exact nomatch he⟩ s
  · next d e hold hnew =>
    have hmoved : ¬ (d.shadowBase = e.shadowBase ∧ d.shadowCount = e.shadowCount) ↔ Moved old new a := moved_iff hold hnew
    split
    · next hsame => exact shadowed_unmoved (fun h => hmoved.2 h hsame) s
    · next hdiffer =>
      exact (shadowed_clearShadow hold (hmoved.1 hdiffer) s).resume (hmoved.1 hdiffer)
        (congrArg Responder.mask (mask_clearShadow a d s))
  · next hold => exact shadowed_unmoved (fun h => moved_configured h hold) s

/-! ### The walk -/

/-- The Shadow Store's part of a switch. -/
def switchedShadow (old new : Tables) (s : State) : State := forNodes addresses (switchShadow old new) s

theorem mask_switchShadow (a : Nat) (s : State) : (switchShadow old new a s).responder.mask = s.responder.mask :=
  congrArg Quiet.mask (switchShadow_quiet s old new a)

/-- What the walk keeps for every address. -/
structure ShadowedAll (s t : State) : Prop where
  hold : t.hold = s.hold
  gap : t.gap = s.gap
  tables : t.tables = s.tables
  mask : t.responder.mask = s.responder.mask
  mute : s.responder.mask = 0 → t.trunk = s.trunk

theorem shadowedAll_switchedShadow (old new : Tables) (s : State) : ShadowedAll s (switchedShadow old new s) := by
  refine forNodes_keeps (P := ShadowedAll s) (f := switchShadow old new) (fun a u hu => ?_) addresses
    ⟨rfl, rfl, rfl, rfl, fun _ => rfl⟩
  have h := shadowed_switchShadow (old := old) (new := new) a u
  exact ⟨h.hold.trans hu.hold, h.gap.trans hu.gap, h.tables.trans hu.tables, (mask_switchShadow a u).trans hu.mask,
    fun hmask => (h.mute (hu.mask.trans hmask)).trans (hu.mute hmask)⟩

/-- A node whose range is given up has an empty list, no slot of that range, and its replay in flight replaced. -/
theorem switchedShadow_cleared (hmoved : Moved old new a) (s : State) :
    (switchedShadow old new s).replayList a = [] ∧ (∀ j, GivesUp old new a j → (switchedShadow old new s).slot j = none)
      ∧ (switchedShadow old new s).replayInFlight a = (s.replayInFlight a).map fun f => { f with replaced := true } := by
  have hwalk := forNodes_each (P := fun c u => u.replayInFlight c = s.replayInFlight c)
    (Q := fun c u => Moved old new c → u.replayList c = [] ∧ (∀ j, GivesUp old new c j → u.slot j = none)
      ∧ u.replayInFlight c = (s.replayInFlight c).map fun f => { f with replaced := true })
    (f := switchShadow old new)
    (fun c u hu hc => by
      have h := shadowed_switchShadow (old := old) (new := new) c u
      exact ⟨h.lists c (.inl ⟨rfl, hc⟩), h.cleared, by rw [h.replaced hc, hu]⟩)
    (fun c b u hcb hu => ((shadowed_switchShadow b u).flights c hcb).trans hu)
    (fun c b u hcb hu hc => by
      have h := shadowed_switchShadow (old := old) (new := new) b u
      obtain ⟨hlist, hslots, hflight⟩ := hu hc
      refine ⟨h.lists c (.inr hlist), fun j hj => ?_, (h.flights c hcb).trans hflight⟩
      by_cases hb : GivesUp old new b j
      · exact h.cleared j hb
      · rw [h.slots j hb]; exact hslots j hj)
    addresses addresses_nodup s fun _ _ => rfl
  obtain ⟨d, hd, -⟩ := id hmoved
  exact hwalk a (mem_addresses (isAddress_of_node hd)) hmoved

/-- A slot that no address gives up stays as it is. -/
theorem slot_switchedShadow (hj : ∀ a, ¬ GivesUp old new a j) (s : State) : (switchedShadow old new s).slot j = s.slot j :=
  forNodes_same (fun u => u.slot j) (fun a u => (shadowed_switchShadow a u).slots j (hj a)) addresses s

/-- The record of a node is kept, unless it leaves a REPLAY of a range given up. -/
theorem runtime_switchedShadow (h : ¬ (Moved old new a ∧ s.nodeState a = .replay)) :
    (switchedShadow old new s).runtime a = s.runtime a := by
  refine forNodes_keeps (P := fun u => u.runtime a = s.runtime a) (f := switchShadow old new) (fun b u hu => ?_) addresses rfl
  by_cases hab : a = b
  · rw [← hab]
    refine ((shadowed_switchShadow a u).own.resolve_right fun hown => h ⟨hown.1, ?_⟩).trans hu
    exact (GrantedAt.of_eq hu).nodeState.symm.trans hown.2
  · exact ((shadowed_switchShadow b u).others a hab).trans hu

/-- A node whose range another one replaces is not left in REPLAY, unless its step is in flight. -/
theorem switchedShadow_leaves (hold : old.node a = some d) (hnew : new.node a = some e) (hmoved : Moved old new a)
    (hstep : ∀ r k, s.runtime a = some r → r.step ≠ .inFlight k) : (switchedShadow old new s).nodeState a ≠ .replay := by
  have hdiffer := (moved_iff hold hnew).2 hmoved
  have hwalk := forNodes_each (P := fun c u => c = a → u.runtime c = s.runtime c)
    (Q := fun c u => c = a → u.nodeState c ≠ .replay) (f := switchShadow old new)
    (fun c u hu hc => by
      subst hc
      unfold switchShadow
      rw [hold, hnew]
      dsimp only
      rw [if_neg hdiffer]
      have hclear := shadowed_clearShadow hold hmoved u
      refine replayAfterSwitch_leaves (hclear.lists c (.inl ⟨rfl, hmoved⟩)) fun r k hr => hstep r k ?_
      obtain ⟨x, hx⟩ := onlyShadow_clearShadow c d u
      rw [hx] at hr
      exact (hu rfl).symm.trans hr)
    (fun c b u hcb hu hc => ((shadowed_switchShadow b u).others c hcb).trans (hu hc))
    (fun c b u hcb hu hc => by
      rw [(GrantedAt.of_eq ((shadowed_switchShadow b u).others c hcb)).nodeState]
      exact hu hc)
    addresses addresses_nodup s fun _ _ _ => rfl
  exact hwalk a (mem_addresses (isAddress_of_node hold)) rfl

end

end Sys2Proof.Machine
end

section
/-! SUPPORT. What the Hold Pool's part of a table switch leaves: the queues cut to their caps, the DISCARDED reports of the entries
beyond them, and the states of the nodes left without entries (R132, R133, R139 to R141). -/

namespace Sys2Proof.Machine

section
variable {s t u : State} {a b j k n : Nat} {old new : Tables} {d e : NodeEntry} {l : List HoldEntry} {x : HoldEntry}
  {f : TrunkFrame} {tag : Word16}

/-! ### The report of a discarded entry (R132, R133, R139) -/

/-- The DISCARDED report of an entry. -/
def discardedReport (tag : Word16) (x : HoldEntry) : TrunkFrame := deferredReport tag .discarded x.node []

/-- Entry `k`, once taken, stays as it is or comes to hold the frame. -/
def Fills (k : Nat) (f : TrunkFrame) (s t : State) : Prop :=
  s.trunk.egress[k]? ≠ some .free →
    t.trunk.egress[k]? = s.trunk.egress[k]? ∨ t.trunk.egress[k]? = some (.waiting f)

theorem KeepsEntry.fills (h : KeepsEntry k s t) (f : TrunkFrame) : Fills k f s t := fun hk => .inl (h hk)

/-- An entry that is taken stays so. -/
theorem Fills.taken (h : Fills k f s t) (hk : s.trunk.egress[k]? ≠ some .free) : t.trunk.egress[k]? ≠ some .free := by
  rcases h hk with h | h <;> rw [h]
  · exact hk
  · nofun

theorem Fills.trans (h : Fills k f s t) (g : Fills k f t u) : Fills k f s u := fun hk => by
  rcases g (h.taken hk) with hu | hu
  · rw [hu]; exact h hk
  · exact .inr hu

theorem Fills.filled (h : Fills k f s t) (hs : s.trunk.egress[k]? = some (.waiting f)) :
    t.trunk.egress[k]? = some (.waiting f) :=
  (h (by rw [hs]; nofun)).elim (fun heq => heq.trans hs) id

/-- The report of any entry leaves a taken egress entry to the one hold entry that may hold its reservation. -/
theorem fills_makeReport {y : HoldEntry} (htag : x.tag = some tag) (hy : y.reservation = some k → y = x) (s : State) :
    Fills k (discardedReport tag x) s (makeReport y .discarded [] s) := by
  unfold makeReport
  split
  · exact fun _ => .inl rfl
  · next g hg =>
    split
    · next i hi =>
      intro hk
      by_cases hik : i = k
      · subst hik
        obtain rfl := hy hi
        obtain rfl := Option.some.inj (htag.symm.trans hg)
        by_cases hlt : i < 24
        · exact .inr (egress_enqueue_self hlt _)
        · refine .inl ?_
          show (s.trunk.egress.setIfInBounds i _)[i]? = _
          rw [Vector.getElem?_setIfInBounds, if_pos rfl, if_neg hlt]
          exact (Vector.getElem?_eq_none (Nat.le_of_not_lt hlt)).symm
      · exact .inl (egress_enqueue_other (Ne.symm hik) _)
    · exact (keepsEntry_offerFrame _ s).fills _

theorem makeReport_filled (htag : x.tag = some tag) (hx : x.reservation = some k) (hk : k < 24) (s : State) :
    (makeReport x .discarded [] s).trunk.egress[k]? = some (.waiting (discardedReport tag x)) := by
  unfold makeReport
  rw [htag]
  dsimp only
  rw [hx]
  exact egress_enqueue_self hk _

theorem reportDiscarded_cons (y : HoldEntry) (l : List HoldEntry) (s : State) :
    reportDiscarded (y :: l) s = reportDiscarded l (makeReport y .discarded [] s) := rfl

theorem fills_reportDiscarded (htag : x.tag = some tag) (hl : ∀ y ∈ l, y.reservation = some k → y = x) (s : State) :
    Fills k (discardedReport tag x) s (reportDiscarded l s) := by
  induction l generalizing s with
  | nil => exact fun _ => .inl rfl
  | cons y l ih =>
    exact (fills_makeReport htag (hl y List.mem_cons_self) s).trans
      (ih (fun z hz => hl z (List.mem_cons_of_mem y hz)) _)

/-- The reserved entry of a discarded hold entry holds its report. -/
theorem reportDiscarded_filled (htag : x.tag = some tag) (hl : ∀ y ∈ l, y.reservation = some k → y = x) (hmem : x ∈ l)
    (hx : x.reservation = some k) (hk : k < 24) (s : State) :
    (reportDiscarded l s).trunk.egress[k]? = some (.waiting (discardedReport tag x)) := by
  induction l generalizing s with
  | nil => exact nomatch hmem
  | cons y l ih =>
    have htail := fun z hz => hl z (List.mem_cons_of_mem y hz)
    rcases List.mem_cons.1 hmem with rfl | hmem
    · exact (fills_reportDiscarded htag htail _).filled (makeReport_filled htag hx hk s)
    · exact ih htail hmem _

/-! ### Reports without a reservation while entries are FREE (R181) -/

theorem free_enqueue {i : Nat} (j : Nat) :
    (s.enqueue i f).trunk.egress[j]? = some .free ↔ j ≠ i ∧ s.trunk.egress[j]? = some .free := by
  by_cases hji : j = i
  · subst hji
    refine iff_of_false (fun h => ?_) fun h => h.1 rfl
    have hset : (s.trunk.egress.setIfInBounds j (.waiting f))[j]? = some .free := h
    rw [Vector.getElem?_setIfInBounds, if_pos rfl] at hset
    split at hset <;> exact nomatch hset
  · rw [egress_enqueue_other hji, and_iff_right hji]

theorem egressFree_enqueue {i : Nat} (h : s.freeEntry = some i) : (s.enqueue i f).egressFree + 1 = s.egressFree := by
  have herase : (s.enqueue i f).freeEntries = s.freeEntries.erase i := by
    unfold State.freeEntries
    rw [(List.nodup_range.filter _).erase_eq_filter, List.filter_filter]
    refine List.filter_congr fun j _ => ?_
    rw [Bool.eq_iff_iff]
    simpa using free_enqueue (f := f) j
  have hmem := mem_freeEntries h
  change (s.enqueue i f).freeEntries.length + 1 = s.freeEntries.length
  rw [herase, List.length_erase_of_mem hmem]
  have := List.length_pos_of_mem hmem
  omega

theorem freeEntry_of_egressFree (h : 0 < s.egressFree) : ∃ i, s.freeEntry = some i := by
  obtain ⟨i, hi⟩ := List.exists_mem_of_length_pos h
  obtain ⟨hrange, hfree⟩ := List.mem_filter.1 hi
  cases hs : s.freeEntry with
  | some i => exact ⟨i, rfl⟩
  | none => exact absurd (beq_iff_eq.1 hfree) ((freeEntry_eq_none_iff s).1 hs i (List.mem_range.1 hrange))

/-- What reports without reservations take of egress: at most `c` of the FREE entries, and none that is taken. -/
structure TakesFree (c : Nat) (s t : State) : Prop where
  count : s.egressFree ≤ t.egressFree + c
  free : ∀ k : Nat, t.trunk.egress[k]? = some .free → s.trunk.egress[k]? = some .free
  taken : ∀ k, KeepsEntry k s t

theorem TakesFree.trans {c c' : Nat} (h : TakesFree c s t) (g : TakesFree c' t u) : TakesFree (c + c') s u where
  count := by have := h.count; have := g.count; omega
  free := fun k hk => h.free k (g.free k hk)
  taken := fun k => (h.taken k).trans (g.taken k)

theorem takesFree_of_trunk (h : t.trunk = s.trunk) (c : Nat) : TakesFree c s t where
  count := by unfold State.egressFree; rw [h]; omega
  free := fun k hk => by rw [← h]; exact hk
  taken := fun _ => .of_egress (by rw [h])

theorem makeReport_free {y : HoldEntry} (hy : y.reservation = none) (hfree : 0 < s.egressFree) :
    TakesFree 1 s (makeReport y .discarded [] s)
      ∧ ∀ g, y.tag = some g → ∃ k : Nat, s.trunk.egress[k]? = some .free
          ∧ (makeReport y .discarded [] s).trunk.egress[k]? = some (.waiting (discardedReport g y)) := by
  obtain ⟨i, hi⟩ := freeEntry_of_egressFree hfree
  unfold makeReport
  split
  · next hnone => exact ⟨takesFree_of_trunk rfl 1, fun g hg => by rw [hnone] at hg; exact nomatch hg⟩
  · next g hg =>
    rw [hy]
    dsimp only
    unfold offerFrame
    rw [hi]
    refine ⟨⟨(egressFree_enqueue hi).symm.le, fun k hk => ((free_enqueue k).1 hk).2, fun k => keepsEntry_enqueue_free hi _⟩,
      fun g' hg' => ⟨i, (freeEntry_eq_some hi).2, ?_⟩⟩
    rw [hg] at hg'
    cases hg'
    exact egress_enqueue_self (freeEntry_eq_some hi).1 _

/-- While the FREE entries suffice each tagged entry has its report in one of them. -/
theorem reportDiscarded_free (hl : ∀ y ∈ l, y.reservation = none) (hfree : l.length ≤ s.egressFree) :
    TakesFree l.length s (reportDiscarded l s)
      ∧ ∀ y ∈ l, ∀ g, y.tag = some g → ∃ k : Nat, s.trunk.egress[k]? = some .free
          ∧ (reportDiscarded l s).trunk.egress[k]? = some (.waiting (discardedReport g y)) := by
  induction l generalizing s with
  | nil => exact ⟨takesFree_of_trunk rfl 0, fun y hy => nomatch hy⟩
  | cons y l ih =>
    rw [List.length_cons] at hfree ⊢
    obtain ⟨hfirst, hshown⟩ := makeReport_free (hl y List.mem_cons_self) (Nat.lt_of_lt_of_le (Nat.succ_pos _) hfree)
    have hcount := hfirst.count
    obtain ⟨hrest, hrestShown⟩ := ih (fun z hz => hl z (List.mem_cons_of_mem y hz))
      (s := makeReport y .discarded [] s) (by omega)
    rw [reportDiscarded_cons]
    refine ⟨Nat.add_comm 1 l.length ▸ hfirst.trans hrest, fun z hz g hg => ?_⟩
    rcases List.mem_cons.1 hz with rfl | hz
    · obtain ⟨k, hk, hfilled⟩ := hshown g hg
      exact ⟨k, hk, (hrest.taken k (by rw [hfilled]; nofun)).trans hfilled⟩
    · obtain ⟨k, hk, hfilled⟩ := hrestShown z hz g hg
      exact ⟨k, hfirst.free k hk, hfilled⟩

/-! ### One address -/

/-- The cap a switch leaves a node: that of the new tables, 0 for a removed one. -/
def capAfter (new : Tables) (a : Nat) : Nat :=
  match new.node a with
  | some e => e.holdCap
  | none => 0

/-- The reports of `l`, and the queue cut to the cap. -/
def trimmed (new : Tables) (a : Nat) (l : List HoldEntry) (s : State) : State :=
  (reportDiscarded l s).setQueue a ((s.queue a).take (capAfter new a))

/-- One address in the Hold Pool's part: nothing to cut, or the entries beyond the cap reported, in some order, and cut. -/
theorem switchHold_cases (old new : Tables) (a : Nat) (s : State) :
    switchHold old new a s = s ∧ (old.node a ≠ none → (s.queue a).length ≤ capAfter new a)
      ∨ old.node a ≠ none ∧ ∃ l, l.Perm ((s.queue a).drop (capAfter new a))
          ∧ (switchHold old new a s = trimmed new a l s
            ∨ (∃ r, s.runtime a = some r ∧ r.state = .release) ∧ Resumed a (trimmed new a l s) (switchHold old new a s)) := by
  unfold switchHold
  cases hold : old.node a with
  | none => exact .inl ⟨rfl, fun h => absurd rfl h⟩
  | some d =>
    cases hnew : new.node a with
    | none =>
      have hcap : capAfter new a = 0 := by unfold capAfter; rw [hnew]
      refine .inr ⟨nofun, s.queue a, by rw [hcap]; exact .refl _, .inl ?_⟩
      unfold trimmed
      rw [hcap]
      rfl
    | some e =>
      have hcap : capAfter new a = e.holdCap := by unfold capAfter; rw [hnew]
      dsimp only
      split
      · refine .inr ⟨nofun, ((s.queue a).drop e.holdCap).reverse, by rw [hcap]; exact List.reverse_perm _, ?_⟩
        have htrim : trimQueue a e.holdCap s = trimmed new a ((s.queue a).drop e.holdCap).reverse s := by
          unfold trimmed; rw [hcap]; rfl
        rw [htrim]
        unfold releaseAfterTrim
        split
        · next hrelease =>
          obtain ⟨r, hr⟩ := runtime_of_nodeState hrelease.1 nofun
          have hsame : (trimmed new a ((s.queue a).drop e.holdCap).reverse s).runtime a = s.runtime a :=
            (reports_reportDiscarded _ s).runtime a
          refine .inr ⟨⟨r, hsame.symm.trans hr, ?_⟩, resumed_onward a _⟩
          rw [← nodeState_of_runtime hr]
          exact hrelease.1
        · exact .inl rfl
      · next hfits => exact .inl ⟨rfl, fun _ => by rw [hcap]; omega⟩

/-- What the cut leaves of the other blocks. -/
theorem trimmed_reports (new : Tables) (a : Nat) (l : List HoldEntry) (s : State) :
    ∃ v, Reports s v ∧ trimmed new a l s = v.setQueue a ((s.queue a).take (capAfter new a)) :=
  ⟨_, reports_reportDiscarded l s, rfl⟩

theorem queue_trimmed (new : Tables) (l : List HoldEntry) (s : State) :
    (trimmed new a l s).queue b = if a = b then (s.queue b).take (capAfter new b) else s.queue b := by
  obtain ⟨v, hv, heq⟩ := trimmed_reports new a l s
  rw [heq, queue_setQueue]
  by_cases hab : a = b
  · subst hab
    rw [if_pos rfl]
    by_cases ha : isAddress a = true
    · rw [if_pos ⟨rfl, ha⟩]
    · rw [if_neg fun h => ha h.2, hv.sameBlocks.queue, queue_outside s ha, List.take_nil]
  · rw [if_neg fun h => hab h.1, if_neg hab, hv.sameBlocks.queue]

/-- What the Hold Pool's part for one address leaves. -/
structure Cut (old new : Tables) (a : Nat) (s t : State) : Prop where
  shadow : t.shadow = s.shadow
  gap : t.gap = s.gap
  tables : t.tables = s.tables
  others : ∀ b, b ≠ a → t.runtime b = s.runtime b
  own : t.runtime a = s.runtime a ∨ s.nodeState a = .release ∧ t.nodeState a = t.onwardState a
  queues : ∀ b, t.queue b = if a = b ∧ old.node b ≠ none then (s.queue b).take (capAfter new b) else s.queue b

theorem cut_trimmed (hold : old.node a ≠ none) (l : List HoldEntry) (s : State) : Cut old new a s (trimmed new a l s) := by
  have hqueue := fun b => queue_trimmed (a := a) (b := b) new l s
  obtain ⟨v, hv, heq⟩ := trimmed_reports new a l s
  rw [heq] at hqueue ⊢
  refine ⟨hv.sameBlocks.shadow, hv.sameBlocks.gap, hv.sameBlocks.tables, fun b _ => hv.runtime b, .inl (hv.runtime a),
    fun b => (hqueue b).trans ?_⟩
  by_cases hab : a = b
  · rw [if_pos hab, if_pos ⟨hab, hab ▸ hold⟩]
  · rw [if_neg hab, if_neg fun h => hab h.1]

theorem cut_switchHold (a : Nat) (s : State) : Cut old new a s (switchHold old new a s) := by
  rcases switchHold_cases old new a s with ⟨heq, hfits⟩ | ⟨hold, l, -, hcut⟩
  · rw [heq]
    refine ⟨rfl, rfl, rfl, fun _ _ => rfl, .inl rfl, fun b => ?_⟩
    split
    · next hb =>
      obtain ⟨rfl, hold⟩ := hb
      rw [List.take_of_length_le (hfits hold)]
    · rfl
  · have htrimmed := cut_trimmed (new := new) hold l s
    rcases hcut with heq | ⟨⟨r, hr, hstate⟩, hresumed⟩
    · rw [heq]; exact htrimmed
    · have hrecord : (trimmed new a l s).runtime a = some r := ((reports_reportDiscarded l s).runtime a).trans hr
      generalize trimmed new a l s = v at htrimmed hresumed hrecord
      generalize switchHold old new a s = t at hresumed
      refine ⟨hresumed.blocks.shadow.trans htrimmed.shadow, hresumed.blocks.gap.trans htrimmed.gap,
        hresumed.blocks.tables.trans htrimmed.tables, fun b hb => (hresumed.others b hb).trans (htrimmed.others b hb),
        .inr ⟨(nodeState_of_runtime hr).trans hstate, ?_⟩,
        fun b => (queue_congr hresumed.blocks.hold b).trans (htrimmed.queues b)⟩
      exact (hresumed.state r hrecord).trans (hresumed.blocks.onwardState a).symm

/-- A RELEASE whose entries are all cut is left. -/
theorem switchHold_leaves (hold : old.node a = some d) (hnew : new.node a = some e) (hcap : e.holdCap = 0)
    (hstate : s.nodeState a = .release) (hqueue : s.queue a ≠ []) : (switchHold old new a s).nodeState a ≠ .release := by
  have hreports := reports_reportDiscarded ((s.queue a).drop e.holdCap).reverse s
  have hempty : (trimQueue a e.holdCap s).queue a = [] := by
    rw [show (trimQueue a e.holdCap s).queue a = (s.queue a).take e.holdCap from
      queue_setQueue_self (isAddress_of_node hnew) _ _, hcap, List.take_zero]
  have hrelease : (trimQueue a e.holdCap s).nodeState a = .release :=
    (GrantedAt.of_eq (s := s) (t := trimQueue a e.holdCap s) (hreports.runtime a)).nodeState.trans hstate
  obtain ⟨r, hr⟩ := runtime_of_nodeState hrelease nofun
  unfold switchHold
  rw [hold, hnew]
  dsimp only
  rw [if_pos (by rw [hcap]; exact List.length_pos_iff.2 hqueue)]
  unfold releaseAfterTrim
  rw [if_pos ⟨hrelease, by rw [hempty]; rfl⟩, (resumed_onward a _).state r hr, onwardState_of_empty hempty]
  split <;> nofun

/-! ### The walk -/

/-- The Hold Pool's part of a switch. -/
def switchedHold (old new : Tables) (s : State) : State := forNodes addresses (switchHold old new) s

theorem blocks_switchedHold (old new : Tables) (s : State) :
    (switchedHold old new s).shadow = s.shadow ∧ (switchedHold old new s).gap = s.gap :=
  ⟨forNodes_same State.shadow (fun a u => (cut_switchHold a u).shadow) addresses s,
    forNodes_same State.gap (fun a u => (cut_switchHold a u).gap) addresses s⟩

theorem Cut.queue_other (h : Cut old new a s t) (hb : b ≠ a) : t.queue b = s.queue b := by
  rw [h.queues, if_neg fun hab => hb hab.1.symm]

/-- Every queue of a node that was configured is cut to its cap. -/
theorem queue_switchedHold (hold : old.node a = some d) (s : State) :
    (switchedHold old new s).queue a = (s.queue a).take (capAfter new a) := by
  have hwalk := forNodes_each (P := fun c u => u.queue c = s.queue c)
    (Q := fun c u => old.node c ≠ none → u.queue c = (s.queue c).take (capAfter new c)) (f := switchHold old new)
    (fun c u hu hc => by rw [(cut_switchHold c u).queues, if_pos ⟨rfl, hc⟩, hu])
    (fun c b u hcb hu => ((cut_switchHold b u).queue_other hcb).trans hu)
    (fun c b u hcb hu hc => ((cut_switchHold b u).queue_other hcb).trans (hu hc)) addresses addresses_nodup s fun _ _ => rfl
  exact hwalk a (mem_addresses (isAddress_of_node hold)) (by rw [hold]; nofun)

/-- The record of a node is kept, unless it leaves a RELEASE. -/
theorem runtime_switchedHold (h : s.nodeState a ≠ .release) : (switchedHold old new s).runtime a = s.runtime a := by
  refine forNodes_keeps (P := fun u => u.runtime a = s.runtime a) (f := switchHold old new) (fun b u hu => ?_) addresses rfl
  by_cases hab : a = b
  · rw [← hab]
    refine ((cut_switchHold a u).own.resolve_right fun hown => h ?_).trans hu
    exact (GrantedAt.of_eq hu).nodeState.symm.trans hown.1
  · exact ((cut_switchHold b u).others a hab).trans hu

theorem nodeState_of_runtime_eq (h : t.runtime a = s.runtime a) : t.nodeState a = s.nodeState a := (GrantedAt.of_eq h).nodeState

/-- A node with an empty list does not come to REPLAY. -/
theorem switchedHold_unlisted (hlist : s.replayList a = []) (h : s.nodeState a ≠ .replay) :
    (switchedHold old new s).nodeState a ≠ .replay := by
  refine (forNodes_keeps (P := fun u => u.replayList a = [] ∧ u.nodeState a ≠ .replay) (f := switchHold old new)
    (fun b u hu => ?_) addresses ⟨hlist, h⟩).2
  have hcut := cut_switchHold (old := old) (new := new) b u
  have hempty : (switchHold old new b u).replayList a = [] := (replayList_congr hcut.shadow a).trans hu.1
  refine ⟨hempty, ?_⟩
  by_cases hab : a = b
  · subst hab
    rcases hcut.own with hown | ⟨-, hown⟩
    · rw [nodeState_of_runtime_eq hown]; exact hu.2
    · rw [hown]; exact onwardState_of_unlisted hempty
  · rw [nodeState_of_runtime_eq (hcut.others a hab)]; exact hu.2

/-- A RELEASE whose entries are all cut is left. -/
theorem switchedHold_leaves (hold : old.node a = some d) (hnew : new.node a = some e) (hcap : e.holdCap = 0)
    (hstate : s.nodeState a = .release) (hqueue : s.queue a ≠ []) : (switchedHold old new s).nodeState a ≠ .release := by
  have hwalk := forNodes_each (P := fun c u => c = a → u.nodeState c = .release ∧ u.queue c ≠ [])
    (Q := fun c u => c = a → u.nodeState c ≠ .release) (f := switchHold old new)
    (fun c u hu hc => by
      subst hc
      exact switchHold_leaves hold hnew hcap (hu rfl).1 (hu rfl).2)
    (fun c b u hcb hu hc => by
      have hcut := cut_switchHold (old := old) (new := new) b u
      rw [nodeState_of_runtime_eq (hcut.others c hcb), hcut.queue_other hcb]
      exact hu hc)
    (fun c b u hcb hu hc => by
      rw [nodeState_of_runtime_eq ((cut_switchHold b u).others c hcb)]
      exact hu hc)
    addresses addresses_nodup s fun c _ hc => by rw [hc]; exact ⟨hstate, hqueue⟩
  exact hwalk a (mem_addresses (isAddress_of_node hold)) rfl

/-! ### The reports of a switch -/

/-- A cut reports each entry beyond the cap, and the onward choice adds at most a notice. -/
theorem switchHold_sends (a : Nat) (s : State) :
    switchHold old new a s = s ∧ (old.node a ≠ none → (s.queue a).drop (capAfter new a) = [])
      ∨ old.node a ≠ none ∧ ∃ l, l.Perm ((s.queue a).drop (capAfter new a))
          ∧ (∀ k, KeepsEntry k (reportDiscarded l s) (switchHold old new a s))
          ∧ (s.responder.mask = 0 → (switchHold old new a s).trunk = (reportDiscarded l s).trunk) := by
  rcases switchHold_cases old new a s with ⟨heq, hfits⟩ | ⟨hold, l, hperm, hcut⟩
  · exact .inl ⟨heq, fun hold => List.drop_eq_nil_of_le (hfits hold)⟩
  · refine .inr ⟨hold, l, hperm, ?_⟩
    rcases hcut with heq | ⟨-, hresumed⟩
    · rw [heq]
      exact ⟨fun _ => .of_egress rfl, fun _ => rfl⟩
    · refine ⟨hresumed.entries, fun hmask => hresumed.mute ?_⟩
      exact (congrArg Quiet.mask (reportDiscarded_quiet s l)).trans hmask

/-- Of all held entries only `x` may hold reservation `k`. -/
def SoleHolder (old : Tables) (k : Nat) (x : HoldEntry) (s : State) : Prop :=
  ∀ b, old.node b ≠ none → ∀ y ∈ s.queue b, y.reservation = some k → y = x

theorem Cut.mem_queue (h : Cut old new a s t) {y : HoldEntry} (hy : y ∈ t.queue b) : y ∈ s.queue b := by
  rw [h.queues] at hy
  split at hy
  · exact List.mem_of_mem_take hy
  · exact hy

theorem SoleHolder.cut (h : SoleHolder old k x s) (hcut : Cut old new a s t) : SoleHolder old k x t :=
  fun b hb y hy => h b hb y (hcut.mem_queue hy)

theorem fills_switchHold (htag : x.tag = some tag) (h : SoleHolder old k x s) (a : Nat) :
    Fills k (discardedReport tag x) s (switchHold old new a s) := by
  rcases switchHold_sends (old := old) (new := new) a s with ⟨heq, -⟩ | ⟨hold, l, hperm, hentries, -⟩
  · rw [heq]; exact fun _ => .inl rfl
  · exact (fills_reportDiscarded htag
      (fun y hy => h a hold y (List.mem_of_mem_drop (hperm.mem_iff.1 hy))) s).trans ((hentries k).fills _)

theorem switchHold_filled (htag : x.tag = some tag) (h : SoleHolder old k x s) (hold : old.node a ≠ none)
    (hmem : x ∈ (s.queue a).drop (capAfter new a)) (hx : x.reservation = some k) (hk : k < 24) :
    (switchHold old new a s).trunk.egress[k]? = some (.waiting (discardedReport tag x)) := by
  rcases switchHold_sends (old := old) (new := new) a s with ⟨-, hnil⟩ | ⟨-, l, hperm, hentries, -⟩
  · rw [hnil hold] at hmem; exact nomatch hmem
  · have hfilled := reportDiscarded_filled htag (fun y hy => h a hold y (List.mem_of_mem_drop (hperm.mem_iff.1 hy)))
      (hperm.mem_iff.2 hmem) hx hk s
    exact (hentries k (by rw [hfilled]; nofun)).trans hfilled

/-- An entry cut from its queue has its report in the egress entry it reserved. -/
theorem switchedHold_filled (htag : x.tag = some tag) (h : SoleHolder old k x s) (hold : old.node a = some d)
    (hmem : x ∈ (s.queue a).drop (capAfter new a)) (hx : x.reservation = some k) (hk : k < 24) :
    (switchedHold old new s).trunk.egress[k]? = some (.waiting (discardedReport tag x)) := by
  have hwalk := forNodes_each (P := fun c u => SoleHolder old k x u ∧ u.queue c = s.queue c)
    (Q := fun c u => SoleHolder old k x u ∧ (c = a → u.trunk.egress[k]? = some (.waiting (discardedReport tag x))))
    (f := switchHold old new)
    (fun c u ⟨hsole, hqueue⟩ => ⟨hsole.cut (cut_switchHold c u), fun hc => by
      subst hc
      exact switchHold_filled htag hsole (by rw [hold]; nofun) (by rw [hqueue]; exact hmem) hx hk⟩)
    (fun c b u hcb ⟨hsole, hqueue⟩ =>
      ⟨hsole.cut (cut_switchHold b u), ((cut_switchHold b u).queue_other hcb).trans hqueue⟩)
    (fun c b u hcb ⟨hsole, hfilled⟩ =>
      ⟨hsole.cut (cut_switchHold b u), fun hc => (fills_switchHold htag hsole b).filled (hfilled hc)⟩)
    addresses addresses_nodup s fun _ _ => ⟨h, rfl⟩
  exact (hwalk a (mem_addresses (isAddress_of_node hold))).2 rfl

/-- An empty mask, no reservation held, and a FREE egress entry for each held entry. -/
structure Roomy (s : State) : Prop where
  mask : s.responder.mask = 0
  unreserved : ∀ b, ∀ y ∈ s.queue b, y.reservation = none
  room : s.heldCount ≤ s.egressFree

theorem heldCount_congr_queue (h : ∀ b, t.queue b = s.queue b) : t.heldCount = s.heldCount := by
  unfold State.heldCount
  exact congrArg List.sum (List.map_congr_left fun b _ => by rw [h b])

/-- A cut gives up as many entries as it drops. -/
theorem Cut.heldCount (h : Cut old new a s t) (hold : old.node a ≠ none) :
    t.heldCount + ((s.queue a).drop (capAfter new a)).length = s.heldCount := by
  have ha : isAddress a = true := by
    obtain ⟨d, hd⟩ := Option.ne_none_iff_exists'.1 hold
    exact isAddress_of_node hd
  have hset := heldCount_setQueue s ha ((s.queue a).take (capAfter new a))
  have hsame : t.heldCount = (s.setQueue a ((s.queue a).take (capAfter new a))).heldCount := heldCount_congr_queue fun b => by
    rw [h.queues, queue_setQueue]
    by_cases hab : a = b
    · subst hab
      rw [if_pos ⟨rfl, hold⟩, if_pos ⟨rfl, ha⟩]
    · rw [if_neg fun h => hab h.1, if_neg fun h => hab h.1]
  rw [List.length_take] at hset
  rw [hsame, List.length_drop]
  omega

theorem Roomy.switchHold (h : Roomy s) (a : Nat) :
    Roomy (Machine.switchHold old new a s) ∧ (∃ c, TakesFree c s (Machine.switchHold old new a s))
      ∧ (old.node a ≠ none → ∀ y ∈ (s.queue a).drop (capAfter new a), ∀ g, y.tag = some g →
          ∃ k : Nat, s.trunk.egress[k]? = some .free
            ∧ (Machine.switchHold old new a s).trunk.egress[k]? = some (.waiting (discardedReport g y))) := by
  have hcut := cut_switchHold (old := old) (new := new) a s
  rcases switchHold_sends (old := old) (new := new) a s with ⟨heq, hnil⟩ | ⟨hold, l, hperm, -, hmute⟩
  · rw [heq]
    exact ⟨h, ⟨0, takesFree_of_trunk rfl 0⟩, fun hold y hy => by rw [hnil hold] at hy; exact nomatch hy⟩
  · have hmask : (Machine.switchHold old new a s).responder.mask = 0 :=
      (congrArg Quiet.mask (switchHold_quiet s old new a)).trans h.mask
    have htrunk := hmute h.mask
    have hcount := hcut.heldCount hold
    have hlength := hperm.length_eq
    have hroom := h.room
    obtain ⟨htakes, hshown⟩ := reportDiscarded_free (l := l) (s := s)
      (fun y hy => h.unreserved a y (List.mem_of_mem_drop (hperm.mem_iff.1 hy))) (by omega)
    have hafter := htakes.trans (takesFree_of_trunk htrunk 0)
    refine ⟨⟨hmask, fun b y hy => h.unreserved b y (hcut.mem_queue hy), ?_⟩, ⟨_, hafter⟩, fun _ y hy g hg => ?_⟩
    · have hfree := hafter.count
      omega
    · rw [htrunk]
      exact hshown y (hperm.mem_iff.2 hy) g hg

/-- With room for all of them every tagged entry cut from its queue has its report in an entry that was FREE. -/
theorem switchedHold_free (h : Roomy s) (hold : old.node a = some d) (hmem : x ∈ (s.queue a).drop (capAfter new a))
    (htag : x.tag = some tag) :
    ∃ k : Nat, s.trunk.egress[k]? = some .free
      ∧ (switchedHold old new s).trunk.egress[k]? = some (.waiting (discardedReport tag x)) := by
  have hwalk := forNodes_each (P := fun c u => (Roomy u ∧ ∃ c', TakesFree c' s u) ∧ u.queue c = s.queue c)
    (Q := fun c u => (Roomy u ∧ ∃ c', TakesFree c' s u) ∧ (c = a → ∃ k : Nat, s.trunk.egress[k]? = some .free
      ∧ u.trunk.egress[k]? = some (.waiting (discardedReport tag x))))
    (f := switchHold old new)
    (fun c u ⟨⟨hroom, n, htakes⟩, hqueue⟩ => by
      obtain ⟨hroom', ⟨m, htakes'⟩, hshown⟩ := hroom.switchHold (old := old) (new := new) c
      refine ⟨⟨hroom', _, htakes.trans htakes'⟩, fun hc => ?_⟩
      subst hc
      obtain ⟨k, hk, hfilled⟩ := hshown (by rw [hold]; nofun) x (by rw [hqueue]; exact hmem) tag htag
      exact ⟨k, htakes.free k hk, hfilled⟩)
    (fun c b u hcb ⟨⟨hroom, n, htakes⟩, hqueue⟩ => by
      obtain ⟨hroom', ⟨m, htakes'⟩, -⟩ := hroom.switchHold (old := old) (new := new) b
      exact ⟨⟨hroom', _, htakes.trans htakes'⟩, ((cut_switchHold b u).queue_other hcb).trans hqueue⟩)
    (fun c b u hcb ⟨⟨hroom, n, htakes⟩, hshown⟩ => by
      obtain ⟨hroom', ⟨m, htakes'⟩, -⟩ := hroom.switchHold (old := old) (new := new) b
      refine ⟨⟨hroom', _, htakes.trans htakes'⟩, fun hc => ?_⟩
      obtain ⟨k, hk, hfilled⟩ := hshown hc
      exact ⟨k, hk, (htakes'.taken k (by rw [hfilled]; nofun)).trans hfilled⟩)
    addresses addresses_nodup s fun _ _ => ⟨⟨h, 0, takesFree_of_trunk rfl 0⟩, rfl⟩
  exact (hwalk a (mem_addresses (isAddress_of_node hold))).2 rfl

end

end Sys2Proof.Machine
end

section
/-! SUPPORT. The whole table switch: what it leaves of each node's records, queue, slots and reports (R189). -/

namespace Sys2Proof.Machine

section
variable {s : State} {a j k : Nat} {d e : NodeEntry} {x : HoldEntry} {tag : Word16}

/-! ### The stages of a switch -/

/-- The edit copy is active, and nothing else has been done. -/
def switchStarted (s : State) : State := (s.withTables s.responder.edit).withResponder { s.responder with mode := .service }

/-- After the Gap Monitor's part. -/
def switchReserved (s : State) : State := forNodes addresses (switchReserve s.tables s.responder.edit) (switchStarted s)

/-- After the Restore Engine's part. -/
def switchRecorded (s : State) : State := switchedRuntimes s.tables s.responder.edit (switchReserved s)

/-- After the Segment Master's part. -/
def switchReturned (s : State) : State := switchedPasses s.tables s.responder.edit (switchRecorded s)

/-- After the Classifier's part. -/
def switchCounted (s : State) : State :=
  (switchReturned s).withCounters (switchCounters s.tables s.responder.edit (switchReturned s).counters)

/-- After the Shadow Store's part. -/
def switchCleared (s : State) : State := switchedShadow s.tables s.responder.edit (switchCounted s)

theorem tableSwitch_stages (s : State) :
    tableSwitch s = switchStore (switchedHold s.tables s.responder.edit (switchCleared s)) := rfl

theorem onlyRecords_switchReserved (s : State) : OnlyRecords (switchStarted s) (switchReserved s) :=
  onlyRecords_forNodes (onlyRecords_switchReserve _ _) addresses _

theorem onlyRecords_switchRecorded (s : State) : OnlyRecords (switchStarted s) (switchRecorded s) :=
  (onlyRecords_switchReserved s).trans (onlyRecords_switchedRuntimes _ _ _)

/-- The blocks that the records' part of a switch leaves alone. -/
theorem switchRecorded_blocks (s : State) :
    (switchRecorded s).trunk = s.trunk ∧ (switchRecorded s).hold = s.hold ∧ (switchRecorded s).shadow = s.shadow
      ∧ (switchRecorded s).segment = s.segment ∧ (switchRecorded s).tables = s.responder.edit
      ∧ (switchRecorded s).counters = s.counters ∧ (switchRecorded s).responder.mask = s.responder.mask := by
  obtain ⟨_, _, _, _, h⟩ := onlyRecords_switchRecorded s
  rw [h]
  exact ⟨rfl, rfl, rfl, rfl, rfl, rfl, rfl⟩

theorem passed_switchReturned (s : State) : Passed s.tables s.responder.edit (switchRecorded s) (switchReturned s) :=
  passed_switchedPasses _ _ _

theorem shadowedAll_switchCleared (s : State) : ShadowedAll (switchCounted s) (switchCleared s) :=
  shadowedAll_switchedShadow _ _ _

/-! ### The counters, the reserves and the gap set -/

theorem counters_tableSwitch (s : State) :
    (tableSwitch s).counters = switchCounters s.tables s.responder.edit s.counters := by
  have hlater : (tableSwitch s).counters = (switchCounted s).counters :=
    congrArg Quiet.counters (switchShadowHold_quiet addresses s.tables s.responder.edit (switchCounted s))
  have hreturned : (switchReturned s).counters = (switchRecorded s).counters := by
    obtain ⟨_, _, _, _, _, h⟩ := (passed_switchReturned s).only
    rw [h]
  obtain ⟨-, -, -, -, -, hrecorded, -⟩ := switchRecorded_blocks s
  rw [hlater]
  show switchCounters _ _ (switchReturned s).counters = _
  rw [hreturned, hrecorded]

theorem gap_tableSwitch (s : State) : (tableSwitch s).gap = (switchRecorded s).gap := by
  have hreturned : (switchReturned s).gap = (switchRecorded s).gap := by
    obtain ⟨_, _, _, _, _, h⟩ := (passed_switchReturned s).only
    rw [h]
  exact ((blocks_switchedHold _ _ _).2.trans (shadowedAll_switchCleared s).gap).trans hreturned

theorem clock_tableSwitch (s : State) :
    (tableSwitch s).gap.condition = s.gap.condition ∧ (tableSwitch s).gap.clock = s.gap.clock := by
  obtain ⟨_, _, _, _, h⟩ := onlyRecords_switchRecorded s
  rw [gap_tableSwitch, h]
  exact ⟨rfl, rfl⟩

theorem reserve_tableSwitch (ha : isAddress a = true) (s : State) :
    (tableSwitch s).reserve a =
      switchedReserve (s.tables.node a) (s.responder.edit.node a) s.gap.clock (s.reserve a) := by
  have hrecorded : (switchRecorded s).gap.reserves = (switchReserved s).gap.reserves :=
    forNodes_same (fun u => u.gap.reserves) (fun a u => congrArg (fun x => x.2.2) (switchRuntime_gap _ _ a u)) addresses _
  exact (reserve_congr ((congrArg GapMonitor.reserves (gap_tableSwitch s)).trans hrecorded) a).trans
    (reserve_switchReserves ha (switchStarted s))

/-! ### The runtime records -/

theorem runtime_switchCounted (a : Nat) (s : State) : (switchCounted s).runtime a = (switchRecorded s).runtime a := by
  have h : (switchReturned s).runtime a = (switchRecorded s).runtime a := by
    obtain ⟨_, _, _, _, _, h⟩ := (passed_switchReturned s).only
    rw [h]
    rfl
  exact h

/-- A node that is in neither REPLAY nor RELEASE keeps its record through the later parts. -/
theorem runtime_tableSwitch (hreplay : (switchRecorded s).nodeState a ≠ .replay)
    (hrelease : (switchRecorded s).nodeState a ≠ .release) : (tableSwitch s).runtime a = (switchRecorded s).runtime a := by
  have hcounted := runtime_switchCounted a s
  have hcleared : (switchCleared s).runtime a = (switchRecorded s).runtime a :=
    (runtime_switchedShadow fun h => hreplay ((nodeState_of_runtime_eq hcounted).symm.trans h.2)).trans hcounted
  exact (runtime_switchedHold (s := switchCleared s)
    (by rw [nodeState_of_runtime_eq hcleared]; exact hrelease)).trans hcleared

theorem suspects_switchReserved (hnew : s.responder.edit.node a = some e) :
    (switchReserved s).suspects a = true ↔ s.gapInProgress = true ∧ e.supply = .fed := by
  rw [(onlyRecords_switchReserved s).suspects]
  show (s.gapInProgress && match s.responder.edit.node a with | some e => e.supply == .fed | none => false) = true ↔ _
  rw [hnew]
  simp

/-- A newly configured node has a new record, in PROBE or, FED in a gap, in SUSPECT and in the gap set (R58, R59). -/
theorem tableSwitch_added (hold : s.tables.node a = none) (hnew : s.responder.edit.node a = some e) :
    ∃ q o, (tableSwitch s).runtime a = some (addedRecord q o) ∧ (q = true ↔ s.gapInProgress = true ∧ e.supply = .fed)
      ∧ (q = true → a ∈ (tableSwitch s).gap.gapSet) := by
  obtain ⟨o, hr, hset⟩ := switchedRuntimes_added hold hnew (switchReserved s)
  have hsuspects := suspects_switchReserved hnew
  generalize (switchReserved s).suspects a = q at hr hset hsuspects
  have hstate : (switchRecorded s).nodeState a = if q then .suspect else .probe := nodeState_of_runtime hr
  refine ⟨q, o, (runtime_tableSwitch ?_ ?_).trans hr, hsuspects, fun hq => by rw [gap_tableSwitch]; exact hset hq⟩ <;>
  · rw [hstate]
    split <;> nofun

/-- A removed node has no runtime record and is not in the gap set (R33, R59). -/
theorem tableSwitch_removed (hold : s.tables.node a = some d) (hnew : s.responder.edit.node a = none) :
    (tableSwitch s).runtime a = none ∧ a ∉ (tableSwitch s).gap.gapSet := by
  have hr : (switchRecorded s).runtime a = none := runtime_switchedRuntimes_removed hold hnew _
  have hstate := nodeState_of_none hr
  refine ⟨(runtime_tableSwitch ?_ ?_).trans hr, ?_⟩
  · rw [hstate]; nofun
  · rw [hstate]; nofun
  · rw [gap_tableSwitch]
    exact gapSet_switchedRuntimes hold (gapSet_switchReserves hold hnew _)

theorem runtime_switchReserved (a : Nat) (s : State) : (switchReserved s).runtime a = s.runtime a := by
  have hwalk : (switchReserved s).restore = (switchStarted s).restore :=
    forNodes_same State.restore (fun a u => congrArg (fun x => x.2.2) (switchReserve_tables _ _ a u)) addresses _
  unfold State.runtime
  rw [hwalk]
  rfl

/-- A node that stays configured comes to the later parts with its record, but for a buffer its session is granted. -/
theorem granted_switchCounted (hold : s.tables.node a = some d) (hnew : s.responder.edit.node a = some e) :
    GrantedAt s (switchCounted s) a :=
  ((GrantedAt.of_eq (runtime_switchReserved a s)).trans (granted_switchedRuntimes hold hnew _)).trans
    (.of_eq (runtime_switchCounted a s))

/-! ### The hold queues -/

theorem queue_switchCleared (hold : s.tables.node a = some d) : (switchCleared s).queue a = s.queue a := by
  obtain ⟨-, hhold, -⟩ := switchRecorded_blocks s
  have hreturned : (switchReturned s).queue a = (switchRecorded s).queue a :=
    (passed_switchReturned s).queues a (by rw [hold]; nofun)
  exact ((queue_congr (shadowedAll_switchCleared s).hold a).trans hreturned).trans (queue_congr hhold a)

theorem queue_tableSwitch (hold : s.tables.node a = some d) :
    (tableSwitch s).queue a = (s.queue a).take (capAfter s.responder.edit a) := by
  rw [← queue_switchCleared hold]
  exact queue_switchedHold hold (switchCleared s)

/-- A RELEASE whose entries are all cut is left (R141). -/
theorem tableSwitch_leaves_release (hold : s.tables.node a = some d) (hnew : s.responder.edit.node a = some e)
    (hstate : s.nodeState a = .release) (hcap : e.holdCap = 0) (hqueue : s.queue a ≠ []) :
    (tableSwitch s).nodeState a ≠ .release := by
  have hcounted : (switchCounted s).nodeState a = .release := (granted_switchCounted hold hnew).nodeState.trans hstate
  have hcleared : (switchCleared s).nodeState a = .release :=
    (nodeState_of_runtime_eq (runtime_switchedShadow fun h => by rw [hcounted] at h; exact nomatch h.2)).trans hcounted
  exact switchedHold_leaves (s := switchCleared s) hold hnew hcap hcleared (by rw [queue_switchCleared hold]; exact hqueue)

/-! ### The shadow slots -/

theorem shadow_tableSwitch (s : State) : (tableSwitch s).shadow = (switchCleared s).shadow := (blocks_switchedHold _ _ _).1

/-- A range given up: no list, no slot, and the replay in flight replaced (R123). -/
theorem tableSwitch_cleared (hold : s.tables.node a = some d) (hmoved : Moved s.tables s.responder.edit a) :
    (tableSwitch s).replayList a = []
      ∧ (∀ j, d.shadowBase ≤ j → j < d.shadowBase + d.shadowCount → (tableSwitch s).slot j = none)
      ∧ ∀ f, s.replayInFlight a = some f → (tableSwitch s).replayInFlight a = some { f with replaced := true } := by
  obtain ⟨hlist, hslots, hflight⟩ := switchedShadow_cleared hmoved (switchCounted s)
  have hshadow := shadow_tableSwitch s
  obtain ⟨-, -, hrecorded, -⟩ := switchRecorded_blocks s
  have hkept : (switchCounted s).replayInFlight a = s.replayInFlight a :=
    ((passed_switchReturned s).flights a (by rw [hold]; nofun)).trans (replayInFlight_congr hrecorded a)
  refine ⟨(replayList_congr hshadow a).trans hlist, fun j hlow hhigh => ?_, fun f hf => ?_⟩
  · exact (slot_congr hshadow j).trans (hslots j ⟨hmoved, d, hold, hlow, hhigh⟩)
  · refine (replayInFlight_congr hshadow a).trans (hflight.trans ?_)
    rw [hkept, hf]
    rfl

/-- A node whose range is given up does not stay in REPLAY, unless its step is in flight (R122). -/
theorem tableSwitch_leaves_replay (hold : s.tables.node a = some d) (hnew : s.responder.edit.node a = some e)
    (hmoved : Moved s.tables s.responder.edit a) (hstep : ∀ r k, s.runtime a = some r → r.step ≠ .inFlight k) :
    (tableSwitch s).nodeState a ≠ .replay :=
  switchedHold_unlisted (switchedShadow_cleared hmoved _).1
    (switchedShadow_leaves hold hnew hmoved ((granted_switchCounted hold hnew).not_inFlight hstep))

/-- Two nodes of tables that pass the tests have no slot in common (R188). -/
theorem node_of_ranges {t : Tables} (h : t.firstFault = none) {b : Nat} {n m : NodeEntry} (hn : t.node a = some n)
    (hm : t.node b = some m) (hlow : n.shadowBase ≤ j) (hhigh : j < n.shadowBase + n.shadowCount)
    (hlow' : m.shadowBase ≤ j) (hhigh' : j < m.shadowBase + m.shadowCount) : a = b := by
  have hapart := (range_of_fits h).2
  rcases Nat.lt_trichotomy a b with hlt | heq | hgt
  · exact absurd ⟨n, m, j, hn, hm, hlow, hhigh, hlow', hhigh'⟩ (hapart _ _ hlt)
  · exact heq
  · exact absurd ⟨m, n, j, hm, hn, hlow', hhigh', hlow, hhigh⟩ (hapart _ _ hgt)

theorem range_of_poolSlot {r : Nat} (h : s.poolSlot a r = some j) :
    ∃ e, s.tables.node a = some e ∧ e.shadowBase ≤ j ∧ j < e.shadowBase + e.shadowCount := by
  unfold State.poolSlot at h
  split at h
  · next e he =>
    split at h
    · refine ⟨e, he, ?_⟩
      obtain rfl := Option.some.inj h
      omega
    · exact nomatch h
  · exact nomatch h

/-- The slots of a range that stays where it was are kept. -/
theorem slot_tableSwitch (hfits : s.responder.edit.firstFault = none) (hfitted : s.tables.firstFault = none)
    (hold : s.tables.node a = some d) (hnew : s.responder.edit.node a = some e) (hbase : d.shadowBase = e.shadowBase)
    (hcount : d.shadowCount = e.shadowCount) (hlow : d.shadowBase ≤ j) (hhigh : j < d.shadowBase + d.shadowCount) :
    (tableSwitch s).slot j = s.slot j := by
  obtain ⟨-, -, hshadow, -, htables, -⟩ := switchRecorded_blocks s
  have hstays : ∀ b, ¬ GivesUp s.tables s.responder.edit b j := fun b ⟨hmoved, d', hd', hlow', hhigh'⟩ => by
    obtain rfl := node_of_ranges hfitted hold hd' hlow hhigh hlow' hhigh'
    exact (moved_iff hold hnew).2 hmoved ⟨hbase, hcount⟩
  have hreturned : (switchReturned s).slot j = (switchRecorded s).slot j := by
    refine (passed_switchReturned s).slots j fun b r hadded hslot => ?_
    obtain ⟨m, hm, hlow', hhigh'⟩ := range_of_poolSlot hslot
    rw [htables] at hm
    obtain rfl := node_of_ranges hfits hnew hm (hbase ▸ hlow) (by omega) hlow' hhigh'
    exact nomatch hold.symm.trans hadded.1
  exact (slot_congr (shadow_tableSwitch s) j).trans
    (((slot_switchedShadow hstays (switchCounted s)).trans hreturned).trans (slot_congr hshadow j))

/-! ### The reports -/

theorem mem_drop_of_getElem? {l : List HoldEntry} {c : Nat} (h : l[j]? = some x) (hc : c ≤ j) : x ∈ l.drop c := by
  refine List.mem_of_getElem? (i := j - c) ?_
  rw [List.getElem?_drop, Nat.add_sub_cancel' hc]
  exact h

/-- A tagged entry cut from its queue is reported DISCARDED in the egress entry reserved for it (R133, R141). -/
theorem tableSwitch_fills_reservation (hold : s.tables.node a = some d)
    (hmem : x ∈ (s.queue a).drop (capAfter s.responder.edit a)) (htag : x.tag = some tag) (hx : x.reservation = some k)
    (hk : k < 24) (hsole : ∀ b y, y ∈ s.queue b → y.reservation = some k → y = x) :
    (tableSwitch s).trunk.egress[k]? = some (.waiting (discardedReport tag x)) := by
  refine switchedHold_filled (s := switchCleared s) htag (fun b hb y hy hres => ?_) hold
    (by rw [queue_switchCleared hold]; exact hmem) hx hk
  obtain ⟨d', hd'⟩ := Option.ne_none_iff_exists'.1 hb
  rw [queue_switchCleared hd'] at hy
  exact hsole b y hy hres

/-- With nothing queued, an empty mask and no reservations held, the Hold Pool's part finds as many FREE entries as before. -/
theorem roomy_switchCleared (h : Roomy s) (hpasses : s.segment.urgent ++ s.segment.normal = []) :
    Roomy (switchCleared s) ∧ (switchCleared s).trunk = s.trunk := by
  obtain ⟨htrunk, hhold, -, hsegment, -, -, hmask⟩ := switchRecorded_blocks s
  obtain ⟨-, htrunk', hhold'⟩ := unqueued_switchedPasses s.tables s.responder.edit (switchRecorded s)
    (by rw [hsegment]; exact hpasses)
  have hall := shadowedAll_switchCleared s
  have hcounted : (switchCounted s).responder.mask = 0 := by
    refine (congrArg Quiet.mask (?_ : (switchReturned s).quiet.unswitched = (switchRecorded s).quiet.unswitched) : _).trans
      (hmask.trans h.mask)
    exact congrArg Prod.fst (forNodes_same State.kept (switchPasses_kept _ _) addresses (switchRecorded s))
  have hsame : (switchCleared s).trunk = s.trunk := ((hall.mute hcounted).trans htrunk').trans htrunk
  have hholds : (switchCleared s).hold = s.hold := (hall.hold.trans hhold').trans hhold
  refine ⟨⟨hall.mask.trans hcounted, fun b y hy => h.unreserved b y ?_, ?_⟩, hsame⟩
  · rwa [queue_congr hholds] at hy
  · rw [heldCount_congr hholds]
    unfold State.egressFree
    rw [hsame]
    exact h.room

/-- With room for all of them a tagged entry cut from its queue is reported DISCARDED in an entry that was FREE (R133, R181). -/
theorem tableSwitch_fills_free (h : Roomy s) (hpasses : s.segment.urgent ++ s.segment.normal = [])
    (hold : s.tables.node a = some d) (hmem : x ∈ (s.queue a).drop (capAfter s.responder.edit a)) (htag : x.tag = some tag) :
    ∃ k : Nat, s.trunk.egress[k]? = some .free
      ∧ (tableSwitch s).trunk.egress[k]? = some (.waiting (discardedReport tag x)) := by
  obtain ⟨hroomy, htrunk⟩ := roomy_switchCleared h hpasses
  obtain ⟨k, hk, hfilled⟩ := switchedHold_free (new := s.responder.edit) hroomy hold
    (by rw [queue_switchCleared hold]; exact hmem) htag
  exact ⟨k, by rw [← htrunk]; exact hk, hfilled⟩

end

end Sys2Proof.Machine
end

section
/-! SUPPORT. The table switch at SET MODE SERVICE, its trims and its cleared slots (R24, R33, R58, R59, R107, R122, R123, R139 to R141,
R177, R189). -/

namespace Sys2Proof.Machine

section
variable {s t : State} {n : Nat} {d e : NodeEntry} {rest : List TrunkFrame} {i : Nat} {tag : Word16}

/-- What a switch leaves of what it does not name. -/
theorem tableSwitch_unnamed (s : State) :
    (tableSwitch s).responder.edit = s.responder.edit ∧ (tableSwitch s).responder.identity = s.responder.identity
      ∧ (tableSwitch s).responder.mask = s.responder.mask ∧ (tableSwitch s).trunk.ingress = s.trunk.ingress
      ∧ (tableSwitch s).store.blocks = s.store.blocks ∧ (tableSwitch s).stored = s.stored := by
  obtain ⟨c, hkept⟩ := tableSwitch_kept s
  have hquiet : (tableSwitch s).quiet.unswitched = { s.quiet.unswitched with counters := c } := congrArg Prod.fst hkept
  exact ⟨congrArg Quiet.edit hquiet, congrArg Quiet.identity hquiet, congrArg Quiet.mask hquiet, congrArg Quiet.ingress hquiet,
    congrArg Quiet.blocks hquiet, congrArg Quiet.stored hquiet⟩

/-- A newly configured node (R24, R58, R59). -/
theorem tableSwitch_added_records (hold : s.tables.node n = none) (hnew : s.responder.edit.node n = some e) :
    (tableSwitch s).reserve n = some { estimate := 0, origin := s.gap.clock, aged := false }
      ∧ ∃ r, (tableSwitch s).runtime n = some r
          ∧ r.state = (if s.gapInProgress = true ∧ e.supply = .fed then .suspect else .probe)
          ∧ r.bootCount = none ∧ r.noReply = 0 ∧ r.attempts = 0 ∧ r.misses = 0 ∧ r.expected = none
          ∧ r.window = none ∧ r.nextProbe = none ∧ r.session = none ∧ r.restores = 0 ∧ r.survived = 0
          ∧ r.lost = 0 ∧ r.refusals = 0 ∧ r.passNoReplies = 0
          ∧ r.phase = (if s.gapInProgress = true ∧ e.supply = .fed then some .probe else none)
          ∧ ((s.gapInProgress = true ∧ e.supply = .fed) → n ∈ (tableSwitch s).gap.gapSet) := by
  obtain ⟨q, o, hr, hq, hset⟩ := tableSwitch_added hold hnew
  refine ⟨?_, _, hr, ?_, rfl, rfl, rfl, rfl, rfl, rfl, rfl, rfl, rfl, rfl, rfl, rfl, rfl, ?_, fun h => hset (hq.2 h)⟩
  · rw [reserve_tableSwitch (isAddress_of_node hnew), hold, hnew]
    rfl
  · simp only [← hq]
    rfl
  · simp only [← hq]
    rfl

/-- A node that stays configured keeps its reserve record, lowered to the new holdup (R24). -/
theorem tableSwitch_reserve_kept {r : Reserve} (hold : s.tables.node n = some d) (hnew : s.responder.edit.node n = some e)
    (hr : s.reserve n = some r) :
    (tableSwitch s).reserve n = some { r with estimate := min r.estimate e.holdup } := by
  rw [reserve_tableSwitch (isAddress_of_node hnew), hold, hnew, hr]
  rfl

/-- A removed node (R33, R59, R123, R140). -/
theorem tableSwitch_removed_records (hold : s.tables.node n = some d) (hnew : s.responder.edit.node n = none) :
    (tableSwitch s).reserve n = none ∧ (tableSwitch s).runtime n = none ∧ (tableSwitch s).queue n = []
      ∧ n ∉ (tableSwitch s).gap.gapSet ∧ Moved s.tables s.responder.edit n := by
  obtain ⟨hruntime, hset⟩ := tableSwitch_removed hold hnew
  refine ⟨?_, hruntime, ?_, hset, d, hold, fun e he => by rw [hnew] at he; exact nomatch he⟩
  · rw [reserve_tableSwitch (isAddress_of_node hold), hold, hnew]
    rfl
  · rw [queue_tableSwitch hold, capAfter, hnew]
    exact List.take_zero

/-! ### The command -/

theorem State.Asks.exec_switch (h : s.Asks .setMode tag [1] rest i) (hmode : s.responder.mode = .depot)
    (hfits : s.responder.edit.firstFault = none) :
    exec .setMode s =
      .next (endCommand ((tableSwitch (s.reserved rest i)).enqueue i
        { kind := 0x42, tag := tag, outcome := 0x01, body := [0x30, 1] })) := by
  rw [h.runs_act (c := .setMode) (act := actSetMode) rfl nofun rfl]
  show Host.Outcome.next (endCommand (match (s.reserved rest i).responder.mode with
    | .service => _ | .depot => enterService _ _)) = _
  rw [show (s.reserved rest i).responder.mode = .depot from hmode]
  show Host.Outcome.next (endCommand (enterService _ _)) = _
  rw [enterService, show (s.reserved rest i).responder.edit.firstFault = none from hfits]
  rfl

/-- The answer of a command, and its end, change the Trunk Port and the model's count of moments only. -/
theorem endCommand_enqueue (w : State) (f : TrunkFrame) :
    ∃ x m, endCommand (w.enqueue i f) = { w with trunk := x, moment := m } ∧ x.ingress = w.trunk.ingress := by
  rw [endCommand_transmit]
  exact ⟨_, _, rfl, rfl⟩

/-- A frame that waits in another entry stands in egress after the answer. -/
theorem shows_after_answer {w : State} {k : Nat} {f : TrunkFrame} (g : TrunkFrame) (hki : k ≠ i)
    (h : w.trunk.egress[k]? = some (.waiting f)) : (endCommand (w.enqueue i g)).Shows k f :=
  State.Shows.endCommand (.inl ((egress_enqueue_other hki g).trans h))

theorem lt_of_egress {x : EgressEntry} {k : Nat} (h : s.trunk.egress[k]? = some x) : k < 24 := by
  by_contra hlt
  rw [Vector.getElem?_eq_none (Nat.le_of_not_lt hlt)] at h
  exact nomatch h

section
variable {j k : Nat} {x : HoldEntry} {g : Word16}

/-- A tagged entry beyond the cap is reported DISCARDED in the entry reserved for it. -/
theorem switch_reports_reserved (hi : s.freeEntry = some i) (hold : s.tables.node n = some d)
    (hnew : s.responder.edit.node n = some e) (hj : (s.queue n)[j]? = some x) (hcap : e.holdCap ≤ j) (htag : x.tag = some g)
    (hx : x.reservation = some k) (hk : s.trunk.egress[k]? = some .reserved)
    (hsole : ∀ b y, y ∈ s.queue b → y.reservation = some k → y = x) (a : TrunkFrame) :
    (endCommand ((tableSwitch (s.reserved rest i)).enqueue i a)).Shows k
      { kind := 0x43, tag := g, outcome := 0x22, body := [u8 x.node] } := by
  have hki : k ≠ i := fun h => by
    rw [h, (freeEntry_eq_some hi).2] at hk
    exact nomatch hk
  refine shows_after_answer a hki ?_
  have hbeyond : x ∈ (s.queue n).drop (capAfter s.responder.edit n) :=
    mem_drop_of_getElem? hj (by rw [capAfter, hnew]; exact hcap)
  exact tableSwitch_fills_reservation (s := s.reserved rest i) hold hbeyond htag hx (lt_of_egress hk) hsole

/-- With room for all of them, in an entry that was FREE. -/
theorem switch_reports_free (hi : s.freeEntry = some i) (hold : s.tables.node n = some d)
    (hnew : s.responder.edit.node n = some e) (hmask : s.responder.mask = 0)
    (hpasses : s.segment.urgent ++ s.segment.normal = []) (hnone : ∀ b y, y ∈ s.queue b → y.reservation = none)
    (hroom : s.heldCount < s.egressFree) (hj : (s.queue n)[j]? = some x) (hcap : e.holdCap ≤ j) (htag : x.tag = some g)
    (a : TrunkFrame) :
    ∃ k : Nat, s.trunk.egress[k]? = some .free ∧ (endCommand ((tableSwitch (s.reserved rest i)).enqueue i a)).Shows k
      { kind := 0x43, tag := g, outcome := 0x22, body := [u8 x.node] } := by
  have hroomy : Roomy (s.reserved rest i) := ⟨hmask, hnone, by
    rw [egressFree_reserved hi]
    exact Nat.le_sub_one_of_lt hroom⟩
  have hbeyond : x ∈ (s.queue n).drop (capAfter s.responder.edit n) :=
    mem_drop_of_getElem? hj (by rw [capAfter, hnew]; exact hcap)
  obtain ⟨k, hk, hfilled⟩ := tableSwitch_fills_free (s := s.reserved rest i) hroomy hpasses hold hbeyond htag
  obtain ⟨hki, hfree⟩ := (free_reserved k).1 hk
  exact ⟨k, hfree, shows_after_answer a hki hfilled⟩

end

end

/-- Settles O34: what each block's part of the switch does for each address, and that no other part undoes it. -/
theorem switchMakesEditCopyActive : Obligations.SwitchMakesEditCopyActive := by
  intro s tag rest i h hmode hfits old new a cleared
  have hi : s.freeEntry = some i := h.1.2
  have hanswer := (shows_enqueue (freeEntry_eq_some hi).1 (tableSwitch (s.reserved rest i)) a).endCommand
  obtain ⟨x, m, hblocks, hingress⟩ := endCommand_enqueue (i := i) (tableSwitch (s.reserved rest i)) a
  obtain ⟨t, ht⟩ : ∃ t, t = endCommand ((tableSwitch (s.reserved rest i)).enqueue i a) := ⟨_, rfl⟩
  rw [← ht] at hanswer hblocks
  obtain ⟨htables, hservice⟩ := tableSwitch_tables (s.reserved rest i)
  obtain ⟨hedit, hidentity, hmask, hrest, hstore, hstored⟩ := tableSwitch_unnamed (s.reserved rest i)
  obtain ⟨hcondition, hclock⟩ := clock_tableSwitch (s.reserved rest i)
  have hcounters := counters_tableSwitch (s.reserved rest i)
  have hcleared : ∀ n d, old.node n = some d → Moved old new n → cleared t n d := fun n d hold hmoved => by
    rw [hblocks]
    exact tableSwitch_cleared (s := s.reserved rest i) hold hmoved
  refine ⟨t, (h.exec_switch hmode hfits).trans (congrArg _ ht.symm), ?_⟩
  refine ⟨?_, ?_, ?_, ?_, ?_, hanswer, ?_, ?_, ?_, ?_, ?_, ?_, fun k hk hsame => ?_, fun k hk hdiffers => ?_, fun hsame => ?_,
    fun hdiffers => ?_, fun n e hold hnew => ?_, fun n d hold hnew => ?_, fun n d e r hold hnew hr => ?_,
    fun n d e hold hnew => ⟨?_, fun hrelease hcap hqueue => ?_, fun j y k g hj hcap htag hy hk _ hsole => ?_,
      fun hmask hpasses hnone hroom j y g hj hcap htag => ?_, fun hdiffers => ?_,
      fun hbase hcount hfitted j hlow hhigh => ?_⟩⟩
  · rw [hblocks]; exact htables
  · rw [hblocks]; exact hservice
  · rw [hblocks]; exact hedit
  · rw [hblocks]; exact hidentity
  · rw [hblocks]; exact hmask
  · rw [hblocks]; exact hingress.trans hrest
  · rw [hblocks]; rfl
  · rw [hblocks]; exact hstore
  · rw [hblocks]; exact hstored
  · rw [hblocks]; exact hcondition
  · rw [hblocks]; exact hclock
  · rw [hblocks]
    dsimp only
    rw [hcounters, rules_switchCounters _ hk]
    exact if_pos hsame
  · rw [hblocks]
    dsimp only
    rw [hcounters, rules_switchCounters _ hk]
    exact if_neg hdiffers
  · rw [hblocks]
    dsimp only
    rw [hcounters]
    exact if_pos hsame
  · rw [hblocks]
    dsimp only
    rw [hcounters]
    exact if_neg hdiffers
  · rw [hblocks]
    exact tableSwitch_added_records (s := s.reserved rest i) hold hnew
  · obtain ⟨hreserve, hruntime, hqueue, hset, hmoved⟩ := tableSwitch_removed_records (s := s.reserved rest i) hold hnew
    have hgone := hcleared n d hold hmoved
    rw [hblocks] at hgone ⊢
    exact ⟨hreserve, hruntime, hqueue, hset, hgone⟩
  · rw [hblocks]
    exact tableSwitch_reserve_kept (s := s.reserved rest i) hold hnew hr
  · have hqueue := queue_tableSwitch (s := s.reserved rest i) hold
    rw [capAfter, show (s.reserved rest i).responder.edit.node n = some e from hnew] at hqueue
    rw [hblocks]
    exact hqueue
  · rw [hblocks]
    exact tableSwitch_leaves_release (s := s.reserved rest i) hold hnew hrelease hcap hqueue
  · rw [ht]
    exact switch_reports_reserved hi hold hnew hj hcap htag hy hk hsole a
  · rw [ht]
    exact switch_reports_free hi hold hnew hmask hpasses hnone hroom hj hcap htag a
  · have hmoved := (moved_iff hold hnew).1 fun hsame => hdiffers.elim (fun hb => hb hsame.1) fun hc => hc hsame.2
    refine ⟨hcleared n d hold hmoved, fun hstep => ?_⟩
    rw [hblocks]
    exact tableSwitch_leaves_replay (s := s.reserved rest i) hold hnew hmoved hstep
  · rw [hblocks]
    exact slot_tableSwitch (s := s.reserved rest i) hfits hfitted hold hnew hbase hcount hlow hhigh

end Sys2Proof.Machine
end
